-- ==== Sys2Proof/Word.lean ====
section
/-! DEFINITION. The words and the plain integer arithmetic of the manual's conventions (00_scope.md): line codes,
rounding, saturation and clamping. -/

namespace Sys2Proof

/-- An eight-bit line code of the trunk highway. -/
abbrev Byte := BitVec 8

/-- A pair of codes for ROUT and SOUT. -/
structure CodePair where
  rout : Byte
  sout : Byte
  deriving DecidableEq, Repr

/-- "round" of the conventions: `n / d` to the nearest integer, a half away from zero. -/
def roundDiv (n : Int) (d : Nat) : Int :=
  if 0 ≤ n then (2 * n + d) / (2 * d) else -((2 * (-n) + d) / (2 * d))

/-- "saturate to ±m" of the conventions. -/
def saturate (m : Nat) (v : Int) : Int :=
  if v > m then m else if v < -(m : Int) then -m else v

/-- "clamp to a..b" of the conventions. -/
def clampInt (a b v : Int) : Int :=
  if v < a then a else if v > b then b else v

/-- "clamp to a..b" on naturals. -/
def clampNat (a b v : Nat) : Nat :=
  if v < a then a else if v > b then b else v

/-- A count that rises by 1 and saturates at `top`. -/
def countUp (top v : Nat) : Nat := min top (v + 1)

end Sys2Proof
end

