-- ==== Sys2Proof/Syntax.lean ====
section
/-! DEFINITION. The lane messages of the kinds table (R143) and the commands of the opcode table, one constructor
per row. The table gives its rows no bits, so an operand is what the row's rule reads: a slot, the codes of a slot,
the levels read on a wire, the fields of a message. -/

namespace Sys2Proof

/-- A message of the lane with its fields as they are carried, in the order of the kinds table (R143, R144). -/
inductive Msg where
  | notice (kind : BitVec 4) (argument : BitVec 16) (sender : BitVec 4)
  | report (page : BitVec 3) (argument : BitVec 9) (body : BitVec 88) (sender : BitVec 4)
  | query (target : BitVec 4) (page : BitVec 3) (argument : BitVec 9) (sender : BitVec 4)
  | run (target : BitVec 4) (mask : BitVec 12) (idleCount : BitVec 12) (codeCount : BitVec 3)
      (code1 code2 code3 code4 : BitVec 8) (sender : BitVec 4)
  | profile (target : BitVec 4) (index : BitVec 3) (budget reach : BitVec 5) (step : BitVec 3)
      (switches : BitVec 5) (sendTarget receiveTarget : BitVec 5) (sendG receiveG : BitVec 7) (sender : BitVec 4)
  | slotControl (slot : BitVec 7) (action profile : BitVec 3) (sender : BitVec 4)
  | offer (slot : BitVec 7) (demand : BitVec 5) (profile : BitVec 3) (frozen : BitVec 1) (sender : BitVec 4)
  | reclaim (slot : BitVec 7) (sender : BitVec 4)
  | adopt (slot : BitVec 7) (margin : BitVec 8) (sender : BitVec 4)
  | bid (slot : BitVec 7) (margin : BitVec 8) (sender : BitVec 4)
  | grant (slot : BitVec 7) (taker : BitVec 4) (sender : BitVec 4)
  | returnSlot (slot : BitVec 7) (cause : BitVec 3) (sender : BitVec 4)
  deriving DecidableEq, Repr

/-- Stored bits of one tap entry that have gone wrong, bits of its check code included (R106): the block 0..263, the
entry 0..63, and how many bits. -/
structure TapUpset where
  block : BitVec 9
  entry : BitVec 6
  bits  : Nat
  deriving DecidableEq, Repr

/-- The three cells of a lane frame (R137). -/
inductive CellName where
  | a | b | c
  deriving DecidableEq, Repr

/-- The commands: one constructor per row of the opcode table, in the table's order. -/
inductive Instr where
  /-- RESET input asserted. -/
  | resetAssertion
  /-- RESET input released: the station-number and population straps as read, and the wrong bits that the patterns of
  the memory test that now starts read back with. -/
  | resetRelease (station population : BitVec 3) (tested : List TapUpset)
  | testEnd
  /-- A frame sync pulse at a bit clock counted from RESET release. -/
  | frameSyncPulse (clock : Nat)
  | syncLock
  | syncRegain
  /-- An expected position, with or without a pulse. -/
  | expectedPositionCheck (pulse : Bool)
  | syncLoss
  | huntPeriod
  /-- The RIN and SIN codes of a slot in this frame, and the bits of tap memory that go wrong before the sample reads
  its taps. -/
  | sample (slot : BitVec 7) (rin sin : Byte) (upsets : List TapUpset)
  | callEnd (slot : BitVec 7)
  | retirement (block : BitVec 9)
  | dtHangoverEnd (slot : BitVec 7)
  | nlpHangoverExpiry (slot : BitVec 7)
  | blockEnd (slot : BitVec 7)
  | pathChange (slot : BitVec 7)
  | evaluation (slot : BitVec 7)
  | toneHold (slot : BitVec 7)
  | toneHoldRelease (slot : BitVec 7)
  | disabledRelease (slot : BitVec 7)
  /-- The boundary that ends a lane frame, with the serve marks the other parties asserted in it: bit s is slot s. -/
  | frameBoundary (others : BitVec 128)
  | orphan (slot : BitVec 7)
  | adoptJudgement (slot : BitVec 7)
  | offerWindowEnd (slot : BitVec 7)
  | bidWindowExpiry (slot : BitVec 7)
  | grantStale (slot : BitVec 7)
  | bidTimeout (slot : BitVec 7)
  | offerMemoryExpiry (slot : BitVec 7)
  | handOver (slot : BitVec 7)
  | reclaimAgeExpiry (slot : BitVec 7)
  | listenEnd
  | configTimeout
  | runEntry
  /-- A cell of the lane starts; `line` is the level read over its 128 bits, cell bit 0 the most significant. -/
  | cellStart (cell : CellName) (line : BitVec 128)
  | cellEnd
  /-- A message read in a cell whose check and kind passed and which this station did not win: the judgement goes on
  from the sender test (R145). -/
  | offer (slot : BitVec 7) (demand : BitVec 5) (profile : BitVec 3) (frozen : BitVec 1) (sender : BitVec 4)
  | bid (slot : BitVec 7) (margin : BitVec 8) (sender : BitVec 4)
  | grant (slot : BitVec 7) (taker : BitVec 4) (sender : BitVec 4)
  | returnSlot (slot : BitVec 7) (cause : BitVec 3) (sender : BitVec 4)
  | adopt (slot : BitVec 7) (margin : BitVec 8) (sender : BitVec 4)
  | reclaim (slot : BitVec 7) (sender : BitVec 4)
  | profileAction (slot : BitVec 7) (profile : BitVec 3) (sender : BitVec 4)
  | transparentOn (slot : BitVec 7) (sender : BitVec 4)
  | transparentOff (slot : BitVec 7) (sender : BitVec 4)
  | freeze (slot : BitVec 7) (sender : BitVec 4)
  | resume (slot : BitVec 7) (sender : BitVec 4)
  | settle (slot : BitVec 7) (sender : BitVec 4)
  | restart (slot : BitVec 7) (sender : BitVec 4)
  | noAction (slot : BitVec 7) (sender : BitVec 4)
  | profileMessage (target : BitVec 4) (index : BitVec 3) (budget reach : BitVec 5) (step : BitVec 3)
      (switches : BitVec 5) (sendTarget receiveTarget : BitVec 5) (sendG receiveG : BitVec 7) (sender : BitVec 4)
  | runMessage (target : BitVec 4) (mask : BitVec 12) (idleCount : BitVec 12) (codeCount : BitVec 3)
      (code1 code2 code3 code4 : BitVec 8) (sender : BitVec 4)
  | queryIdentity (target : BitVec 4) (argument : BitVec 9) (sender : BitVec 4)
  | queryStation (target : BitVec 4) (argument : BitVec 9) (sender : BitVec 4)
  | queryChannelA (target : BitVec 4) (argument : BitVec 9) (sender : BitVec 4)
  | queryChannelB (target : BitVec 4) (argument : BitVec 9) (sender : BitVec 4)
  | queryBlock (target : BitVec 4) (argument : BitVec 9) (sender : BitVec 4)
  | queryUnknownPage (target : BitVec 4) (page : BitVec 3) (argument : BitVec 9) (sender : BitVec 4)
  | report (page : BitVec 3) (argument : BitVec 9) (body : BitVec 88) (sender : BitVec 4)
  | notice (kind : BitVec 4) (argument : BitVec 16) (sender : BitVec 4)
  deriving DecidableEq, Repr

end Sys2Proof
end

