-- ==== Sys2Proof/Decode.lean ====
section
/-! DEFINITION. The command a table word spells. spec/opcode_table.json gives bits to none of its rows (each row's
"fields" is empty and no row has "fixed"), so no word spells a command: the part takes events on pins and messages on
the lane, not encoded words. The encoding the manual does give, that of a lane cell, is Machine/LaneCode.lean. -/

namespace Sys2Proof

/-- The command that a word spells by the table's bits: none, since no row of the table has bits. -/
def decodeTableWord (_nbits _w : Nat) : Option Instr := none

end Sys2Proof
end

