-- ==== Sys2Proof/Config.lean ====
section
/-! DEFINITION. What one SKE-64 fixes: sizes, limits and the tables of its level scale, gains and tone reference.
The one value the manual leaves open, what a read of a tap entry with three or more wrong bits gives, is an opaque
constant: no proof can see it. -/

namespace Sys2Proof.Config

/-- Time slots of the highway (R1). -/
def slots : Nat := 128
/-- Context records of a station (R17). -/
def contexts : Nat := 64
/-- Physical tap blocks (R96). -/
def tapBlocks : Nat := 264
/-- Blocks the start-up test places in service at most (R99). -/
def inService : Nat := 256
/-- Tap entries of a block (R38). -/
def taps : Nat := 64
/-- Entries of the reference history (R39). -/
def historyLen : Nat := 1024
/-- Samples that P, and each P_in, sums (R40, R118). -/
def powerSpan : Nat := 256
/-- Samples of a context block. -/
def blockLen : Nat := 32
/-- The double-talk hangover (R61). -/
def dtHangover : Nat := 240
/-- MS_ref from which the reference is active (R41). -/
def activeFloor : Nat := 256
/-- MS_in from which a direction is evaluated (R121). -/
def levelFloor : Nat := 407
/-- Counting commits of a pass (R83). -/
def dwellTop : Nat := 64
/-- Path-change run count at which a path change is declared (R57). -/
def pathTop : Nat := 32
/-- Corrected count at which a block retires (R108). -/
def retireAt : Nat := 16
/-- Messages the send queue holds at most (R150). -/
def queueTop : Nat := 16
/-- Frames of TEST, of LISTEN, and of CONFIG without a RUN (R14, R169, R177). -/
def testFrames : Nat := 32
def listenFrames : Nat := 16
def configFrames : Nat := 8000
/-- RECLAIM age at which a RECLAIM is queued again (R170). -/
def reclaimTop : Nat := 8000
/-- Unmarked frames that make an orphan (R167). -/
def orphanAt : Nat := 8
/-- Correctly spaced frame syncs that make a lock (R14), and bit clocks of a frame (R1). -/
def lockAt : Nat := 8
def frameClocks : Nat := 1024
/-- The idle code that fills a serving start (R4). -/
def idleCode : Byte := 0xD5
/-- Bounds of the gain index (R115). -/
def gainLow : Int := -36
def gainHigh : Int := 24
/-- Bounds of the noise estimate (R70). -/
def noiseTop : Nat := 16384
/-- What a read gives of a tap entry (h, Gc, Gh) with three or more wrong bits: none when the code shows it as
uncorrectable, else whether the code shows a correction, and the three values read. DESIGN CHOICE, log entry 32: free,
since R106 says what the code does with one and with two wrong bits only. -/
opaque readOfMany (bits : Nat) (h gc gh : Int) : Option (Bool × Int × Int × Int)
/-- Identity of the part (R180). -/
def vendorCode : Nat := 0x5B3
def partCode : Nat := 0x6A4
def revision : Nat := 1

/-- round(4096 · 10^(G/40)) for G = −36, −35, .. 24 (R115); `Laws.gainTable_nearest` shows each entry nearest. -/
def gainTable : List Nat :=
  [516, 546, 579, 613, 649, 688, 728, 772, 817, 866, 917, 971]
  ++ [1029, 1090, 1154, 1223, 1295, 1372, 1453, 1539, 1631, 1727, 1830, 1938]
  ++ [2053, 2175, 2303, 2440, 2584, 2738, 2900, 3072, 3254, 3446, 3651, 3867]
  ++ [4096, 4339, 4596, 4868, 5157, 5462, 5786, 6129, 6492, 6876, 7284, 7715]
  ++ [8173, 8657, 9170, 9713, 10289, 10898, 11544, 12228, 12953, 13720, 14533, 15394]
  ++ [16306]

/-- (MS_T, MS_lo, MS_hi) for the targets −6, −7, .. −24 dBm0 (R119). -/
def targetTable : List (Nat × Nat × Nat) :=
  [(1022338, 723760, 1444091), (812072, 574903, 1147082), (645052, 456662, 911160), (512383, 362739, 723760), (407000, 288134, 574903)]
  ++ [(323292, 228873, 456662), (256800, 181800, 362740), (203983, 144409, 288134), (162030, 114708, 228873), (128705, 91116, 181801)]
  ++ [(102234, 72376, 144409), (81207, 57490, 114708), (64505, 45666, 91116), (51238, 36274, 72376), (40700, 28813, 57490)]
  ++ [(32329, 22887, 45666), (25680, 18180, 36274), (20398, 14441, 28813), (16203, 11471, 22887)]

/-- c_n = round(16384 · cos(2π·2100·n/8000)) for n = 0..31 (R129). -/
def cosTable : List Int :=
  [16384, -1285, -16182, 3825, 15582, -6270, -14598, 8561, 13255, -10641, -11585, 12458]
  ++ [9630, -13970, -7438, 15137, 5063, -15931, -2563, 16333, 0, -16333, 2563, 15931]
  ++ [-5063, -15137, 7438, 13970, -9630, -12458, 11585, 10641]

/-- s_n = round(16384 · sin(2π·2100·n/8000)) for n = 0..31 (R129). -/
def sinTable : List Int :=
  [0, 16333, -2563, -15931, 5063, 15137, -7438, -13970, 9630, 12458, -11585, -10641]
  ++ [13255, 8561, -14598, -6270, 15582, 3825, -16182, -1285, 16384, -1285, -16182, 3825]
  ++ [15582, -6270, -14598, 8561, 13255, -10641, -11585, 12458]

/-- cs and sn of the phase prediction: a rotation by 144° (R131). -/
def phaseCos : Int := -13255
def phaseSin : Int := 9630

end Sys2Proof.Config
end

