-- ==== Sys2Proof/Machine/Types.lean ====
section
/-! DEFINITION. The records of the station's nine blocks (00_scope.md, Functional blocks), as plain data. -/

namespace Sys2Proof.Machine

/-! ### Highway Interface -/

/-- Sync state (R14, R15). -/
inductive SyncState where
  | hunt | locked
  deriving DecidableEq, Repr

/-- A pair of codes in a slot's output pipeline with the frame it is to be driven in (R2, R3). -/
structure Placed where
  frame : Nat
  codes : CodePair
  deriving DecidableEq, Repr

/-- The output lines in the slot time last taken: the slot, and the codes driven on ROUT and SOUT, or none at high
impedance (R3, R6). -/
structure OutputLines where
  slot  : Option Nat
  codes : Option CodePair
  deriving DecidableEq, Repr

structure Highway where
  sync       : SyncState
  spacing    : Nat
  miss       : Nat
  framesLost : Nat
  /-- Bit clock of the last pulse seen in HUNT, counted from RESET release. -/
  lastPulse  : Option Nat
  /-- Bit clock of the pulse that locked the interface; expected positions lie 1024 apart from it. -/
  lockClock  : Option Nat
  /-- Per slot, the codes to drive in this frame and the next two, at most. -/
  pipeline   : List (List Placed)
  idleCodes  : List Byte
  idleCount  : Nat
  lines      : OutputLines
  deriving DecidableEq, Repr

/-! ### Profile Table -/

/-- The station states, and `held` while RESET is asserted (R174). -/
inductive StationState where
  | held | test | listen | config | run | unsynced
  deriving DecidableEq, Repr

/-- A profile (R175). Targets are in dBm0, gains in half-decibel steps. -/
structure Profile where
  budget        : Nat
  reach         : Nat
  step          : Nat
  nlp           : Bool
  comfortNoise  : Bool
  sendAlc       : Bool
  receiveAlc    : Bool
  tone          : Bool
  sendTarget    : Int
  receiveTarget : Int
  sendG         : Int
  receiveG      : Int
  deriving DecidableEq, Repr

structure ProfileTable where
  station      : StationState
  k            : Nat
  n            : Nat
  clamped      : Bool
  runReached   : Bool
  configFrames : Nat
  /-- Frames of TEST and of LISTEN that have ended. -/
  testFrames   : Nat
  listenFrames : Nat
  /-- The frame in which the last RUN message was accepted in this CONFIG. -/
  runAccepted  : Option Nat
  profiles     : List Profile
  noticeMask   : BitVec 12
  deriving DecidableEq, Repr

/-! ### Context Table and the blocks that keep their state in a context -/

inductive Kind where
  | home | guest
  deriving DecidableEq, Repr

inductive Role where
  | homeServing | homeOffering | handed | reclaiming | guestFree | reserved | taken | actingHome | returning
  deriving DecidableEq, Repr

inductive CallState where
  | notServing | idle | search | track | bypass | disabled
  deriving DecidableEq, Repr

inductive NlpState where
  | opened | closed
  deriving DecidableEq, Repr

inductive AtLimit where
  | clear | lower | upper
  deriving DecidableEq, Repr

inductive PassStatus where
  | inPass | waiting
  deriving DecidableEq, Repr

/-- The current-block record (R46, R50, R62), with the lead-in mark of R27. -/
structure BlockRecord where
  clean      : Bool
  count      : Nat
  sumY       : Nat
  sumE       : Nat
  activeSeen : Bool
  leadIn     : Bool
  deriving DecidableEq, Repr

/-- The hold record when occupied (R49). -/
structure HoldRecord where
  clean : Bool
  count : Nat
  denom : Nat
  deriving DecidableEq, Repr

/-- Level state of one direction (07_level_control.md); `inputs` are the inputs P_in sums, newest first. -/
structure Level where
  gain    : Int
  power   : Nat
  inputs  : List Int
  spacing : Nat
  peak    : Bool
  limit   : AtLimit
  deriving DecidableEq, Repr

/-- The sums of the last judged block with its mark (R130). -/
structure ToneBlock where
  c    : Int
  s    : Int
  tone : Bool
  deriving DecidableEq, Repr

/-- Tone state of one direction (R128). -/
structure Tone where
  c         : Int
  s         : Int
  e         : Nat
  previous  : Option ToneBlock
  run       : Nat
  qualified : Bool
  release   : Nat
  reversal  : Bool
  deriving DecidableEq, Repr

/-- The parts a context holds while it serves (R22, R23). `history` is newest first and holds the samples of the call
so far, at most 1024: an entry beyond its end is the zero entry of R39. `failed` is the segments whose block failed on
the latest sample (R44), `ending` says that the latest sample brought a call end not yet taken (R13). DEDUCED, log
entry 18. -/
structure Serving where
  profile     : Nat
  callPresent : Bool
  idleRun     : Nat
  ending      : Bool
  phase       : Nat
  history     : List Int
  power       : Nat
  block       : BlockRecord
  hold        : Option HoldRecord
  msSin       : Nat
  msErr       : Nat
  pathRun     : Nat
  hangover    : Nat
  dtFlag      : Bool
  nlp         : NlpState
  inactive    : Nat
  noise       : Nat
  generator   : BitVec 23
  receive     : Level
  send        : Level
  toneReceive : Tone
  toneSend    : Tone
  failed      : List Nat
  deriving DecidableEq, Repr

/-- What stands on a segment of the map: a block, nothing (an unfilled plan segment), or, within the handling of an
uncorrectable error, a block just lost (R110). -/
inductive Fill where
  | block (b : Nat)
  | unfilled
  | lost
  deriving DecidableEq, Repr

structure Segment where
  number : Nat
  fill   : Fill
  deriving DecidableEq, Repr

/-- The search record (R77). In SEARCH `map` is the bound segments, ascending; in TRACK it is the plan, in plan order.
`spare` and `explored` are sets, kept ascending; `retained` is in strength order. -/
structure SearchRecord where
  map      : List Segment
  spare    : List Nat
  explored : List Nat
  retained : List Nat
  pass     : Nat
  status   : PassStatus
  dwell    : Nat
  want     : Nat
  deriving DecidableEq, Repr

/-- Offer record (R22): the offer frame, and the best bid as station and margin. -/
structure OfferRecord where
  frame : Option Nat
  best  : Option (Nat × Nat)
  deriving DecidableEq, Repr

/-- Reservation (R22, R159): the demand, the offered profile, the margin bid, and the bid frame. -/
structure Reservation where
  demand   : Nat
  profile  : Nat
  margin   : Nat
  bidFrame : Option Nat
  deriving DecidableEq, Repr

/-- What a RECLAIMING home keeps: its RECLAIM age, the frame in which its last RECLAIM was carried, and the first frame
whose mark record the absence rule reads (R157, R166, R170). -/
structure Reclaim where
  age       : Nat
  carried   : Option Nat
  judgeFrom : Nat
  deriving DecidableEq, Repr

/-- A context record (R18 to R22). A hand-over frame is held as the frame a serving stop, or a serving start, takes
effect; `grantee` is the taker named in the GRANT that fixed a home's stop. -/
structure Context where
  kind          : Kind
  slot          : Option Nat
  role          : Role
  server        : Option Nat
  profile       : Nat
  frozen        : Bool
  transparent   : Bool
  toneHold      : Bool
  pendingReturn : Bool
  offer         : Option OfferRecord
  reservation   : Option Reservation
  reclaim       : Option Reclaim
  stopAt        : Option Nat
  grantee       : Option Nat
  startAt       : Option Nat
  callState     : CallState
  serving       : Option Serving
  search        : Option SearchRecord
  deriving DecidableEq, Repr

structure ContextTable where
  contexts  : List Context
  /-- Per slot, the context that holds it (R18). -/
  directory : List (Option Nat)
  deriving DecidableEq, Repr

/-! ### Tap Pool -/

inductive BlockState where
  | free | assigned | reserved | spare | failed
  deriving DecidableEq, Repr

/-- A tap entry: coefficient h, gradient sum Gc, held gradient Gh. -/
structure TapEntry where
  h  : Int
  gc : Int
  gh : Int
  deriving DecidableEq, Repr

/-- The owner of a block: a context of this station and its slot (R96). -/
structure Owner where
  context : Nat
  slot    : Nat
  deriving DecidableEq, Repr

/-- A block record (R96) with its 64 tap entries as they were last written. `lastSegment` is the last segment the block
was bound to, which a FAILED block shows. `wrong` stands for the entries' check codes (R106): per entry, ascending, how
many of its stored bits, code bits included, differ from what its last write stored. DEDUCED, log entry 6. -/
structure TapBlock where
  state         : BlockState
  owner         : Option Owner
  segment       : Option Nat
  lastSegment   : Option Nat
  retirePending : Bool
  corrected     : Nat
  entries       : List TapEntry
  wrong         : List (Nat × Nat)
  deriving DecidableEq, Repr

structure Pool where
  blocks    : List TapBlock
  fifo      : List Nat
  shortfall : List Nat
  /-- The memory test's finding per block, judged at the end of TEST (R98). -/
  faulty    : BitVec 264
  deriving DecidableEq, Repr

/-! ### Lane Controller -/

/-- A send-queue entry: the message, its eligible frame, and for a BID or GRANT the frame of the OFFER (R150, R152). -/
structure Entry where
  msg        : Msg
  eligible   : Nat
  offerFrame : Option Nat
  deriving DecidableEq, Repr

/-- The cell under way: its name, the entry being sent, the bits this station asserts, the bit at which it lost, and
the 128 levels read (R141). Cell bit 0 is the most significant bit. -/
structure Cell where
  name     : CellName
  sending  : Option Entry
  asserted : BitVec 128
  lostAt   : Option Nat
  line     : BitVec 128
  deriving DecidableEq, Repr

structure Lane where
  queue      : List Entry
  /-- Queued entries withdrawn while a cell is under way: they leave the queue at its end (R152). -/
  recalled   : List Entry
  /-- The marks read in the last frame, and those this station asserted in it (R138); bit s is slot s. -/
  markRecord : BitVec 128
  ownRecord  : BitVec 128
  discards   : Nat
  drops      : Nat
  clashes    : Nat
  surplus    : Nat
  cell       : Option Cell
  lastCell   : CellName
  deriving DecidableEq, Repr

/-! ### Sharing records (R157) -/

/-- An offer memory entry. -/
structure OfferMemory where
  sender  : Nat
  demand  : Nat
  profile : Nat
  frozen  : Bool
  frame   : Nat
  deriving DecidableEq, Repr

/-- The sharing records: the offer memory and absence counts per slot; the LISTEN record (bit s for home slot s: its
mark in the last frame and the one before, an ADOPT in the frame under way and the last one); own carried ADOPTs not
yet judged, as slot and frame (R168). -/
structure Sharing where
  offers       : List (Option OfferMemory)
  absence      : List Nat
  listenMarks  : BitVec 128
  listenMarks' : BitVec 128
  listenAdopt  : BitVec 128
  listenAdopt' : BitVec 128
  adopting     : List (Nat × Nat)
  deriving DecidableEq, Repr

end Sys2Proof.Machine
end

