-- ==== Sys2Proof/Machine/Init.lean ====
section
/-! DEFINITION. The values records take at RESET and at creation. -/

namespace Sys2Proof.Machine

/-- Default profile values (R175). -/
def defaultProfile (index : Nat) : Profile :=
  { budget := if index = 7 then 0 else 8, reach := 16, step := 2, nlp := true, comfortNoise := true, sendAlc := true,
    receiveAlc := true, tone := true, sendTarget := -16, receiveTarget := -16, sendG := 0, receiveG := 0 }

/-- Profiles 0..7 after RESET (R175). -/
def defaultProfiles : List Profile := (List.range 8).map defaultProfile

/-- The number H of home slots of station k on a shelf of population n (R17). -/
def homeCount (k n : Nat) : Nat := if k < n then (127 - k) / n + 1 else 0

/-- A home context bound to its slot, as RESET leaves it (R19). -/
def homeContext (slot : Nat) : Context :=
  { kind := .home, slot := some slot, role := .homeServing, server := none, profile := 0, frozen := false,
    transparent := false, toneHold := false, pendingReturn := false, offer := none, reservation := none,
    reclaim := none, stopAt := none, grantee := none, startAt := none, callState := .notServing, serving := none,
    search := none }

/-- A guest context in GUEST-FREE with its fields cleared (R19, R20). -/
def freeGuest : Context :=
  { homeContext 0 with kind := .guest, slot := none, role := .guestFree }

/-- The 64 contexts of station k on a shelf of population n (R17). -/
def contextsFor (k n : Nat) : List Context :=
  (List.range Config.contexts).map fun i => if i < homeCount k n then homeContext (k + i * n) else freeGuest

/-- The slot directory of home slots (R18). -/
def directoryFor (k n : Nat) : List (Option Nat) :=
  (List.range Config.slots).map fun s => if k < n ∧ s % n = k then some (s / n) else none

def tableFor (k n : Nat) : ContextTable := { contexts := contextsFor k n, directory := directoryFor k n }

/-- 64 tap entries at zero (R48). -/
def zeroTaps : List TapEntry := List.replicate Config.taps ⟨0, 0, 0⟩

/-- A block with no owner in the given state. -/
def idleBlock (st : BlockState) : TapBlock :=
  { state := st, owner := none, segment := none, lastSegment := none, retirePending := false, corrected := 0,
    entries := zeroTaps, wrong := [] }

/-- The states of blocks b, b+1, .. by the memory test's finding, with `room` places in service left (R99). -/
def placeFrom (faulty : BitVec 264) : Nat → List Nat → List TapBlock
  | _, [] => []
  | room, b :: bs =>
    if faulty.getLsbD b then idleBlock .failed :: placeFrom faulty room bs
    else if 0 < room then idleBlock .free :: placeFrom faulty (room - 1) bs
    else idleBlock .spare :: placeFrom faulty room bs

/-- The indices from `i` on of the elements that satisfy `p`. -/
def indicesFrom {α : Type} (p : α → Bool) : Nat → List α → List Nat
  | _, [] => []
  | i, x :: xs => if p x then i :: indicesFrom p (i + 1) xs else indicesFrom p (i + 1) xs

/-- The pool as the start-up memory test places it (R99). DESIGN CHOICE, log entry 5. -/
def placement (faulty : BitVec 264) : Pool :=
  let blocks := placeFrom faulty Config.inService (List.range Config.tapBlocks)
  { blocks, fifo := indicesFrom (fun b => b.state == .free) 0 blocks, shortfall := [], faulty }

/-- Output lines at high impedance. -/
def OutputLines.released : OutputLines := ⟨none, none⟩

def emptyPipeline : List (List Placed) := List.replicate Config.slots []

/-- The Highway Interface after RESET assertion (R11, R14). -/
def highwayReset : Highway :=
  { sync := .hunt, spacing := 0, miss := 0, framesLost := 0, lastPulse := none, lockClock := none,
    pipeline := emptyPipeline, idleCodes := [0xD5, 0x55], idleCount := 800, lines := .released }

/-- The Profile Table while RESET is held (R173 to R175, R182): k, N and the clamp record stand until the release. -/
def profileReset (k n : Nat) (clamped : Bool) : ProfileTable :=
  { station := .held, k, n, clamped, runReached := false, configFrames := 0, testFrames := 0, listenFrames := 0,
    runAccepted := none, profiles := defaultProfiles, noticeMask := BitVec.allOnes 12 }

/-- The Lane Controller after RESET (09_the_coordination_lane.md, state table; R154). -/
def laneReset : Lane :=
  { queue := [], recalled := [], markRecord := 0, ownRecord := 0, discards := 0, drops := 0, clashes := 0, surplus := 0, cell := none,
    lastCell := .a }

/-- The sharing records after RESET (R157). -/
def sharingReset : Sharing :=
  { offers := List.replicate Config.slots none, absence := List.replicate Config.slots 0, listenMarks := 0,
    listenMarks' := 0, listenAdopt := 0, listenAdopt' := 0, adopting := [] }

end Sys2Proof.Machine
end

