-- ==== Sys2Proof/Machine/State.lean ====
section
/-! DEFINITION. The state of one SKE-64 station with the queue of commands that wait, the state after RESET, and the
reasons a step can stop. -/

namespace Sys2Proof.Machine

/-- The station: one record per functional block, the number of the frame under way, and the waiting commands.
`pending` is the model's own queue; everything else is the manual's. -/
structure State where
  pending : List Instr
  frame   : Nat
  highway : Highway
  profile : ProfileTable
  table   : ContextTable
  pool    : Pool
  lane    : Lane
  share   : Sharing
  deriving DecidableEq, Repr

/-- Faults: none. No rule of the manual stops the station, so no command raises a fault (safe). -/
inductive Fault where
  deriving DecidableEq, Repr

/-- Refusals. `notModelled` is for an arm of `exec` without a meaning (safe); no arm is left without one. -/
inductive Refusal where
  /-- Raised by `exec` only, for a command that has no meaning yet; safe. -/
  | notModelled (mnemonic : String)
  deriving DecidableEq, Repr

/-- The RESET values with the straps' values that stand (R19, R173, R174). -/
def State.resetWith (k n : Nat) (clamped : Bool) : State :=
  { pending := [], frame := 0, highway := highwayReset, profile := profileReset k n clamped, table := tableFor k n,
    pool := placement 0, lane := laneReset, share := sharingReset }

/-- The station right after RESET is asserted. DESIGN CHOICE (unsafe): before the first RESET release the straps have
not been read, and k = 0, N = 2 and no clamp stand in their place (log entry 2). -/
def State.reset : State := State.resetWith 0 2 false

end Sys2Proof.Machine
end

