-- ==== Sys2Proof/Machine/Operands.lean ====
section
/-! DEFINITION. Sample coding, tap windows, gains and the comfort-noise arithmetic: the values a sample's stages work
on. -/

namespace Sys2Proof.Machine

/-! ### The A-law code -/

/-- Expansion of a line code to a linear sample (R8). -/
def expand (code : Byte) : Int :=
  let u := code ^^^ 0x55
  let seg := (u.extractLsb' 4 3).toNat
  let m := (u.extractLsb' 0 4).toNat
  let mag := if seg = 0 then 2 * m + 1 else (2 * m + 33) * 2 ^ (seg - 1)
  if u.getLsbD 7 then (mag : Int) else -(mag : Int)

/-- Compression of a linear value to a line code (R9). -/
def compress (value : Int) : Byte :=
  let v := saturate 4095 value
  let a := v.natAbs
  let seg := if a < 32 then 0 else Nat.log2 a - 4
  let m := if a < 32 then a / 2 else a / 2 ^ seg - 16
  let sign := if 0 ≤ v then 128 else 0
  BitVec.ofNat 8 (sign + 16 * seg + m) ^^^ 0x55

/-! ### The tap window -/

/-- The 64 window values that segment j faces: delays 64j to 64j+63 (R38). Values past the window's end are zero
entries. -/
def windowOf (window : List Int) (segment : Nat) : List Int := (window.drop (64 * segment)).take 64

/-- Σ h(j,k) · x(n − 64j − k) over the entries of one block (R42). -/
def tapSum : List TapEntry → List Int → Int
  | t :: ts, x :: xs => t.h * x + tapSum ts xs
  | _, _ => 0

/-- Adding e · x(n − 64j − k) to every gradient sum of a block (R47); entries that face no sample receive 0. -/
def addGradient (e : Int) : List TapEntry → List Int → List TapEntry
  | t :: ts, x :: xs => { t with gc := t.gc + e * x } :: addGradient e ts xs
  | ts, [] => ts
  | [], _ => []

/-- The largest magnitude of a history (R60). -/
def peakOf (history : List Int) : Nat := history.foldl (fun m x => max m x.natAbs) 0

/-- Entering a value as the newest of at most `len` (R39, R118). -/
def enter (len : Nat) (x : Int) (xs : List Int) : List Int := x :: xs.take (len - 1)

/-- The square of entry `i` (0 the newest), 0 for a zero entry. DEDUCED, log entry 18. -/
def squareAt (xs : List Int) (i : Nat) : Nat := ((xs.getD i 0).natAbs) ^ 2

/-! ### Gain -/

/-- The linear gain g of a gain index (R115). -/
def linearGain (index : Int) : Nat := Config.gainTable.getD (index + 36).toNat 4096

/-- round(v · g / 4096) before saturation (R116). -/
def gained (index : Int) (v : Int) : Int := roundDiv (v * linearGain index) 4096

/-- One gain stage on its input: P_in takes the input, and the output is gained and saturated, marking the peak record
(R116, R118). -/
def gainStage (l : Level) (v : Int) : Level × Int :=
  let out := gained l.gain v
  ({ l with power := l.power + v.natAbs ^ 2 - squareAt l.inputs 255, inputs := enter Config.powerSpan v l.inputs,
            peak := l.peak || decide (4095 < out.natAbs) },
   saturate 4095 out)

/-- (MS_T, MS_lo, MS_hi) of a target in dBm0 (R119). -/
def targetBand (target : Int) : Nat × Nat × Nat := Config.targetTable.getD (-target - 6).toNat (0, 0, 0)

/-- MS_out of a direction with gain index `index` (R119). -/
def msOut (msIn : Nat) (index : Int) : Nat := msIn * linearGain index ^ 2 / 16777216

/-! ### Comfort noise -/

/-- Stage i (1..23) of the generator is bit i − 1. One step: the bit shifted out, and the register after (R72). -/
def generatorStep (g : BitVec 23) : Bool × BitVec 23 :=
  let fb := (g.getLsbD 22).xor (g.getLsbD 17)
  (g.getLsbD 22, (g <<< 1) ||| BitVec.ofNat 23 fb.toNat)

/-- `n` steps, the bits shifted out gathered first bit most significant. -/
def generatorRun : Nat → Nat → BitVec 23 → Nat × BitVec 23
  | 0, acc, g => (acc, g)
  | n + 1, acc, g => let r := generatorStep g; generatorRun n (2 * acc + r.1.toNat) r.2

/-- The seed of a slot's generator (R72). -/
def generatorSeed (slot : Nat) : BitVec 23 := BitVec.ofNat 23 (slot + 1)

/-- The value u of a sample from its 12 bits: two's complement, the first bit weighing −2048 (R74). -/
def noiseValue (bits : Nat) : Int := if bits < 2048 then bits else (bits : Int) - 4096

/-- floor(sqrt v) for v up to `top`². -/
def floorSqrt : Nat → Nat → Nat
  | 0, _ => 0
  | top + 1, v => if (top + 1) * (top + 1) ≤ v then top + 1 else floorSqrt top v

/-- A = floor(sqrt(3 · N_noise)) (R75). -/
def noiseAmplitude (noise : Nat) : Nat := floorSqrt 256 (3 * noise)

/-- The comfort-noise sample round(u · A / 2048) (R75). -/
def comfortNoise (u : Int) (noise : Nat) : Int := roundDiv (u * noiseAmplitude noise) 2048

/-! ### Adaptation -/

/-- The commit of one entry with step exponent s and held denominator d (R51), followed by the refill of the hold and
the clearing of the gradient sum (R50, steps 3 and 4). -/
def commitEntry (commit : Bool) (s d : Nat) (t : TapEntry) : TapEntry :=
  let h := if commit ∧ t.gh ≠ 0 then clampInt (-32768) 32767 (t.h + roundDiv (t.gh * 2 ^ (15 - s)) d) else t.h
  { h, gc := 0, gh := t.gc }

/-- The energy E_j of a block's entries (R79). -/
def energyOf (entries : List TapEntry) : Nat := entries.foldl (fun a t => a + t.h.natAbs ^ 2) 0

/-! ### Sorted sets of numbers -/

/-- Insertion into an ascending list without repeats. -/
def insertNum (x : Nat) : List Nat → List Nat
  | [] => [x]
  | y :: ys => if x < y then x :: y :: ys else if x = y then y :: ys else y :: insertNum x ys

def sortNums (xs : List Nat) : List Nat := xs.foldr insertNum []

end Sys2Proof.Machine
end

