-- ==== Sys2Proof/Machine/Flags.lean ====
section
/-! DEFINITION. The conditions the station tests: idle codes, reference activity, double-talk, NLP, tone and
significance tests. -/

namespace Sys2Proof.Machine

/-- The sample is silent: both codes are entries of the idle code table (R12). -/
def silent (table : List Byte) (rin sin : Byte) : Bool := table.contains rin && table.contains sin

/-- The reference active test on P (R41). -/
def refActive (power : Nat) : Bool := decide (Config.activeFloor ≤ power / 256)

/-- The double-talk hangover after a sample (R61). -/
def nextHangover (hangover peak : Nat) (y : Int) : Nat :=
  if peak < 2 * y.natAbs then Config.dtHangover else hangover - 1

/-- The NLP hangover of a segment map (R64): 64 · (j_max + 1), or 64 with no segment bound. -/
def nlpHangover (bound : List Nat) : Nat := 64 * (bound.foldl max 0 + 1)

/-- The NLP state reached on a sample (R66, R67). -/
def nextNlp (state : NlpState) (switch hold active dt : Bool) (inactive hangover : Nat) : NlpState :=
  match state with
  | .opened => if switch && !hold && active && !dt then .closed else .opened
  | .closed => if dt || decide (hangover ≤ inactive) then .opened else .closed

/-- N_noise after a block end (R70). -/
def nextNoise (noise msSin : Nat) : Nat :=
  if msSin < noise then max 1 msSin else min Config.noiseTop (noise + noise / 256 + 1)

/-- A segment of energy e is significant beside eMax (R79). -/
def significant (e eMax : Nat) : Bool := decide (2 ^ 20 ≤ e) && decide (eMax ≤ 16 * e)

/-- The block is a tone block (R130). -/
def toneBlock (c s : Int) (e : Nat) : Bool :=
  decide (3 * e ≤ 4 * ((c * c + s * s).toNat / 2 ^ 32)) && decide (100000 ≤ e)

/-- The phase dot of the current sums against the previous block's (R131). -/
def phaseDot (c s c' s' : Int) : Int :=
  c * (c' * Config.phaseCos + s' * Config.phaseSin) + (-s) * (c' * Config.phaseSin - s' * Config.phaseCos)

/-- The roles that serve (table of 2.3). -/
def Role.serves : Role → Bool
  | .homeServing | .homeOffering | .taken | .actingHome | .returning => true
  | .handed | .reclaiming | .guestFree | .reserved => false

/-- SEARCH or TRACK: the call states in which the filter and the level control work. -/
def CallState.processes : CallState → Bool
  | .search | .track => true
  | .notServing | .idle | .bypass | .disabled => false

/-- A station judges cells in LISTEN, CONFIG and RUN (R145). -/
def StationState.receives : StationState → Bool
  | .listen | .config | .run => true
  | .held | .test | .unsynced => false

/-- A station serves and sends in CONFIG and RUN (R21, R137). -/
def StationState.serves : StationState → Bool
  | .config | .run => true
  | .held | .test | .listen | .unsynced => false

/-- A bid beats another: a higher margin, or an equal one and a higher station (R160, R161). -/
def beats (margin station margin' station' : Nat) : Bool :=
  decide (margin' < margin) || (margin == margin' && decide (station' < station))

end Sys2Proof.Machine
end

