-- ==== Sys2Proof/Machine/LaneCode.lean ====
section
/-! DEFINITION. The layout of a lane cell: kinds, fields, check, and their reading back (R139 to R144, R183). -/

namespace Sys2Proof

/-- The kind code, which is also the rank (R143). -/
def Msg.kind : Msg → Nat
  | .notice .. => 3
  | .report .. => 4
  | .query .. => 5
  | .run .. => 6
  | .profile .. => 7
  | .slotControl .. => 8
  | .offer .. => 9
  | .reclaim .. => 10
  | .adopt .. => 11
  | .bid .. => 12
  | .grant .. => 13
  | .returnSlot .. => 14

/-- The sender field (R144). -/
def Msg.sender : Msg → Nat
  | .notice _ _ k | .report _ _ _ k | .query _ _ _ k | .run _ _ _ _ _ _ _ _ k | .profile _ _ _ _ _ _ _ _ _ _ k
  | .slotControl _ _ _ k | .offer _ _ _ _ k | .reclaim _ k | .adopt _ _ k | .bid _ _ k | .grant _ _ k
  | .returnSlot _ _ k => k.toNat

/-- A field of width w and its value. -/
abbrev Field := Nat × Nat

/-- The fields in order, each as its width and value (R143). -/
def Msg.fields : Msg → List Field
  | .notice kind arg k => [(4, kind.toNat), (16, arg.toNat), (4, k.toNat)]
  | .report page arg body k => [(3, page.toNat), (9, arg.toNat), (88, body.toNat), (4, k.toNat)]
  | .query target page arg k => [(4, target.toNat), (3, page.toNat), (9, arg.toNat), (4, k.toNat)]
  | .run target mask count codes c1 c2 c3 c4 k =>
    [(4, target.toNat), (12, mask.toNat), (12, count.toNat), (3, codes.toNat), (8, c1.toNat), (8, c2.toNat),
     (8, c3.toNat), (8, c4.toNat), (4, k.toNat)]
  | .profile target index budget reach step switches st rt sg rg k =>
    [(4, target.toNat), (3, index.toNat), (5, budget.toNat), (5, reach.toNat), (3, step.toNat), (5, switches.toNat),
     (5, st.toNat), (5, rt.toNat), (7, sg.toNat), (7, rg.toNat), (4, k.toNat)]
  | .slotControl slot action p k => [(7, slot.toNat), (3, action.toNat), (3, p.toNat), (4, k.toNat)]
  | .offer slot demand p frozen k =>
    [(7, slot.toNat), (5, demand.toNat), (3, p.toNat), (1, frozen.toNat), (4, k.toNat)]
  | .reclaim slot k => [(7, slot.toNat), (4, k.toNat)]
  | .adopt slot margin k => [(7, slot.toNat), (8, margin.toNat), (4, k.toNat)]
  | .bid slot margin k => [(7, slot.toNat), (8, margin.toNat), (4, k.toNat)]
  | .grant slot taker k => [(7, slot.toNat), (4, taker.toNat), (4, k.toNat)]
  | .returnSlot slot cause k => [(7, slot.toNat), (3, cause.toNat), (4, k.toNat)]

end Sys2Proof

namespace Sys2Proof.Machine

/-- The total width of fields. -/
def widthOf (fs : List Field) : Nat := fs.foldl (fun w f => w + f.1) 0

/-- Fields one after another, each most significant bit first, as one number. -/
def packed (fs : List Field) : Nat := fs.foldl (fun v f => v * 2 ^ f.1 + f.2 % 2 ^ f.1) 0

/-- Fields from the first of `total` positions on, zeros after them (R139, R183). -/
def packLeft (total : Nat) (fs : List Field) : Nat := packed fs * 2 ^ (total - widthOf fs)

/-- One step of the check register (R140). -/
def crcStep (r : BitVec 16) (bit : Bool) : BitVec 16 :=
  if bit.xor r.msb then (r <<< 1) ^^^ 0x1021 else r <<< 1

/-- The check over cell bits 0 to 111 (R140). -/
def crc (bits : BitVec 112) : BitVec 16 :=
  (List.range 112).foldl (fun r i => crcStep r (bits.getMsbD i)) 0xFFFF

/-- Cell bits 0 to 111 of a message: kind, fields, zeros (R139). -/
def cellBody (m : Msg) : BitVec 112 := BitVec.ofNat 112 (packLeft 112 ((4, m.kind) :: m.fields))

/-- The 128 bits of a message's cell (R139). -/
def cellOf (m : Msg) : BitVec 128 := cellBody m ++ crc (cellBody m)

/-- The field of width w that starts at cell bit p (R139). -/
def fieldAt (line : BitVec 128) (p w : Nat) : BitVec w := (line.extractLsb' (128 - p - w) w)

/-- The check test (R140, R145). -/
def checkPasses (line : BitVec 128) : Bool := crc (line.extractLsb' 16 112) == line.extractLsb' 0 16

/-- The message a cell of a kind in use holds (R143); none for the codes 0, 1, 2 and 15. -/
def parseCell (line : BitVec 128) : Option Msg :=
  let f := fieldAt line
  match (f 0 4).toNat with
  | 3 => some (.notice (f 4 4) (f 8 16) (f 24 4))
  | 4 => some (.report (f 4 3) (f 7 9) (f 16 88) (f 104 4))
  | 5 => some (.query (f 4 4) (f 8 3) (f 11 9) (f 20 4))
  | 6 => some (.run (f 4 4) (f 8 12) (f 20 12) (f 32 3) (f 35 8) (f 43 8) (f 51 8) (f 59 8) (f 67 4))
  | 7 => some (.profile (f 4 4) (f 8 3) (f 11 5) (f 16 5) (f 21 3) (f 24 5) (f 29 5) (f 34 5) (f 39 7) (f 46 7) (f 53 4))
  | 8 => some (.slotControl (f 4 7) (f 11 3) (f 14 3) (f 17 4))
  | 9 => some (.offer (f 4 7) (f 11 5) (f 16 3) (f 19 1) (f 20 4))
  | 10 => some (.reclaim (f 4 7) (f 11 4))
  | 11 => some (.adopt (f 4 7) (f 11 8) (f 19 4))
  | 12 => some (.bid (f 4 7) (f 11 8) (f 19 4))
  | 13 => some (.grant (f 4 7) (f 11 4) (f 15 4))
  | 14 => some (.returnSlot (f 4 7) (f 11 3) (f 14 4))
  | _ => none

/-- A surplus position of the cell holds a 1: its bits 0 to 111 differ from those of the message it holds (R148). -/
def hasSurplus (line : BitVec 128) (m : Msg) : Bool := line.extractLsb' 16 112 != cellBody m

/-- The sender field fits the kind (R146). -/
def senderFits (m : Msg) : Bool :=
  match m with
  | .slotControl .. | .profile .. | .run .. | .query .. => m.sender == 15
  | .returnSlot .. | .grant .. | .bid .. | .adopt .. | .reclaim .. | .offer .. | .report .. | .notice .. =>
    decide (m.sender < 8)

/-- The first cell bit at which the level read differs from the bit sent, from bit `i` on (R141). -/
def firstDifference (sent line : BitVec 128) : Nat → Nat → Option Nat
  | 0, _ => none
  | n + 1, i => if sent.getMsbD i != line.getMsbD i then some i else firstDifference sent line n (i + 1)

/-- The bits a station asserts that sends `sent` and loses at bit `p`: those up to and including bit p (R141). -/
def assertedUpTo (sent : BitVec 128) (p : Nat) : BitVec 128 :=
  sent &&& (BitVec.allOnes 128 <<< (127 - p))

/-- The report number format of a value (R155, R156). -/
def reportNumber (v : Nat) : Nat :=
  let e := Nat.log2 v - 11
  if e < 16 then e * 4096 + v / 2 ^ e else 65535

end Sys2Proof.Machine
end

