-- ==== Sys2Proof/Machine/Ops.lean ====
section
/-! DEFINITION. The shared operations on the station's records: context and block access, the send queue and notices,
the shortfall queue, and offers cancelled with it. -/

namespace Sys2Proof.Machine

/-! ### Station states in which an act is taken -/

/-- While RESET is held the station takes nothing but RESET itself (R174). DEDUCED, log entry 4. -/
def unlessHeld (act : State → State) (s : State) : State := if s.profile.station = .held then s else act s

/-- An act of a station in RUN. -/
def inRun (act : State → State) (s : State) : State := if s.profile.station = .run then act s else s

/-- An act of a station in CONFIG or RUN. -/
def inService (act : State → State) (s : State) : State := if s.profile.station.serves then act s else s

/-! ### Contexts and the slot directory -/

/-- Context i. -/
def State.ctx (s : State) (i : Nat) : Context := s.table.contexts.getD i freeGuest

def State.setCtx (s : State) (i : Nat) (c : Context) : State :=
  { s with table := { s.table with contexts := s.table.contexts.set i c } }

/-- Changing context i. -/
def State.modCtx (s : State) (i : Nat) (f : Context → Context) : State := s.setCtx i (f (s.ctx i))

/-- Changing the serving parts of context i, where it has them. -/
def State.modServing (s : State) (i : Nat) (f : Serving → Serving) : State :=
  s.modCtx i fun c => { c with serving := c.serving.map f }

/-- Changing the search record of context i, where it has one. -/
def State.modSearch (s : State) (i : Nat) (f : SearchRecord → SearchRecord) : State :=
  s.modCtx i fun c => { c with search := c.search.map f }

/-- The context the slot directory names for a slot (R18). -/
def State.lookup (s : State) (slot : Nat) : Option Nat := s.table.directory.getD slot none

def State.setDirectory (s : State) (slot : Nat) (e : Option Nat) : State :=
  { s with table := { s.table with directory := s.table.directory.set slot e } }

/-- The slot of context i. -/
def State.slotOf (s : State) (i : Nat) : Nat := (s.ctx i).slot.getD 0

/-- Context i serves in the frame under way (R21). -/
def State.serves (s : State) (i : Nat) : Bool :=
  (s.ctx i).role.serves && s.profile.station.serves && (s.ctx i).serving.isSome

/-- The serving context of a slot, if any. -/
def State.servedBy (s : State) (slot : Nat) : Option Nat :=
  (s.lookup slot).filter fun i => s.serves i

/-- The marks this station asserts in the frame under way (R6, R138). DEDUCED, log entry 15. -/
def State.marks (s : State) : BitVec 128 :=
  (List.range Config.slots).foldl
    (fun m slot => if (s.servedBy slot).isSome then m ||| BitVec.ofNat 128 (2 ^ slot) else m) 0

/-- The profile in use of context i (R27); its values are read from the profile table. DEDUCED, log entry 22. -/
def State.profileOf (s : State) (i : Nat) : Profile :=
  s.profile.profiles.getD ((s.ctx i).serving.elim 0 (·.profile)) (defaultProfile 0)

/-- The lowest-numbered GUEST-FREE context (R18). -/
def State.freeGuest? (s : State) : Option Nat :=
  (indicesFrom (fun c => c.role == .guestFree && c.kind == .guest) 0 s.table.contexts).head?

/-- A guest context returns to GUEST-FREE: its fields are cleared and its directory entry removed (R18, R37). -/
def State.freeGuestAt (s : State) (i : Nat) : State :=
  (match (s.ctx i).slot with
    | some slot => s.setDirectory slot none
    | none => s).setCtx i freeGuest

/-- `slot` is homed to this station (R17). -/
def State.isHome (s : State) (slot : Nat) : Bool := decide (s.profile.k < s.profile.n ∧ slot % s.profile.n = s.profile.k)

/-- The empty output pipeline of a slot (R4, R5). -/
def State.clearPipeline (s : State) (slot : Nat) : State :=
  { s with highway := { s.highway with pipeline := s.highway.pipeline.set slot [] } }

/-! ### Tap blocks -/

def State.tapBlock (s : State) (b : Nat) : TapBlock := s.pool.blocks.getD b (idleBlock .failed)

def State.setBlock (s : State) (b : Nat) (t : TapBlock) : State :=
  { s with pool := { s.pool with blocks := s.pool.blocks.set b t } }

def State.modBlock (s : State) (b : Nat) (f : TapBlock → TapBlock) : State := s.setBlock b (f (s.tapBlock b))

/-- The FREE count: the length of the free FIFO (R100). -/
def State.free (s : State) : Nat := s.pool.fifo.length

/-- Taking the first `n` blocks from the FIFO head (R100). -/
def State.takeBlocks (s : State) (n : Nat) : List Nat × State :=
  (s.pool.fifo.take n, { s with pool := { s.pool with fifo := s.pool.fifo.drop n } })

/-- The number of blocks in a state (R97, R114). -/
def State.countBlocks (s : State) (st : BlockState) : Nat :=
  (s.pool.blocks.filter fun b => b.state == st).length

/-- The blocks reserved for a bid of context i, ascending (R105). -/
def State.reservedFor (s : State) (i : Nat) : List Nat :=
  indicesFrom (fun b => b.state == .reserved && b.owner.elim false (·.context == i)) 0 s.pool.blocks

/-- Block b becomes RESERVED for context i, with no segment (R96). -/
def State.reserveBlock (s : State) (i : Nat) (b : Nat) : State :=
  s.modBlock b fun t => { t with state := .reserved, owner := some ⟨i, s.slotOf i⟩, segment := none }

/-- Block b is bound to segment j of context i, its 64 entries at zero (R48, R78). -/
def State.bindBlock (s : State) (i j b : Nat) : State :=
  s.modBlock b fun t =>
    { t with state := .assigned, owner := some ⟨i, s.slotOf i⟩, segment := some j, lastSegment := some j,
             entries := zeroTaps, wrong := [] }

/-! ### The search record -/

/-- The block of a map entry. -/
def Segment.block? (e : Segment) : Option Nat :=
  match e.fill with
  | .block b => some b
  | .unfilled | .lost => none

/-- The bound segments with their blocks. -/
def SearchRecord.bound (r : SearchRecord) : List (Nat × Nat) :=
  r.map.filterMap fun e => e.block?.map fun b => (e.number, b)

/-- The held count (R78). -/
def SearchRecord.held (r : SearchRecord) : Nat := r.bound.length + r.spare.length

/-- The held blocks, ascending. -/
def SearchRecord.heldBlocks (r : SearchRecord) : List Nat := sortNums (r.bound.map (·.2) ++ r.spare)

/-- The unexplored segments of 0..R−1, ascending (R77). -/
def SearchRecord.unexplored (r : SearchRecord) (reach : Nat) : List Nat :=
  (List.range reach).filter fun j => !r.explored.contains j

/-- The search record on entry to SEARCH, with its want (R77). -/
def newSearch (want : Nat) : SearchRecord :=
  { map := [], spare := [], explored := [], retained := [], pass := 0, status := .waiting, dwell := 0, want }

/-- Inserting an entry in a map kept ascending by segment. -/
def insertSegment (e : Segment) : List Segment → List Segment
  | [] => [e]
  | x :: xs => if e.number < x.number then e :: x :: xs else x :: insertSegment e xs

/-- Changing what stands on segment j. -/
def setFill (j : Nat) (f : Fill) (map : List Segment) : List Segment :=
  map.map fun e => if e.number = j then { e with fill := f } else e

/-- The first unfilled plan segment, in plan order (R91). -/
def firstUnfilled (map : List Segment) : Option Nat :=
  (map.find? fun e => e.fill == .unfilled).map (·.number)

/-- The bound segments and blocks of context i. -/
def State.boundOf (s : State) (i : Nat) : List (Nat × Nat) := (s.ctx i).search.elim [] (·.bound)

/-- Want minus held count of context i (R101). -/
def State.shortOf (s : State) (i : Nat) : Nat := (s.ctx i).search.elim 0 fun r => r.want - r.held

/-! ### The send queue -/

/-- Joining after every entry of its rank or above (R150). -/
def insertEntry (e : Entry) : List Entry → List Entry
  | [] => [e]
  | x :: xs => if e.msg.kind ≤ x.msg.kind then x :: insertEntry e xs else e :: x :: xs

/-- Removing the newest entry of a rank: the last of that rank in queue order (R151). -/
def removeNewest (rank : Nat) (q : List Entry) : List Entry :=
  (q.reverse.eraseP fun e => e.msg.kind == rank).reverse

def hasRank (rank : Nat) (q : List Entry) : Bool := q.any fun e => e.msg.kind == rank

/-- The queue after a message is to join it, whether the message joined, and how many messages were dropped (R151). The
entry whose cell is under way is displaced like any other; its cell goes on. DESIGN CHOICE, log entry 34. -/
def joinQueueWith (e : Entry) (q : List Entry) : List Entry × Bool × Nat :=
  if q.length < Config.queueTop then (insertEntry e q, true, 0)
  else if 9 ≤ e.msg.kind then
    if hasRank 3 q then (insertEntry e (removeNewest 3 q), true, 1)
    else if hasRank 4 q then (insertEntry e (removeNewest 4 q), true, 1)
    else (q, false, 1)
  else (q, false, 1)

/-- A message joins the send queue, or is dropped; the answer says whether it joined (R150, R151). -/
def State.enqueue (s : State) (e : Entry) : State × Bool :=
  let r := joinQueueWith e s.lane.queue
  ({ s with lane := { s.lane with queue := r.1, drops := min 65535 (s.lane.drops + r.2.2) } }, r.2.1)

/-- Queueing a message eligible from the next cell, for a block that does not act on a drop. -/
def State.send (s : State) (m : Msg) : State := (s.enqueue ⟨m, s.frame, none⟩).1

/-- Withdrawing the queued entries that satisfy `p`, at a cell end or a frame boundary (R152). -/
def State.withdraw (s : State) (p : Entry → Bool) : State :=
  { s with lane := { s.lane with queue := s.lane.queue.filter fun e => !p e } }

/-- Withdrawing entries from within a frame: at once between cells, and at the end of the cell under way otherwise, so
that no entry leaves the queue in the middle of a cell (R152, R161, R164). DEDUCED, log entry 31. -/
def State.recall (s : State) (p : Entry → Bool) : State :=
  if s.lane.cell.isNone then s.withdraw p
  else { s with lane := { s.lane with recalled := (s.lane.recalled.filter fun e => !p e) ++ s.lane.queue.filter p } }

/-- The entries recalled during a cell leave the queue, of equal entries the oldest (R152). -/
def State.settleRecalled (s : State) : State :=
  { s with lane := { s.lane with queue := s.lane.queue.diff s.lane.recalled, recalled := [] } }

/-- This station's number as a sender field. -/
def State.me (s : State) : BitVec 4 := BitVec.ofNat 4 s.profile.k

/-- Position p of the notice mask, p = 1 the first sent (R182). DEDUCED, log entry 17. -/
def maskBit (mask : BitVec 12) (p : Nat) : Bool := mask.getMsbD (p - 1)

/-- A notice of kind `kind` with its argument fields, subject to the notice mask (R181, R183). -/
def State.notify (s : State) (kind : Nat) (fs : List Field) : State :=
  if maskBit s.profile.noticeMask kind then
    s.send (.notice (BitVec.ofNat 4 kind) (BitVec.ofNat 16 (packLeft 16 fs)) s.me)
  else s

/-- Queued entries by message and slot. -/
def Entry.isOffer (slot : Nat) (e : Entry) : Bool :=
  match e.msg with | .offer t _ _ _ _ => t.toNat == slot | _ => false
def Entry.isGrant (slot : Nat) (e : Entry) : Bool :=
  match e.msg with | .grant t _ _ => t.toNat == slot | _ => false
def Entry.isBid (slot : Nat) (e : Entry) : Bool :=
  match e.msg with | .bid t _ _ => t.toNat == slot | _ => false
def Entry.isAdopt (slot : Nat) (e : Entry) : Bool :=
  match e.msg with | .adopt t _ _ => t.toNat == slot | _ => false
def Entry.isReclaim (slot : Nat) (e : Entry) : Bool :=
  match e.msg with | .reclaim t _ => t.toNat == slot | _ => false

/-- A RETURN that a server queues to give its slot back: cause call end or reclaimed (R22, R164, R170). One that answers a
GRANT or an ADOPT judgement, cause late grant or cannot serve, does not count. DESIGN CHOICE, log entry 38. -/
def Entry.isReturn (slot : Nat) (e : Entry) : Bool :=
  match e.msg with | .returnSlot t cause _ => t.toNat == slot && (cause == 0 || cause == 3) | _ => false

def State.queued (s : State) (p : Entry → Bool) : Bool := s.lane.queue.any p

/-! ### The shortfall queue -/

/-- An open offer is cancelled unless its GRANT has been carried (R161). -/
def State.cancelOffer (s : State) (i : Nat) : State :=
  let c := s.ctx i
  if c.role = .homeOffering ∧ c.stopAt = none then
    (s.recall fun e => e.isOffer (s.slotOf i) || e.isGrant (s.slotOf i)).modCtx i fun c =>
      { c with role := .homeServing, offer := none }
  else s

/-- Context i leaves the shortfall queue, which cancels its open offer (R102, R161). -/
def State.leaveShortfall (s : State) (i : Nat) : State :=
  if s.pool.shortfall.contains i then
    ({ s with pool := { s.pool with shortfall := s.pool.shortfall.erase i } }).cancelOffer i
  else s

/-- Context i, short of its want, joins the shortfall queue tail and a POOL SHORT notice is queued (R101, R102, R112). -/
def State.joinShortfall (s : State) (i : Nat) : State :=
  if s.pool.shortfall.contains i ∨ s.shortOf i = 0 then s
  else
    { s with pool := { s.pool with shortfall := s.pool.shortfall ++ [i] } }.notify 3
      [(7, s.slotOf i), (5, s.shortOf i)]

end Sys2Proof.Machine
end

