-- ==== Sys2Proof/Machine/Pool.lean ====
section
/-! DEFINITION. The Tap Pool at work and the Search Controller's steps it sets off: the release path, delivery to the
shortfall queue, spare promotion, pass starts and search ends, retirement and uncorrectable errors (R82 to R94,
R100 to R113). Acts that set one another off are tasks of one list, taken first to last, a task's own consequences
before the tasks behind it. -/

namespace Sys2Proof.Machine

/-- One act of the pool or of a search. -/
inductive Task where
  /-- A block given up passes the release path (R103). -/
  | release (b : Nat)
  /-- Spare promotion after a failure in service (R111). -/
  | promote
  /-- A pass start of context i (R82). -/
  | passStart (i : Nat)
  /-- Context i leaves the shortfall queue when its held count has reached its want (R103). -/
  | checkMet (i : Nat)
  /-- A search end of context i on its retained set (R85 to R87). -/
  | searchEnd (i : Nat)
  /-- The last steps of a search end: filling the plan by a request and SEARCH DONE (R87, R88). -/
  | finishSearch (i : Nat)
  deriving DecidableEq, Repr

/-! ### Delivery -/

/-- Block b becomes FREE at the FIFO tail (R103). -/
def State.freeBlock (s : State) (b : Nat) : State :=
  let s := s.modBlock b fun t => { t with state := .free, owner := none, segment := none, lastSegment := none }
  { s with pool := { s.pool with fifo := s.pool.fifo ++ [b] } }

/-- A context whose held count has reached its want leaves the queue (R103). -/
def State.leaveIfMet (s : State) (i : Nat) : State := if s.shortOf i = 0 then s.leaveShortfall i else s

/-- A block without a mark placed with the context at the queue head, or freed (R91, R103, R111). -/
def placeBlock (b : Nat) (s : State) : State × List Task :=
  match s.pool.shortfall with
  | [] => (s.freeBlock b, [])
  | h :: _ =>
    match (s.ctx h).callState, (s.ctx h).search with
    | .search, some r =>
      let s := (s.reserveBlock h b).modSearch h fun r => { r with spare := insertNum b r.spare }
      (s, match r.status with
        | .waiting => [.passStart h, .checkMet h]
        | .inPass => [.checkMet h])
    | .track, some r =>
      match firstUnfilled r.map with
      | some j =>
        (((s.bindBlock h j b).modSearch h fun r => { r with map := setFill j (.block b) r.map }).leaveIfMet h, [])
      | none => (s.freeBlock b, [])
    | _, _ => (s.freeBlock b, [])

/-- A block becomes FAILED in service, keeping its last owner and segment (R108 to R110). -/
def State.failBlock (s : State) (b : Nat) (corrected : Nat) : State :=
  s.modBlock b fun t =>
    { t with state := .failed, segment := t.lastSegment, retirePending := false, corrected := corrected }

/-- The BLOCK RETIRED notice: cause 1 migrated, 2 retired at release, 3 uncorrectable (R112). -/
def State.noticeRetired (s : State) (b cause : Nat) : State := s.notify 5 [(9, b), (2, cause)]

/-- Spare promotion: the lowest SPARE block is placed (R111, R112). -/
def promoteTask (s : State) : State × List Task :=
  match indicesFrom (fun b => b.state == .spare) 0 s.pool.blocks with
  | [] => (s, [])
  | b :: rest => placeBlock b (if rest = [] then s.notify 6 [(9, s.countBlocks .failed)] else s)

/-- The release path: a marked block fails and a spare is promoted in its stead, another is placed (R103, R109). -/
def releaseTask (b : Nat) (s : State) : State × List Task :=
  if (s.tapBlock b).retirePending then
    promoteTask ((s.failBlock b (s.tapBlock b).corrected).noticeRetired b 2)
  else placeBlock b s

/-! ### Searches -/

/-- The reach of context i's profile in use (R77). -/
def State.reachOf (s : State) (i : Nat) : Nat := (s.profileOf i).reach

/-- A pass start (R82). -/
def passStartTask (i : Nat) (s : State) : State × List Task :=
  match (s.ctx i).callState, (s.ctx i).search with
  | .search, some r =>
    let unseen := r.unexplored (s.reachOf i)
    if unseen = [] then (s, [.searchEnd i])
    else
      let pairs := unseen.zip r.spare
      let rest := r.spare.drop unseen.length
      let s := pairs.foldl (fun s jb => s.bindBlock i jb.1 jb.2) s
      let map := pairs.foldl (fun m jb => insertSegment ⟨jb.1, .block jb.2⟩ m) r.map
      let explored := pairs.foldl (fun e jb => insertNum jb.1 e) r.explored
      let r := { r with map, explored, spare := [], pass := countUp 255 r.pass, dwell := 0, status := .inPass }
      if rest = [] then (s.modSearch i fun _ => r, [])
      else
        let s := s.modSearch i fun _ => { r with want := r.bound.length }
        (s.leaveShortfall i, rest.map .release)
  | _, _ => (s, [])

/-- The plan of a retained set in strength order (R86). -/
def buildPlan (budget reach : Nat) (retained : List Nat) : List Nat :=
  retained.foldl
    (fun plan j =>
      let add := fun (plan : List Nat) (n : Nat) =>
        if plan.contains n || retained.contains n || decide (budget ≤ plan.length) then plan else plan ++ [n]
      let plan := if 0 < j then add plan (j - 1) else plan
      if j + 1 < reach then add plan (j + 1) else plan)
    retained

/-- Binding blocks to the unfilled entries of a plan in order: the plan, and the blocks left (R87). -/
def fillPlan : List Segment → List Nat → List Segment × List Nat
  | [], bs => ([], bs)
  | e :: es, [] => (e :: es, [])
  | e :: es, b :: bs =>
    if e.fill = .unfilled then
      let r := fillPlan es bs
      ({ e with fill := .block b } :: r.1, r.2)
    else
      let r := fillPlan es (b :: bs)
      (e :: r.1, r.2)

/-- Filling the unfilled entries of context i's plan with blocks, each at zero: the blocks left (R87). -/
def State.fillMap (s : State) (i : Nat) (map : List Segment) (bs : List Nat) : State × List Nat :=
  let f := fillPlan map bs
  let fresh := (f.1.zip map).filterMap fun e => if e.2.fill = .unfilled then e.1.block?.map fun b => (e.1.number, b)
    else none
  let s := fresh.foldl (fun s jb => s.bindBlock i jb.1 jb.2) s
  (s.modSearch i fun r => { r with map := f.1 }, f.2)

/-- The call state becomes TRACK. -/
def State.toTrack (s : State) (i : Nat) : State := s.modCtx i fun c => { c with callState := .track }

/-- A search end: level-only when nothing is retained (R85), else the plan and its blocks (R86, R87). The blocks given up
go to other contexts or to the FIFO. DEDUCED, log entry 11. -/
def searchEndTask (i : Nat) (s : State) : State × List Task :=
  match (s.ctx i).search with
  | none => (s, [])
  | some r =>
    if r.retained = [] then
      let s := (s.modSearch i fun r => { r with want := 0 }).leaveShortfall i
      ((s.modSearch i fun r => { r with map := [], spare := [] }).toTrack i,
       r.heldBlocks.map .release ++ [.finishSearch i])
    else
      let plan := buildPlan (s.profileOf i).budget (s.reachOf i) r.retained
      let map := plan.map fun j =>
        Segment.mk j ((r.bound.find? fun e => e.1 == j).elim Fill.unfilled fun e => Fill.block e.2)
      let sources := sortNums (((r.bound.filter fun e => !plan.contains e.1).map (·.2)) ++ r.spare)
      let filled := (s.modSearch i fun r => { r with spare := [], want := plan.length }).fillMap i map sources
      let s := filled.1
      let s := if plan.length ≤ r.held then s.leaveShortfall i else s
      (s.toTrack i, filled.2.map .release ++ [.finishSearch i])

/-- The request for the blocks a plan misses, when the context is outside the queue: filled in plan order (R87, R101).
The blocks are taken in the order they leave the FIFO. DESIGN CHOICE, log entry 26. -/
def requestForPlan (i : Nat) (s : State) : State :=
  let size := s.shortOf i
  if size = 0 ∨ s.pool.shortfall.contains i then s
  else if s.pool.shortfall ≠ [] then s.joinShortfall i
  else
    let t := s.takeBlocks (min size s.free)
    let s := (t.2.fillMap i ((s.ctx i).search.elim [] (·.map)) t.1).1
    if s.shortOf i = 0 then s else s.joinShortfall i

/-- The end of a search end: the plan filled as far as it goes, and SEARCH DONE (R85, R87, R88). -/
def finishSearchTask (i : Nat) (s : State) : State × List Task :=
  let s := (requestForPlan i s).modSearch i fun r => { r with dwell := 0 }
  let s := s.modServing i fun sv => { sv with pathRun := 0 }
  let map := (s.ctx i).search.elim [] (·.map)
  (s.notify 2 [(7, s.slotOf i), (5, map.length), (4, map.head?.elim 0 (·.number))], [])

/-- One task: the state after it and the tasks it sets off. -/
def doTask : Task → State → State × List Task
  | .release b, s => releaseTask b s
  | .promote, s => promoteTask s
  | .passStart i, s => passStartTask i s
  | .checkMet i, s => (s.leaveIfMet i, [])
  | .searchEnd i, s => searchEndTask i s
  | .finishSearch i, s => finishSearchTask i s

/-- Taking tasks in order, at most `fuel` of them; log entry 8 gives the bound a real station stays under.
DEDUCED, log entry 8. -/
def runTasks : Nat → List Task → State → State
  | 0, _, s => s
  | _ + 1, [], s => s
  | fuel + 1, t :: ts, s => let r := doTask t s; runTasks fuel (r.2 ++ ts) r.1

/-- Tasks taken whole: more than every block, promotion and search of a station can set off in one act. -/
def perform (ts : List Task) (s : State) : State := runTasks 4096 ts s

/-! ### Requests -/

/-- An allocation request whose blocks enter the spare hand: the number obtained (R81, R101). -/
def requestToSpare (i : Nat) (s : State) : State × Nat :=
  let size := s.shortOf i
  if size = 0 then (s, 0)
  else if s.pool.shortfall ≠ [] then (s.joinShortfall i, 0)
  else
    let t := s.takeBlocks (min size s.free)
    let s := t.1.foldl (fun s b => s.reserveBlock i b) t.2
    let s := s.modSearch i fun r => { r with spare := sortNums (r.spare ++ t.1) }
    (if t.1.length < size then s.joinShortfall i else s, t.1.length)

/-! ### Failures in service -/

/-- A block retires: migration to the FIFO head, or the retire-pending mark (R108). -/
def retire (b : Nat) (s : State) : State :=
  let t := s.tapBlock b
  match s.pool.fifo, t.owner, t.segment with
  | h :: rest, some o, some j =>
    let s := { s with pool := { s.pool with fifo := rest } }
    let s := s.modBlock h fun u =>
      { u with state := .assigned, owner := t.owner, segment := t.segment, lastSegment := t.segment,
               entries := t.entries, wrong := [] }
    let s := s.modSearch o.context fun r => { r with map := setFill j (.block h) r.map }
    perform [.promote] ((s.failBlock b t.corrected).noticeRetired b 1)
  | _, _, _ => s.modBlock b fun t => { t with retirePending := true }

/-- A block is due to retire: ASSIGNED, at the retirement count, and not marked (R108). -/
def retireDue (t : TapBlock) : Bool :=
  t.state == .assigned && decide (Config.retireAt ≤ t.corrected) && !t.retirePending

/-- A block that is due retires (R108); there is no block 264 or above. -/
def retireIfDue (b : Nat) (s : State) : State :=
  if b < Config.tapBlocks ∧ retireDue (s.tapBlock b) then retire b s else s

/-! ### The check code -/

/-- What a checked read of a tap entry finds: no error shown, an error corrected, each with the values read, or an
uncorrectable error (R106). -/
inductive Finding where
  | exact (t : TapEntry)
  | corrected (t : TapEntry)
  | uncorrectable
  deriving DecidableEq, Repr

/-- A read of an entry of which `bits` stored bits are wrong: one is corrected, two are uncorrectable; more give what
the free value says (R106). DESIGN CHOICE, log entry 32. -/
def checkedRead (t : TapEntry) (bits : Nat) : Finding :=
  match bits with
  | 0 => .exact t
  | 1 => .corrected t
  | 2 => .uncorrectable
  | n =>
    match Config.readOfMany n t.h t.gc t.gh with
    | none => .uncorrectable
    | some (shown, h, gc, gh) =>
      let u := ⟨clampInt (-32768) 32767 h, gc, gh⟩
      if shown then .corrected u else .exact u

/-- The values a read gives where it is not uncorrectable. -/
def Finding.entry? : Finding → Option TapEntry
  | .exact t | .corrected t => some t
  | .uncorrectable => none

/-- The read shows a corrected error. -/
def Finding.isCorrected : Finding → Bool
  | .corrected _ => true
  | .exact _ | .uncorrectable => false

/-- The reads of a block's entries that hold wrong bits, as entry number and finding (R106). -/
def TapBlock.findings (t : TapBlock) : List (Nat × Finding) :=
  t.wrong.map fun w => (w.1, checkedRead (t.entries.getD w.1 ⟨0, 0, 0⟩) w.2)

/-- Some entry of the block reads as uncorrectable (R110). -/
def TapBlock.fails (t : TapBlock) : Bool := t.findings.any fun f => f.2 == .uncorrectable

/-- The entries read with errors are rewritten with the values read and fresh check codes (R107). -/
def TapBlock.rewritten (t : TapBlock) : TapBlock :=
  { t with entries := t.findings.foldl (fun es f => es.set f.1 (f.2.entry?.getD ⟨0, 0, 0⟩)) t.entries, wrong := [] }

/-- The number of entries a read of the block corrects (R107). -/
def TapBlock.corrections (t : TapBlock) : Nat := (t.findings.filter (·.2.isCorrected)).length

/-- Adding wrong bits to an entry, in a list ascending by entry without zero counts. -/
def addWrong (entry bits : Nat) : List (Nat × Nat) → List (Nat × Nat)
  | [] => if bits = 0 then [] else [(entry, bits)]
  | w :: ws =>
    if entry < w.1 then if bits = 0 then w :: ws else (entry, bits) :: w :: ws
    else if entry = w.1 then (entry, w.2 + bits) :: ws
    else w :: addWrong entry bits ws

/-- Bits of tap memory go wrong (R106); there is no block 264 or above. -/
def strike (upsets : List TapUpset) (s : State) : State :=
  upsets.foldl (fun s u => s.modBlock u.block.toNat fun t => { t with wrong := addWrong u.entry.toNat u.bits t.wrong }) s

/-- A block fails the memory test when any read of any of its entries is not exact: some bit reads wrong, which shows as
a corrected or uncorrectable error or as a value different from the one written (R98). DEDUCED, log entry 5. -/
def memoryTest (tested : List TapUpset) : BitVec 264 :=
  tested.foldl (fun m u => if u.bits = 0 then m else m ||| BitVec.ofNat 264 (2 ^ u.block.toNat)) 0

/-- A read that corrected `n` entries of block b: the count rises, and the block retires when it first reaches 16
(R107, R108). -/
def correctedReads (b n : Nat) (s : State) : State :=
  retireIfDue b (s.modBlock b fun t => { t with corrected := min 255 (t.corrected + n) })

/-- The loss of segment j without a substitute in SEARCH (R92). -/
def loseSegment (i j : Nat) (s : State) : State :=
  let s := s.modSearch i fun r =>
    { r with map := r.map.filter (·.number != j), explored := r.explored.filter (· != j),
             retained := r.retained.filter (· != j) }
  match (s.ctx i).search with
  | none => s
  | some r =>
    if r.bound ≠ [] then s
    else if r.spare ≠ [] then perform [.passStart i] s
    else
      let s := s.modSearch i fun r => { r with status := .waiting, dwell := 0 }
      if s.pool.shortfall.contains i then s
      else
        let q := requestToSpare i s
        if 0 < q.2 then perform [.passStart i] q.1 else q.1

/-- In TRACK with no bound segment the path-change run count is 0 (R56, R93). -/
def restIfUnbound (i : Nat) (s : State) : State :=
  if s.boundOf i = [] then s.modServing i fun sv => { sv with pathRun := 0 } else s

/-- An uncorrectable error in block b, bound to segment j of context i (R110, R92, R93). DEDUCED, log entry 12. -/
def uncorrectable (i j b : Nat) (s : State) : State :=
  let s := (s.failBlock b 0).noticeRetired b 3
  let s := s.modSearch i fun r => { r with map := setFill j .lost r.map }
  let s := perform [.promote] s
  match s.pool.fifo with
  | h :: rest =>
    let s := ({ s with pool := { s.pool with fifo := rest } }).bindBlock i j h
    s.modSearch i fun r => { r with map := setFill j (.block h) r.map }
  | [] =>
    match (s.ctx i).callState with
    | .search => loseSegment i j s
    | .track => (restIfUnbound i (s.modSearch i fun r => { r with map := setFill j .unfilled r.map })).joinShortfall i
    | .notServing | .idle | .bypass | .disabled => s

/-- The reads of block b on a sample: uncorrectable errors govern, else the entries read with errors are rewritten and
the corrected ones counted (R107, R110). -/
def readBlock (i : Nat) (s : State) (jb : Nat × Nat) : State :=
  let t := s.tapBlock jb.2
  if t.fails then uncorrectable i jb.1 jb.2 s
  else if t.wrong = [] then s
  else correctedReads jb.2 t.corrections (s.modBlock jb.2 TapBlock.rewritten)

/-- The reads of a sample over the blocks bound at its start and bound still, in ascending block number (R44, R107, R110).
DEDUCED, log entry 6. -/
def readBlocks (i : Nat) (bound : List (Nat × Nat)) (s : State) : State :=
  (sortNums (bound.map (·.2))).foldl
    (fun s b => match (s.boundOf i).find? fun jb => jb.2 == b with
      | some jb => readBlock i s jb
      | none => s) s

/-- The segments that an uncorrectable read takes out of the sample (R44). -/
def failedSegments (s : State) (bound : List (Nat × Nat)) : List Nat :=
  (bound.filter fun jb => (s.tapBlock jb.2).fails).map (·.1)

/-! ### Sync loss -/

/-- Sync loss step 2: the marked blocks fail in ascending order, each followed by promotion to the FIFO tail, with no
notice (R113). -/
def failMarked (s : State) : State :=
  (indicesFrom (fun b : TapBlock => b.retirePending) 0 s.pool.blocks).foldl
    (fun s b =>
      let s := s.failBlock b (s.tapBlock b).corrected
      match indicesFrom (fun b => b.state == .spare) 0 s.pool.blocks with
      | [] => s
      | p :: _ => s.freeBlock p) s

/-- The Tap Pool at sync loss (R113). -/
def poolSyncLoss (s : State) : State :=
  let s := failMarked { s with pool := { s.pool with shortfall := [] } }
  (indicesFrom (fun b => b.state == .assigned || b.state == .reserved) 0 s.pool.blocks).foldl
    (fun s b => s.freeBlock b) s

end Sys2Proof.Machine
end

