-- ==== Sys2Proof/Machine/Calls.lean ====
section
/-! DEFINITION. The life of a call in a context: call set-up, call start and end, entries to the call states, serving
start and stop, reservations and their withdrawal (R22 to R30, R36, R57, R90, R105, R158, R160). -/

namespace Sys2Proof.Machine

/-! ### Values at call start -/

/-- Tone state at its cleared values (R128). -/
def Tone.cleared : Tone :=
  { c := 0, s := 0, e := 0, previous := none, run := 0, qualified := false, release := 0, reversal := false }

/-- Level state at call start with an initial gain index (R126). -/
def Level.start (gain : Int) : Level :=
  { gain, power := 0, inputs := [], spacing := 0, peak := false, limit := .clear }

/-- The current-block record at its reset values (R49, R62). -/
def BlockRecord.start (leadIn : Bool) : BlockRecord :=
  { clean := true, count := 0, sumY := 0, sumE := 0, activeSeen := false, leadIn }

/-- Call set-up (R27): everything but the idle recognition and the block phase takes its call-start value. -/
def callSetUp (index : Nat) (p : Profile) (slot : Nat) (sv : Serving) : Serving :=
  { sv with
    profile := index, history := [], power := 0, block := .start (sv.phase != 0), hold := none, msSin := 0, msErr := 0,
    pathRun := 0, hangover := 0, dtFlag := false, nlp := .opened, inactive := 0, noise := 64,
    generator := generatorSeed slot, receive := .start p.receiveG, send := .start p.sendG,
    toneReceive := .cleared, toneSend := .cleared, failed := [] }

/-- The serving parts at a serving start (R23). -/
def newServing (index : Nat) (p : Profile) (slot : Nat) (callPresent : Bool) : Serving :=
  callSetUp index p slot
    { profile := index, callPresent, idleRun := 0, ending := false, phase := 0, history := [], power := 0, block := .start false,
      hold := none, msSin := 0, msErr := 0, pathRun := 0, hangover := 0, dtFlag := false, nlp := .opened,
      inactive := 0, noise := 64, generator := 0, receive := .start 0, send := .start 0, toneReceive := .cleared,
      toneSend := .cleared, failed := [] }

/-- A profile of the table. -/
def State.profileAt (s : State) (index : Nat) : Profile := s.profile.profiles.getD index (defaultProfile 0)

/-! ### Offers -/

/-- An offer is made: HOME-OFFERING with an OFFER queued, or OFFER UNPLACED when the full queue drops it (R158).
DEDUCED, log entry 9. -/
def makeOffer (i : Nat) (s : State) : State :=
  let c := s.ctx i
  let s := s.modCtx i fun c => { c with role := .homeOffering, offer := some ⟨none, none⟩ }
  let m := Msg.offer (BitVec.ofNat 7 (s.slotOf i)) (BitVec.ofNat 5 (s.profileOf i).budget) (BitVec.ofNat 3 c.profile)
    (BitVec.ofBool c.frozen) s.me
  let q := s.enqueue ⟨m, s.frame, none⟩
  if q.2 then q.1
  else (q.1.modCtx i fun c => { c with role := .homeServing, offer := none }).notify 4 [(7, s.slotOf i)]

/-- The offer a call start makes when it obtained fewer blocks than its budget (R158). A home whose serving stop is still
to come, from a GRANT carried after its offer was cancelled, offers too. DEDUCED, log entry 9; DESIGN CHOICE, log
entry 30. -/
def offerIfShort (i obtained : Nat) (s : State) : State :=
  if (s.ctx i).role = .homeServing ∧ s.profile.station = .run ∧ obtained < (s.profileOf i).budget then makeOffer i s
  else s

/-! ### Call start -/

/-- The request, the offer it may lead to, and the pass start of a search at a call start (R81, R101, R158). -/
def startSearch (i : Nat) (s : State) : State :=
  let s := s.modCtx i fun c => { c with callState := .search, search := some (newSearch (s.profileOf i).budget) }
  let q := requestToSpare i s
  let s := offerIfShort i q.2 q.1
  if 0 < q.2 then perform [.passStart i] s else s

/-- A call start in RUN, before its first sample: set-up, then SEARCH, or TRACK with no segments (R26, R27). -/
def callStart (i : Nat) (s : State) : State :=
  let c := s.ctx i
  let s := s.modCtx i fun c => { c with toneHold := false }
  let s := s.modServing i (callSetUp c.profile (s.profileAt c.profile) (s.slotOf i))
  if (s.profileOf i).budget = 0 then
    s.modCtx i fun c => { c with callState := .track, search := some (newSearch 0) }
  else startSearch i s

/-! ### Leaving SEARCH and TRACK -/

/-- Context i leaves the shortfall queue, its search record is discarded, and its blocks pass the release path in
ascending order (R25, R102, R103). -/
def releaseHeld (i : Nat) (s : State) : State :=
  let s := (s.cancelOffer i).leaveShortfall i
  let held := (s.ctx i).search.elim [] (·.heldBlocks)
  perform (held.map .release) (s.modCtx i fun c => { c with search := none })

/-- Both directions' tone state cleared (R128). -/
def clearTone (i : Nat) (s : State) : State :=
  s.modServing i fun sv => { sv with toneReceive := .cleared, toneSend := .cleared }

/-- Entry to IDLE, BYPASS, DISABLED or NOT SERVING (R25). -/
def enterPassing (i : Nat) (st : CallState) (s : State) : State :=
  let s := releaseHeld i (s.modCtx i fun c => { c with callState := st })
  if st = .disabled then s
  else clearTone i (s.modCtx i fun c => { c with toneHold := false })

/-- A call end delivered to the context: SEARCH, TRACK and DISABLED go to IDLE (R28). The role acts on it through the
cleared call-present indicator (R164) and the cancelled offer (R161). -/
def callEnded (i : Nat) (s : State) : State :=
  match (s.ctx i).callState with
  | .search | .track | .disabled => enterPassing i .idle s
  | .notServing | .idle | .bypass => s

/-- The call end of R13 is due: the latest sample, a silent one of a call, brought it. DEDUCED, log entry 3. -/
def callEndDue (sv : Serving) : Bool := sv.callPresent && sv.ending

/-- A call end (R13): call-present clears, the idle run count becomes 0, and the context acts on it. -/
def endCall (i : Nat) (s : State) : State :=
  callEnded i (s.modServing i fun sv => { sv with callPresent := false, idleRun := 0, ending := false })

/-! ### New searches -/

/-- The filter state at an entry to SEARCH that is no call start: the hold emptied, the current-block record reset,
the run count 0 and the peak records no (R49, R56, R117). A lead-in block in which RESTART comes stays one, so that its
end leaves the hold empty (R53). DESIGN CHOICE, log entry 33. -/
def restartFilter (sv : Serving) : Serving :=
  { sv with hold := none, block := .start sv.block.leadIn, pathRun := 0, receive := { sv.receive with peak := false },
            send := { sv.send with peak := false } }

/-- A new search by RESTART, path change or release from DISABLED, the old one being over (R81, R90). -/
def searchAgain (i : Nat) (s : State) : State :=
  let s := s.modServing i restartFilter
  let s := s.modCtx i fun c => { c with callState := .search, search := some (newSearch (s.profileOf i).budget) }
  if (s.profileOf i).budget = 0 then perform [.searchEnd i] s
  else
    let q := requestToSpare i s
    if 0 < q.2 then perform [.passStart i] q.1 else q.1

/-! ### Reservations -/

/-- Withdrawing a bid: the queued BID goes, the context returns to GUEST-FREE, and the reserved blocks pass the release
path (R160). A context whose GRANT has come no longer withdraws (R163). -/
def withdrawBid (i : Nat) (s : State) : State :=
  let c := s.ctx i
  if c.role = .reserved ∧ c.startAt = none then
    let blocks := s.reservedFor i
    let s := s.withdraw fun e => e.isBid (s.slotOf i)
    perform (blocks.map .release) (s.freeGuestAt i)
  else s

/-- A reservation of `demand` blocks for a slot in guest context i, which enters RESERVED (R37, R105, R159). -/
def reserve (i slot demand profile : Nat) (frozen : Bool) (s : State) : State :=
  let s := s.setCtx i
    { freeGuest with slot := some slot, role := .reserved, profile, frozen,
                     reservation := some ⟨demand, profile, 0, none⟩ }
  let s := s.setDirectory slot (some i)
  let t := s.takeBlocks demand
  t.1.foldl (fun s b => s.reserveBlock i b) t.2

/-! ### Serving start and stop -/

/-- The first call state of a taker: SEARCH on its reserved blocks, or BYPASS with the blocks released
(R23, R90). -/
def startTaker (i : Nat) (bypass : Bool) (s : State) : State :=
  let blocks := s.reservedFor i
  if bypass then
    perform (blocks.map .release) (s.modCtx i fun c => { c with callState := .bypass })
  else
    let b := (s.profileOf i).budget
    let r := { newSearch (min b blocks.length) with spare := blocks.take b }
    let s := s.modCtx i fun c => { c with callState := .search, search := some r }
    let s := perform ((blocks.drop b).map .release) s
    perform [if b = 0 then .searchEnd i else .passStart i] s

/-- A serving start of context i (R23, R4): two frames of D5h follow from the emptied pipeline. `offered` is a taker's
profile. DEDUCED, log entry 19. -/
def servingStart (i : Nat) (offered : Option Nat) (s : State) : State :=
  let c := s.ctx i
  let slot := s.slotOf i
  let index := offered.getD c.profile
  let sv := newServing index (s.profileAt index) slot offered.isSome
  let s := (s.clearPipeline slot).modCtx i fun c => { c with serving := some sv, search := none, toneHold := false }
  let bypass := c.transparent || s.profile.station != .run
  match offered with
  | some _ => startTaker i bypass s
  | none => s.modCtx i fun c => { c with callState := if bypass then .bypass else .idle }

/-- A serving stop of context i (R24, R5). -/
def servingStop (i : Nat) (s : State) : State :=
  let s := enterPassing i .notServing s
  (s.clearPipeline (s.slotOf i)).modCtx i fun c => { c with serving := none, toneHold := false }

/-- A home context serves again from the frame under way: HOME-SERVING with call-present clear (R165, R166, R170). -/
def serveAgain (i : Nat) (s : State) : State :=
  let s := s.withdraw fun e => e.isReclaim (s.slotOf i)
  let s := s.modCtx i fun c =>
    { c with role := .homeServing, server := none, reclaim := none, startAt := none, stopAt := none, grantee := none }
  servingStart i none s

end Sys2Proof.Machine
end

