-- ==== Sys2Proof/Machine/Levels.lean ====
section
/-! DEFINITION. The Level Controller's block-end work (R117 to R126). -/

namespace Sys2Proof.Machine

/-- The at-limit flag after G moved without being cut (R125). -/
def limitAfter (limit : AtLimit) (before after : Int) : AtLimit :=
  match limit with
  | .clear => .clear
  | .lower => if before < after then .clear else .lower
  | .upper => if after < before then .clear else .upper

/-- A change of G by `delta`, limited to −36..+24 with the at-limit flag recording a cut (R123, R125). -/
def changeGain (l : Level) (delta : Int) : Level :=
  let want := l.gain + delta
  let got := clampInt Config.gainLow Config.gainHigh want
  let limit := if want < Config.gainLow then .lower else if Config.gainHigh < want then .upper
    else limitAfter l.limit l.gain got
  { l with gain := got, spacing := if got = l.gain then l.spacing else 0, limit }

/-- The evaluation of a direction (R119, R123). -/
def evaluateLevel (target : Int) (l : Level) : Level :=
  let out := msOut (l.power / 256) l.gain
  let band := targetBand target
  if band.2.2 < out then if 8 ≤ l.spacing then changeGain l (-1) else l
  else if out < band.2.1 then if 32 ≤ l.spacing then changeGain l 1 else l
  else l

/-- One direction at a block end: spacing count, ALC switch, tone hold of the block, peak guard, evaluation
(R120, R121, R124). `allowed` is the send interlock. The peak record is no afterwards (R117). -/
def levelBlockEnd (alc hold allowed : Bool) (target : Int) (l : Level) : Level :=
  let l := { l with spacing := countUp 255 l.spacing }
  let l :=
    if !alc || hold then l
    else if l.peak then changeGain l (-2)
    else if decide (Config.levelFloor ≤ l.power / 256) && allowed then evaluateLevel target l
    else l
  { l with peak := false }

/-- The send interlock from the block's facts (R122). -/
def sendAllowed (clean activeSeen : Bool) : Bool := !clean || !activeSeen

end Sys2Proof.Machine
end

