-- ==== Sys2Proof/Machine/Tones.lean ====
section
/-! DEFINITION. The Tone Monitor's sums and block-end tests (R128 to R136). -/

namespace Sys2Proof.Machine

/-- Adding one input at block phase n to a direction's sums (R129). -/
def addTone (n : Nat) (x : Int) (t : Tone) : Tone :=
  { t with c := t.c + x * Config.cosTable.getD n 0, s := t.s + x * Config.sinTable.getD n 0,
           e := t.e + x.natAbs ^ 2 }

/-- The sums at 0 (R129). -/
def zeroSums (t : Tone) : Tone := { t with c := 0, s := 0, e := 0 }

/-- The release run count after a block (R133). -/
def releaseCount (t : Tone) : Tone :=
  { t with release := if t.e < 32768 then countUp 63 t.release else 0 }

/-- The tests of R130 and R131 on one direction, in their order. -/
def judgeTone (t : Tone) : Tone :=
  let isTone := toneBlock t.c t.s t.e
  let reversal := t.qualified && isTone && t.previous.elim false fun p => p.tone && decide (phaseDot t.c t.s p.c p.s < 0)
  let run := if isTone then countUp 100 t.run else 0
  { t with reversal, run, qualified := t.qualified || decide (run = 100), previous := some ⟨t.c, t.s, isTone⟩ }

/-- Both directions' release run counts stand at 63 (R133). -/
def releaseCondition (sv : Serving) : Bool := sv.toneReceive.release == 63 && sv.toneSend.release == 63

/-- Tone hold is due: a direction is qualified and the flag is clear (R130). -/
def toneHoldDue (c : Context) (sv : Serving) : Bool :=
  c.callState.processes && (sv.toneReceive.qualified || sv.toneSend.qualified) && !c.toneHold

/-- Tone hold begins: the flag is set, the NLP opens and its inactive count becomes 0 (R68, R130). -/
def setToneHold (i : Nat) (s : State) : State :=
  (s.modCtx i fun c => { c with toneHold := true }).modServing i fun sv => { sv with nlp := .opened, inactive := 0 }

/-- The release from tone hold is due (R134). -/
def toneHoldReleaseDue (c : Context) (sv : Serving) : Bool :=
  c.callState.processes && c.toneHold && releaseCondition sv

/-- Tone hold ends: the flag and the tone state are cleared (R134). -/
def releaseToneHold (i : Nat) (s : State) : State :=
  clearTone i (s.modCtx i fun c => { c with toneHold := false })

/-- The release from DISABLED is due (R135). -/
def disabledReleaseDue (c : Context) (sv : Serving) : Bool :=
  c.callState == .disabled && releaseCondition sv

/-- The level state of a direction at a release from DISABLED (R126). -/
def Level.released (gain : Int) (l : Level) : Level := { l with gain, spacing := 0, limit := .clear, peak := false }

/-- Release from DISABLED to SEARCH from pass 1 (R135). -/
def releaseDisabled (i : Nat) (s : State) : State :=
  let p := s.profileOf i
  let s := releaseToneHold i s
  let s := s.modServing i fun sv =>
    { sv with receive := sv.receive.released p.receiveG, send := sv.send.released p.sendG }
  searchAgain i s

/-- The direction field of TONE DISABLE: 1 receive, 2 send, 3 both (R136). -/
def reversalDirection (sv : Serving) : Nat := sv.toneReceive.reversal.toNat + 2 * sv.toneSend.reversal.toNat

/-- Entry to DISABLED with its notice, when a phase reversal was found at this block end (R132). -/
def disableOnReversal (i : Nat) (s : State) : State :=
  match (s.ctx i).serving with
  | none => s
  | some sv =>
    if reversalDirection sv = 0 then s
    else (enterPassing i .disabled s).notify 7 [(7, s.slotOf i), (2, reversalDirection sv)]

end Sys2Proof.Machine
end

