-- ==== Sys2Proof/Machine/BlockEnds.lean ====
section
/-! DEFINITION. The end of a context block: commit and hold, measures, path-change watch, noise, dwell, level and tone
work, and the evaluations and path changes that follow (R50 to R57, R70, R83, R84, R89). -/

namespace Sys2Proof.Machine

/-- The commit report of a block end (R52). -/
inductive CommitReport where
  | none | commit | counting
  deriving DecidableEq, Repr

/-- The commit test of a block end on the hold and the block just ended (R50, R52). -/
def commitReport (hold : Option HoldRecord) (clean : Bool) : CommitReport :=
  match hold with
  | Option.none => .none
  | some h => if h.clean && clean then if 16 ≤ h.count ∧ 0 < h.denom then .counting else .commit else .none

/-- Writing the entries of every bound block of context i through `f`, with fresh check codes (R106). -/
def State.mapBound (s : State) (i : Nat) (f : List TapEntry → List TapEntry) : State :=
  (s.boundOf i).foldl (fun s jb => s.modBlock jb.2 fun t => { t with entries := f t.entries, wrong := [] }) s

/-- The number of segments that count as bound at a block end: those bound now, less those that failed on its last
sample (R44, R50). A segment newly bound within the tap reads of that sample counts. DESIGN CHOICE, log entry 25. -/
def countedBound (s : State) (i : Nat) (sv : Serving) : Nat :=
  ((s.boundOf i).filter fun jb => !sv.failed.contains jb.1).length

/-- The held denominator taken at a block end (R50). -/
def heldDenominator (s : State) (i : Nat) (sv : Serving) : Nat :=
  (sv.power / 256 + 64) * (64 * countedBound s i sv)

/-- The path-change run count after a block end in TRACK with a bound segment (R56); `counted` says that one of them
counts as bound at this block end. DESIGN CHOICE, log entry 25. -/
def nextPathRun (run : Nat) (report : CommitReport) (counted : Bool) (count msSin msErr : Nat) : Nat :=
  if counted && report == .counting && decide (16 ≤ count) then
    if msSin < 4 * msErr then countUp Config.pathTop run else 0
  else run

/-- The serving parts after the filter's, noise and level work of a block end that is no lead-in (R50, R55, R56, R70,
R121). -/
def servingBlockEnd (s : State) (i : Nat) (sv : Serving) : Serving :=
  let c := s.ctx i
  let p := s.profileOf i
  let b := sv.block
  let report := commitReport sv.hold b.clean
  let msSin := b.sumY / 32
  let msErr := b.sumE / 32
  { sv with
    hold := some ⟨b.clean, b.count, heldDenominator s i sv⟩
    msSin, msErr
    pathRun := if c.callState = .track then
        if s.boundOf i = [] then 0
        else nextPathRun sv.pathRun report (decide (0 < countedBound s i sv)) b.count msSin msErr
      else sv.pathRun
    noise := nextNoise sv.noise msSin
    receive := levelBlockEnd p.receiveAlc c.toneHold true p.receiveTarget sv.receive
    send := levelBlockEnd p.sendAlc c.toneHold (sendAllowed b.clean b.activeSeen) p.sendTarget sv.send
    block := .start false }

/-- The tone work of a block end in SEARCH or TRACK (R130, R131, R133). DEDUCED, log entry 13. -/
def toneBlockEnd (tone : Bool) (sv : Serving) : Serving :=
  if tone then
    { sv with toneReceive := zeroSums (releaseCount (judgeTone sv.toneReceive))
              toneSend := zeroSums (releaseCount (judgeTone sv.toneSend)) }
  else sv

/-! ### Evaluation and search ends -/

/-- Inserting a segment with its energy in strength order (R79). -/
def insertStrength (x : Nat × Nat) : List (Nat × Nat) → List (Nat × Nat)
  | [] => [x]
  | y :: ys => if y.2 < x.2 ∨ (y.2 = x.2 ∧ x.1 < y.1) then x :: y :: ys else y :: insertStrength x ys

/-- The new retained set: the first B significant segments of the bound ones in strength order (R84, steps 1, 2). -/
def State.judgeSegments (s : State) (i : Nat) : List Nat :=
  let energies := (s.boundOf i).map fun jb => (jb.1, energyOf (s.tapBlock jb.2).entries)
  let eMax := energies.foldl (fun m e => max m e.2) 0
  (((energies.filter fun e => significant e.2 eMax).foldr insertStrength []).map (·.1)).take (s.profileOf i).budget

/-- An evaluation is due: SEARCH in a pass with the dwell at 64 (R83). -/
def evaluationDue (c : Context) : Bool :=
  c.callState == .search && c.search.elim false fun r => r.status == .inPass && decide (Config.dwellTop ≤ r.dwell)

/-- Segments are unbound, their blocks entering the spare hand (R84, step 3). -/
def unbind (i : Nat) (gone : List (Nat × Nat)) (s : State) : State :=
  (gone.foldl (fun s jb => s.reserveBlock i jb.2) s).modSearch i fun r =>
    { r with map := r.map.filter fun e => gone.all fun jb => jb.1 != e.number
             spare := gone.foldl (fun l jb => insertNum jb.2 l) r.spare }

/-- The next step of an evaluation with the new retained set made (R84, step 4). The segments not retained are unbound
before a pass start; at a search end they keep their blocks for the plan (R87, step 1), but for those whose block
failed on the sample (R94). DEDUCED, log entry 11. -/
def nextStep (i : Nat) (failed : List Nat) (r : SearchRecord) (s : State) : State :=
  let gone := r.bound.filter fun jb => !r.retained.contains jb.1
  let searchEnd := perform [.searchEnd i] (unbind i (gone.filter fun jb => failed.contains jb.1) s)
  if r.unexplored (s.reachOf i) = [] then searchEnd
  else if gone ≠ [] ∨ r.spare ≠ [] then perform [.passStart i] (unbind i gone s)
  else if s.pool.shortfall.contains i then s.modSearch i fun r => { r with status := .waiting, dwell := 0 }
  else searchEnd

/-- An evaluation (R84). -/
def evaluate (i : Nat) (s : State) : State :=
  match (s.ctx i).search with
  | none => s
  | some r =>
    let r := { r with retained := s.judgeSegments i }
    nextStep i ((s.ctx i).serving.elim [] (·.failed)) r (s.modSearch i fun _ => r)

/-- SETTLE on a context in SEARCH: the bound segments are judged and the search ends at once (R89).
DEDUCED, log entry 11. -/
def settleSearch (i : Nat) (s : State) : State :=
  let retained := s.judgeSegments i
  perform [.searchEnd i] (s.modSearch i fun r => { r with retained })

/-- A path change is due: TRACK with the run count at 32 (R57). -/
def pathChangeDue (c : Context) (sv : Serving) : Bool :=
  c.callState == .track && decide (Config.pathTop ≤ sv.pathRun)

/-- A path change: blocks released, notice, and a new search (R57). -/
def pathChanged (i : Nat) (s : State) : State :=
  searchAgain i ((releaseHeld i s).notify 1 [(7, s.slotOf i)])

/-- A task on context i that is taken when its condition stands on the context and its serving parts.
DEDUCED, log entry 3. -/
def whenDue (due : Context → Serving → Bool) (act : Nat → State → State) (i : Nat) (s : State) : State :=
  match (s.ctx i).serving with
  | some sv => if due (s.ctx i) sv then act i s else s
  | none => s

def evaluateIfDue : Nat → State → State := whenDue (fun c _ => evaluationDue c) evaluate
def pathChangeIfDue : Nat → State → State := whenDue pathChangeDue pathChanged
def toneHoldIfDue : Nat → State → State := whenDue toneHoldDue setToneHold
def toneHoldReleaseIfDue : Nat → State → State := whenDue toneHoldReleaseDue releaseToneHold
def disabledReleaseIfDue : Nat → State → State := whenDue disabledReleaseDue releaseDisabled

/-! ### The block end -/

/-- The dwell after a commit report (R83). -/
def countDwell (report : CommitReport) (c : Context) : Context :=
  if c.callState = .search ∧ report = .counting then
    { c with search := c.search.map fun r => if r.status = .inPass then { r with dwell := countUp Config.dwellTop r.dwell } else r }
  else c

/-- The end of a block in SEARCH or TRACK that is no lead-in: its work in order, then the events it makes due.
DEDUCED, log entry 13. -/
def fullBlockEnd (i : Nat) (sv : Serving) (s : State) : State :=
  let p := s.profileOf i
  let report := commitReport sv.hold sv.block.clean
  let commit := report != .none
  let d := sv.hold.elim 0 (·.denom)
  let after := toneBlockEnd p.tone (servingBlockEnd s i sv)
  let s := s.mapBound i fun es => es.map (commitEntry commit p.step d)
  let s := (s.modCtx i (countDwell report)).modServing i fun _ => after
  let s := pathChangeIfDue i (evaluateIfDue i s)
  toneHoldReleaseIfDue i (disableOnReversal i (toneHoldIfDue i s))

/-- A lead-in block end (R49, R53): the gradients and records are reset and nothing else is done. -/
def leadInBlockEnd (i : Nat) (s : State) : State :=
  (s.mapBound i fun es => es.map fun t => { t with gc := 0, gh := 0 }).modServing i fun sv =>
    { sv with block := .start false, hold := none, receive := { sv.receive with peak := false },
              send := { sv.send with peak := false }, toneReceive := zeroSums sv.toneReceive,
              toneSend := zeroSums sv.toneSend }

/-- A block end in DISABLED: the release run counts and the release they allow (R133, R135). -/
def disabledBlockEnd (i : Nat) (s : State) : State :=
  if (s.profileOf i).tone then
    disabledReleaseIfDue i (s.modServing i fun sv =>
      { sv with toneReceive := zeroSums (releaseCount sv.toneReceive)
                toneSend := zeroSums (releaseCount sv.toneSend) })
  else s

/-- The block end of context i (R45, R50, R53, R54): its work by call state, and the next block begins. -/
def blockEnded (i : Nat) (s : State) : State :=
  let s := match (s.ctx i).serving with
    | none => s
    | some sv =>
      match (s.ctx i).callState with
      | .search | .track => if sv.block.leadIn then leadInBlockEnd i s else fullBlockEnd i sv s
      | .disabled => disabledBlockEnd i s
      | .notServing | .idle | .bypass => s
  s.modServing i fun sv => { sv with phase := 0, block := { sv.block with leadIn := false } }

/-- The block end is due: 32 samples since the last (R45). -/
def blockEndDue (sv : Serving) : Bool := decide (Config.blockLen ≤ sv.phase)

end Sys2Proof.Machine
end

