-- ==== Sys2Proof/Machine/Signal.lean ====
section
/-! DEFINITION. One sample of a slot: output drive, idle recognition, the receive and send paths, and the families
SAMPLE, CALL_END, RETIREMENT, the two hangovers, BLOCK_END and the events a block end makes due (R2 to R13, R38 to
R47, R58 to R76, R116, R118, R129). -/

namespace Sys2Proof.Machine

/-! ### The highway side of a slot -/

/-- What is driven on a slot's lines in this frame: the pair placed for it, else D5h on both (R3, R4). -/
def drivenCodes (s : State) (slot : Nat) : CodePair :=
  ((s.highway.pipeline.getD slot []).find? fun p => p.frame == s.frame).elim ⟨Config.idleCode, Config.idleCode⟩ (·.codes)

/-- The start of a slot: its pair is taken from the pipeline and driven when served, else dropped with the lines at
high impedance (R3, R6). -/
def driveSlot (slot : Nat) (served : Bool) (s : State) : State :=
  { s with highway := { s.highway with
      lines := ⟨some slot, if served then some (drivenCodes s slot) else none⟩
      pipeline := s.highway.pipeline.set slot
        ((s.highway.pipeline.getD slot []).filter fun p => decide (s.frame < p.frame)) } }

/-- Placing the codes of a sample for frame f + 2 (R2). -/
def placeCodes (slot : Nat) (codes : CodePair) (s : State) : State :=
  { s with highway := { s.highway with
      pipeline := s.highway.pipeline.set slot (s.highway.pipeline.getD slot [] ++ [⟨s.frame + 2, codes⟩]) } }

/-! ### Idle recognition -/

/-- A call start delivered to context i: a queued RETURN is withdrawn (R164), and a call begins from IDLE in RUN
(R26). -/
def callStarted (i : Nat) (s : State) : State :=
  let s := if (s.ctx i).role = .taken ∨ (s.ctx i).role = .actingHome then s.recall (·.isReturn (s.slotOf i)) else s
  if (s.ctx i).callState = .idle ∧ s.profile.station = .run then callStart i s else s

/-- Idle recognition of a sample (R12, R13). -/
def recognise (i : Nat) (rin sin : Byte) (s : State) : State :=
  match (s.ctx i).serving with
  | none => s
  | some sv =>
    let quiet := silent s.highway.idleCodes rin sin
    let run := if quiet then countUp 4095 sv.idleRun else 0
    let sv' := { sv with callPresent := sv.callPresent || !quiet, idleRun := run
                         ending := quiet && sv.callPresent && decide (s.highway.idleCount ≤ run) }
    let s := s.modServing i fun _ => sv'
    if quiet then if callEndDue sv' then endCall i s else s
    else if sv.callPresent then s else callStarted i s

/-! ### The stages of a sample in SEARCH or TRACK (R45) -/

/-- The receive path: gain, ROUT code, reference and P; the reference enters the history at the end of the sample
(R10, R38 to R41, R116). -/
structure Received where
  level  : Level
  rout   : Byte
  x      : Int
  power  : Nat
  window : List Int
  deriving DecidableEq, Repr

def receivePath (sv : Serving) (rin : Byte) : Received :=
  let g := gainStage sv.receive (expand rin)
  let rout := compress g.2
  let x := expand rout
  { level := g.1, rout, x, power := sv.power + x.natAbs ^ 2 - squareAt sv.history 255,
    window := enter Config.historyLen x sv.history }

/-- The bound segments that take part in a sample: bound at its start, not failed on it, and bound still (R44). -/
def takingPart (atStart now : List (Nat × Nat)) (failed : List Nat) : List (Nat × Nat) :=
  now.filter fun jb => atStart.any (fun e => e.1 == jb.1) && !failed.contains jb.1

/-- The echo estimate over the blocks taking part (R42). -/
def echoEstimate (s : State) (parts : List (Nat × Nat)) (window : List Int) : Int :=
  let acc := parts.foldl (fun a jb => a + tapSum (s.tapBlock jb.2).entries (windowOf window jb.1)) 0
  saturate 4095 (roundDiv acc 32768)

/-- The gradient sums of the blocks taking part after a contributing sample (R47). -/
def gatherGradients (parts : List (Nat × Nat)) (e : Int) (window : List Int) (s : State) : State :=
  parts.foldl
    (fun s jb => s.modBlock jb.2 fun t => { t with entries := addGradient e t.entries (windowOf window jb.1), wrong := [] })
    s

/-- The sample contributes to adaptation (R46). -/
def contributes (c : Context) (active dt : Bool) : Bool :=
  c.callState.processes && !c.frozen && !c.toneHold && active && !dt

/-- The serving parts and the send-path output of a sample, from the estimate on: double-talk test, block sums, NLP,
comfort noise, send gain, tone sums and history (R43, R45, R60 to R75, R116, R129). `bound` is the segments bound at
the start of the sample. -/
def sendPath (c : Context) (p : Profile) (sv : Serving) (r : Received) (bound : List Nat) (y e : Int) (v : Int) :
    Serving × Byte :=
  let active := refActive r.power
  let hangover := nextHangover sv.hangover (peakOf sv.history) y
  let dt := decide (0 < hangover)
  let inactive := if active then 0 else countUp 1024 sv.inactive
  let nlp := nextNlp sv.nlp p.nlp c.toneHold active dt inactive (nlpHangover bound)
  let noise := generatorRun 12 0 sv.generator
  let value := match nlp with
    | .opened => e
    | .closed => if p.comfortNoise then comfortNoise (noiseValue noise.1) sv.noise else 0
  let g := gainStage sv.send value
  ({ sv with
      history := r.window, power := r.power, hangover, dtFlag := dt, nlp, inactive, generator := noise.2
      block := { sv.block with clean := sv.block.clean && !dt
                               count := sv.block.count + (contributes c active dt).toNat
                               sumY := sv.block.sumY + y.natAbs ^ 2, sumE := sv.block.sumE + e.natAbs ^ 2
                               activeSeen := sv.block.activeSeen || active }
      receive := r.level, send := g.1
      toneReceive := if p.tone then addTone sv.phase v sv.toneReceive else sv.toneReceive
      toneSend := if p.tone then addTone sv.phase y sv.toneSend else sv.toneSend },
   compress g.2)

/-- A sample in SEARCH or TRACK: the tap reads, then the stages in order (R45); the codes to place. -/
def processSample (i : Nat) (rin sin : Byte) (upsets : List TapUpset) (s : State) : State × CodePair :=
  let atStart := s.boundOf i
  let s := strike upsets s
  let failed := failedSegments s atStart
  let s := readBlocks i atStart s
  match (s.ctx i).serving with
  | none => (s, ⟨rin, sin⟩)
  | some sv =>
    let parts := takingPart atStart (s.boundOf i) failed
    let c := s.ctx i
    let r := receivePath sv rin
    let y := expand sin
    let e := saturate 4095 (y - echoEstimate s parts r.window)
    let out := sendPath c (s.profileOf i) sv r (atStart.map (·.1)) y e (expand rin)
    let s := if contributes c (refActive r.power) out.1.dtFlag then gatherGradients parts e r.window s else s
    (s.modServing i fun _ => { out.1 with failed }, ⟨r.rout, out.2⟩)

/-- A sample in DISABLED: the codes pass, and the tone sums gather (R7, R129). -/
def disabledSample (i : Nat) (rin sin : Byte) (s : State) : State :=
  if (s.profileOf i).tone then
    s.modServing i fun sv =>
      { sv with toneReceive := addTone sv.phase (expand rin) sv.toneReceive
                toneSend := addTone sv.phase (expand sin) sv.toneSend }
  else s

/-- The processing of a sample by call state, and the codes to place (R2, R7). -/
def processByState (i : Nat) (rin sin : Byte) (upsets : List TapUpset) (s : State) : State × CodePair :=
  match (s.ctx i).callState with
  | .search | .track => processSample i rin sin upsets s
  | .disabled => (disabledSample i rin sin s, ⟨rin, sin⟩)
  | .notServing | .idle | .bypass => (s, ⟨rin, sin⟩)

/-- The block end after a sample, when it is due (R45, step 8). -/
def blockEndIfDue (i : Nat) (s : State) : State := whenDue (fun _ sv => blockEndDue sv) blockEnded i s

/-- One sample of a served slot (R2, R45). -/
def servedSample (i slot : Nat) (rin sin : Byte) (upsets : List TapUpset) (s : State) : State :=
  let s := recognise i rin sin (driveSlot slot true s)
  let out := processByState i rin sin upsets s
  let s := placeCodes slot out.2 out.1
  blockEndIfDue i (s.modServing i fun sv => { sv with phase := sv.phase + 1 })

/-- The codes of a slot in a frame (R1 to R3): a sample when this station serves the slot, nothing else.
DEDUCED, log entry 21. -/
def sampleSlot (slot : Nat) (rin sin : Byte) (upsets : List TapUpset) (s : State) : State :=
  if s.highway.sync = .locked then
    match s.servedBy slot with
    | some i => servedSample i slot rin sin upsets s
    | none => driveSlot slot false s
  else s

/-- An act on the serving context of a slot. -/
def onServed (slot : Nat) (act : Nat → State → State) (s : State) : State :=
  match s.servedBy slot with
  | some i => act i s
  | none => s

/-! ### The family's commands -/

/-- What `exec` answers. -/
abbrev Answer := Host.Outcome State Fault Refusal

/-- SAMPLE (R2). -/
def execSample (slot : BitVec 7) (rin sin : Byte) (upsets : List TapUpset) (s : State) : Answer :=
  .next (unlessHeld (sampleSlot slot.toNat rin sin upsets) s)

/-- CALL_END (R13). -/
def execCallEnd (slot : BitVec 7) (s : State) : Answer :=
  .next (onServed slot.toNat (whenDue (fun _ sv => callEndDue sv) endCall) s)

/-- RETIREMENT (R108). -/
def execRetirement (block : BitVec 9) (s : State) : Answer := .next (unlessHeld (retireIfDue block.toNat) s)

/-- The DT flag clears when the hangover has counted down to 0 (R59, R61). -/
def clearDtFlag (i : Nat) (s : State) : State := s.modServing i fun sv => { sv with dtFlag := false }

/-- DT_HANGOVER_END (R61). -/
def execDtHangoverEnd (slot : BitVec 7) (s : State) : Answer :=
  .next (onServed slot.toNat (whenDue (fun _ sv => sv.dtFlag && sv.hangover == 0) clearDtFlag) s)

/-- The NLP opens (R67). -/
def openNlp (i : Nat) (s : State) : State := s.modServing i fun sv => { sv with nlp := .opened }

/-- A CLOSED NLP whose inactive count has reached the NLP hangover (R64, R67). -/
def nlpExpired (s : State) (i : Nat) (c : Context) (sv : Serving) : Bool :=
  c.callState.processes && sv.nlp == .closed && decide (nlpHangover ((s.boundOf i).map (·.1)) ≤ sv.inactive)

/-- NLP_HANGOVER_EXPIRY (R67). -/
def execNlpHangoverExpiry (slot : BitVec 7) (s : State) : Answer :=
  .next (onServed slot.toNat (fun i => whenDue (nlpExpired s i) openNlp i) s)

/-- BLOCK_END (R50). -/
def execBlockEnd (slot : BitVec 7) (s : State) : Answer := .next (onServed slot.toNat blockEndIfDue s)

/-- PATH_CHANGE (R57). -/
def execPathChange (slot : BitVec 7) (s : State) : Answer := .next (onServed slot.toNat pathChangeIfDue s)

/-- EVALUATION (R84). -/
def execEvaluation (slot : BitVec 7) (s : State) : Answer := .next (onServed slot.toNat evaluateIfDue s)

/-- TONE_HOLD (R130). -/
def execToneHold (slot : BitVec 7) (s : State) : Answer := .next (onServed slot.toNat toneHoldIfDue s)

/-- TONE_HOLD_RELEASE (R134). -/
def execToneHoldRelease (slot : BitVec 7) (s : State) : Answer := .next (onServed slot.toNat toneHoldReleaseIfDue s)

/-- DISABLED_RELEASE (R135). -/
def execDisabledRelease (slot : BitVec 7) (s : State) : Answer := .next (onServed slot.toNat disabledReleaseIfDue s)

end Sys2Proof.Machine
end

