-- ==== Sys2Proof/Machine/Station.lean ====
section
/-! DEFINITION. The station's own life: RESET, TEST, sync, LISTEN, CONFIG and RUN entry (R14 to R20, R29, R98, R99,
R113, R154, R157, R169, R173, R174, R177). -/

namespace Sys2Proof.Machine

/-! ### RESET and TEST -/

/-- RESET assertion: every piece of state takes its RESET value; the strap values stand until the release (R173,
R174). The queue of waiting commands is not the station's. -/
def assertReset (s : State) : State :=
  { State.resetWith s.profile.k s.profile.n s.profile.clamped with pending := s.pending }

/-- RESET release: the straps are read, the contexts fixed from them, and TEST begins (R17, R98, R173, R174). -/
def releaseReset (station population : BitVec 3) (tested : List TapUpset) (s : State) : State :=
  let k := station.toNat
  let v := population.toNat
  let n := if v = 0 then 2 else v + 1
  { s with
    profile := { s.profile with station := .test, k, n, clamped := decide (v = 0), runReached := false,
                                configFrames := 0, testFrames := 0 }
    table := tableFor k n
    pool := { s.pool with faulty := memoryTest tested } }

/-- Entry to LISTEN with an empty LISTEN record (R169). -/
def enterListen (s : State) : State :=
  { s with
    profile := { s.profile with station := .listen, listenFrames := 0 }
    share := { s.share with listenMarks := 0, listenMarks' := 0, listenAdopt := 0, listenAdopt' := 0 } }

/-- The end of TEST is due: its 32nd frame has ended (R14). -/
def testEndDue (s : State) : Bool :=
  s.profile.station == .test && decide (Config.testFrames ≤ s.profile.testFrames)

/-- The end of TEST: the blocks are placed, and the station goes to LISTEN or UNSYNCED (R14, R99, R174). -/
def endTest (s : State) : State :=
  let s := { s with pool := placement s.pool.faulty }
  if s.highway.sync = .locked then enterListen s else { s with profile := { s.profile with station := .unsynced } }

/-- An act of the station taken when it is due. DEDUCED, log entry 3. -/
def ifDue (due : State → Bool) (act : State → State) (s : State) : State := if due s then act s else s

/-- The end of a frame of TEST (R14). DEDUCED, log entry 20. -/
def countTestFrame (s : State) : State :=
  if s.profile.station = .test then
    ifDue testEndDue endTest { s with profile := { s.profile with testFrames := countUp 32 s.profile.testFrames } }
  else s

/-! ### Frame sync -/

/-- A lock that ends a sync loss in UNSYNCED is a regain (R16, R174). -/
def lockIsRegain (s : State) : Bool := s.highway.framesLost != 0 && s.profile.station == .unsynced

/-- The spacing count has reached 8 in HUNT (R14). -/
def lockReached (s : State) : Bool := s.highway.sync == .hunt && decide (Config.lockAt ≤ s.highway.spacing)

/-- The interface locks to the eighth pulse (R14). -/
def lockInterface (s : State) : State :=
  { s with highway := { s.highway with sync := .locked, miss := 0, framesLost := 0, lockClock := s.highway.lastPulse } }

/-- A lock that is no regain: a frame of TEST ends at it, and UNSYNCED goes to LISTEN (R14, R174).
DEDUCED, log entry 20. -/
def lockFirst (s : State) : State :=
  let s := lockInterface s
  if s.profile.station = .unsynced then enterListen s else countTestFrame s

/-- Sync regain: LISTEN, and SYNC REGAINED with the frames-lost count (R16, R174). -/
def regain (s : State) : State :=
  (enterListen (lockInterface s)).notify 8 [(16, s.highway.framesLost)]

def lockDue (s : State) : Bool := lockReached s && !lockIsRegain s
def regainDue (s : State) : Bool := lockReached s && lockIsRegain s

/-- A frame sync pulse at a bit clock (R14, R15): in HUNT it raises the spacing count when correctly spaced and sets it
to 1 otherwise; in LOCKED it has no effect (expected positions are checked by their own command). -/
def syncPulse (clock : Nat) (s : State) : State :=
  if s.highway.sync = .hunt then
    let spaced := s.highway.lastPulse.elim false fun last => decide (last + Config.frameClocks = clock)
    let s := { s with highway := { s.highway with
      spacing := if spaced then countUp Config.lockAt s.highway.spacing else 1, lastPulse := some clock } }
    if lockIsRegain s then ifDue regainDue regain s else ifDue lockDue lockFirst s
  else s

/-! ### Sync loss -/

/-- A context at sync loss (R20). -/
def contextSyncLoss (c : Context) : Context :=
  match c.kind with
  | .guest => freeGuest
  | .home =>
    { c with role := .homeServing, server := none, offer := none, reservation := none, reclaim := none, stopAt := none,
             grantee := none, startAt := none, toneHold := false, pendingReturn := false, callState := .notServing,
             serving := none, search := none }

/-- Sync loss (R15, R20, R113, R154, R157, R174). DEDUCED, log entry 20. -/
def loseSync (s : State) : State :=
  let s := poolSyncLoss s
  { s with
    highway := { s.highway with sync := .hunt, spacing := 0, framesLost := 2, lastPulse := none, lockClock := none,
                                pipeline := emptyPipeline, lines := .released }
    profile := { s.profile with station := if s.profile.station = .test then .test else .unsynced, configFrames := 0,
                                runAccepted := none }
    table := { contexts := s.table.contexts.map contextSyncLoss, directory := directoryFor s.profile.k s.profile.n }
    lane := { s.lane with queue := [], recalled := [], markRecord := 0, ownRecord := 0, cell := none }
    share := sharingReset }

/-- Sync loss is due: two expected positions in a row without a pulse (R15). -/
def syncLossDue (s : State) : Bool := s.highway.sync == .locked && decide (2 ≤ s.highway.miss)

/-- An expected position in LOCKED (R15). DEDUCED, log entry 20. -/
def checkPosition (pulse : Bool) (s : State) : State :=
  if s.highway.sync = .locked then
    ifDue syncLossDue loseSync
      { s with highway := { s.highway with miss := if pulse then 0 else countUp 2 s.highway.miss } }
  else s

/-- A period of 1024 bit clocks in HUNT (R14, R16). -/
def huntPeriodEnds (s : State) : State :=
  if s.highway.sync = .hunt then
    countTestFrame
      (if s.highway.framesLost = 0 then s
       else { s with highway := { s.highway with framesLost := countUp 65535 s.highway.framesLost } })
  else s

/-! ### LISTEN, CONFIG and RUN -/

/-- A home context judged at the end of LISTEN: held elsewhere, or a serving start (R169). -/
def judgeHome (s : State) (i : Nat) : State :=
  let c := s.ctx i
  match c.kind, c.slot with
  | .home, some slot =>
    if s.share.listenMarks.getLsbD slot || s.share.listenAdopt.getLsbD slot || s.share.listenAdopt'.getLsbD slot then
      (s.modCtx i fun c => { c with role := .reclaiming, reclaim := some ⟨0, none, s.frame + 1⟩ }).send
        (.reclaim (BitVec.ofNat 7 slot) s.me)
    else servingStart i none s
  | _, _ => s

/-- The absence counts at 0 (R167). -/
def clearAbsence (s : State) : State :=
  { s with share := { s.share with absence := List.replicate Config.slots 0 } }

/-- The end of LISTEN is due: its 16th frame has ended (R169). -/
def listenEndDue (s : State) : Bool :=
  s.profile.station == .listen && decide (Config.listenFrames ≤ s.profile.listenFrames)

/-- The end of LISTEN: CONFIG, or RUN once run-reached, and the home contexts judged in order (R169, R174). -/
def endListen (s : State) : State :=
  let s := { s with profile := { s.profile with
    station := if s.profile.runReached then .run else .config, configFrames := 0, runAccepted := none } }
  (List.range Config.contexts).foldl judgeHome (clearAbsence s)

/-- A serving context in BYPASS re-judged at RUN entry (R29). -/
def rejudge (s : State) (i : Nat) : State :=
  match (s.ctx i).serving with
  | none => s
  | some sv =>
    if (s.ctx i).callState = .bypass ∧ s.serves i ∧ !(s.ctx i).transparent then
      if sv.callPresent then callStart i s else enterPassing i .idle s
    else s

/-- Entry to RUN from CONFIG (R29, R174). -/
def enterRun (s : State) : State :=
  let s := { s with profile := { s.profile with station := .run, runReached := true, runAccepted := none } }
  (List.range Config.contexts).foldl rejudge (clearAbsence s)

/-- RUN entry is due: the frame in which a RUN was accepted has ended (R177). -/
def runEntryDue (s : State) : Bool :=
  s.profile.station == .config && s.profile.runAccepted.elim false fun f => decide (f < s.frame)

/-- RUN entry by the end of CONFIG's time is due (R177). -/
def configTimeoutDue (s : State) : Bool :=
  s.profile.station == .config && s.profile.runAccepted.isNone && decide (Config.configFrames ≤ s.profile.configFrames)

/-! ### The family's commands -/

/-- RESET_ASSERTION (R174). -/
def execResetAssertion (s : State) : Answer := .next (assertReset s)

/-- RESET_RELEASE (R174). -/
def execResetRelease (station population : BitVec 3) (tested : List TapUpset) (s : State) : Answer :=
  .next (if s.profile.station = .held then releaseReset station population tested s else s)

/-- TEST_END (R14). -/
def execTestEnd (s : State) : Answer := .next (ifDue testEndDue endTest s)

/-- FRAME_SYNC_PULSE (R14). -/
def execFrameSyncPulse (clock : Nat) (s : State) : Answer := .next (unlessHeld (syncPulse clock) s)

/-- SYNC_LOCK (R14). -/
def execSyncLock (s : State) : Answer := .next (unlessHeld (ifDue lockDue lockFirst) s)

/-- SYNC_REGAIN (R16). -/
def execSyncRegain (s : State) : Answer := .next (unlessHeld (ifDue regainDue regain) s)

/-- EXPECTED_POSITION_CHECK (R15). -/
def execExpectedPositionCheck (pulse : Bool) (s : State) : Answer := .next (unlessHeld (checkPosition pulse) s)

/-- SYNC_LOSS (R15). -/
def execSyncLoss (s : State) : Answer := .next (unlessHeld (ifDue syncLossDue loseSync) s)

/-- HUNT_PERIOD (R16). -/
def execHuntPeriod (s : State) : Answer := .next (unlessHeld huntPeriodEnds s)

/-- LISTEN_END (R169). -/
def execListenEnd (s : State) : Answer := .next (ifDue listenEndDue endListen s)

/-- CONFIG_TIMEOUT (R177). -/
def execConfigTimeout (s : State) : Answer := .next (ifDue configTimeoutDue enterRun s)

/-- RUN_ENTRY (R174). -/
def execRunEntry (s : State) : Answer := .next (ifDue runEntryDue enterRun s)

end Sys2Proof.Machine
end

