-- ==== Sys2Proof/Machine/Sharing.lean ====
section
/-! DEFINITION. Slot sharing at frame boundaries: stale entries, bid and grant deadlines, RETURN queueing, the home
absence rule, orphans and adoption, reclaim ages, hand-overs, and the frame boundary that makes these judgements
(R138, R152, R157 to R170). A deadline "at the boundary after frame f" has come when the frame under way is past f. -/

namespace Sys2Proof.Machine

/-! ### Frame deadlines of one context -/

/-- An act on the context that the directory names for a slot, in any role. -/
def onHeld (slot : Nat) (act : Nat → State → State) (s : State) : State :=
  match s.lookup slot with
  | some i => act i s
  | none => s

/-- A queue entry whose offer's frame lies more than `window` frames back (R152). -/
def Entry.pastOffer (frame window : Nat) (e : Entry) : Bool :=
  e.offerFrame.elim false fun o => decide (o + window < frame)

/-- A BID not carried by frame o+4 is removed as stale and the bidder withdraws (R152, R160). -/
def expireBid (slot : Nat) (s : State) : State :=
  let stale := fun (e : Entry) => e.isBid slot && e.pastOffer s.frame 4
  if s.queued stale then onHeld slot withdrawBid (s.withdraw stale) else s

/-- The end of an offer without a hand-over: HOME-SERVING and OFFER UNPLACED (R161). -/
def offerUnplaced (i : Nat) (s : State) : State :=
  (s.modCtx i fun c => { c with role := .homeServing, offer := none }).notify 4 [(7, s.slotOf i)]

/-- An offer whose GRANT will not be carried ends without a hand-over (R161). -/
def failOffer (i : Nat) (s : State) : State :=
  if (s.ctx i).role = .homeOffering ∧ (s.ctx i).stopAt = none then offerUnplaced i s else s

/-- A GRANT not carried by frame o+8 is removed as stale and the home keeps its slot (R152, R161). -/
def expireGrant (slot : Nat) (s : State) : State :=
  let stale := fun (e : Entry) => e.isGrant slot && e.pastOffer s.frame 8
  if s.queued stale then onHeld slot failOffer (s.withdraw stale) else s

/-- The boundary after o+4: a GRANT to the best bid, or OFFER UNPLACED (R161). -/
def endOfferWindow (i : Nat) (s : State) : State :=
  let c := s.ctx i
  match c.role, c.offer with
  | .homeOffering, some ⟨some o, best⟩ =>
    if o + 4 < s.frame ∧ c.stopAt = none ∧ !s.queued (·.isGrant (s.slotOf i)) then
      match best with
      | some (taker, _) =>
        let q := s.enqueue ⟨.grant (BitVec.ofNat 7 (s.slotOf i)) (BitVec.ofNat 4 taker) s.me, s.frame, some o⟩
        if q.2 then q.1 else offerUnplaced i q.1
      | none => offerUnplaced i s
    else s
  | _, _ => s

/-- No GRANT naming this station by frame b+8 (R160). -/
def timeOutBid (i : Nat) (s : State) : State :=
  match (s.ctx i).reservation with
  | some r => if r.bidFrame.elim false fun b => decide (b + 8 < s.frame) then withdrawBid i s else s
  | none => s

/-- The offer memory entry of a slot after frame o+8 (R157). -/
def expireOfferMemory (slot : Nat) (s : State) : State :=
  match s.share.offers.getD slot none with
  | some m =>
    if m.frame + 8 < s.frame then { s with share := { s.share with offers := s.share.offers.set slot none } } else s
  | none => s

/-- Queueing the RETURN of a server that is to give its slot back: cause 3 reclaimed, 0 call end (R164). -/
def sendReturn (i : Nat) (s : State) : State :=
  s.send (.returnSlot (BitVec.ofNat 7 (s.slotOf i)) (if (s.ctx i).pendingReturn then 3 else 0) s.me)

/-- A guest context queues a RETURN at a frame boundary in RUN (R164). -/
def queueReturn (i : Nat) (s : State) : State :=
  let c := s.ctx i
  let clear := c.serving.elim false fun sv => !sv.callPresent
  let wants := c.role == .taken || (c.role == .actingHome && c.pendingReturn)
  if wants && clear && !s.queued (·.isReturn (s.slotOf i)) then sendReturn i s else s

/-- The home absence rule on the mark record of the frame just ended (R166). -/
def judgeAbsence (i : Nat) (s : State) : State :=
  let c := s.ctx i
  let watched := c.role == .handed || (c.role == .reclaiming && c.reclaim.elim true fun r => decide (r.judgeFrom < s.frame))
  if watched && !s.lane.markRecord.getLsbD (s.slotOf i) then serveAgain i s else s

/-- A RECLAIM age after the boundary that begins `frame`: it rises at each boundary after the one that ends the frame
its RECLAIM was carried in (R170). -/
def nextReclaim (frame : Nat) (r : Reclaim) : Reclaim :=
  if r.carried.elim false fun f => decide (f + 1 < frame) then { r with age := countUp Config.reclaimTop r.age } else r

/-- The RECLAIM age of context i after a frame boundary (R170). -/
def ageReclaim (i : Nat) (s : State) : State :=
  s.modCtx i fun c => { c with reclaim := c.reclaim.map (nextReclaim s.frame) }

/-- A RECLAIM is queued when the age has reached 8000, or when the last one was dropped before it was carried
(R170). DEDUCED, log entry 21. -/
def requeueReclaim (i : Nat) (s : State) : State :=
  let c := s.ctx i
  match c.role, c.reclaim with
  | .reclaiming, some r =>
    if (r.carried.isNone || decide (Config.reclaimTop ≤ r.age)) && !s.queued (·.isReclaim (s.slotOf i)) then
      s.send (.reclaim (BitVec.ofNat 7 (s.slotOf i)) s.me)
    else s
  | _, _ => s

/-! ### Hand-over -/

/-- A serving stop at its hand-over frame: a home becomes HANDED, a RETURNING guest GUEST-FREE (R162, R164). An OFFER or
GRANT that the home still has queued is withdrawn. DEDUCED, log entry 10; DESIGN CHOICE, log entry 30. -/
def handOverStop (i : Nat) (s : State) : State :=
  match (s.ctx i).kind with
  | .home =>
    let s := s.withdraw fun e => e.isOffer (s.slotOf i) || e.isGrant (s.slotOf i)
    servingStop i (s.modCtx i fun c =>
      { c with role := .handed, server := c.grantee, offer := none, stopAt := none, grantee := none })
  | .guest => (servingStop i (s.modCtx i fun c => { c with stopAt := none })).freeGuestAt i

/-- A serving start at its hand-over frame: a home serves again, a RESERVED bidder becomes TAKEN, and a context that
serves already has no start (R163, R165). -/
def handOverStart (i : Nat) (s : State) : State :=
  match (s.ctx i).role.serves, (s.ctx i).kind with
  | true, _ => s.modCtx i fun c => { c with startAt := none }
  | false, .home => serveAgain i s
  | false, .guest =>
    let offered := (s.ctx i).reservation.elim 0 (·.profile)
    servingStart i (some offered) (s.modCtx i fun c => { c with role := .taken, reservation := none, startAt := none })

/-- The hand-over frame of context i has come: stop, then start (R21, R162 to R165). DEDUCED, log entry 19. -/
def handOver (i : Nat) (s : State) : State :=
  let due := fun (f : Option Nat) => f.elim false fun f => decide (f ≤ s.frame)
  let s := if due (s.ctx i).stopAt then handOverStop i s else s
  if due (s.ctx i).startAt then handOverStart i s else s

/-! ### Orphans and adoption -/

/-- A mark of the last frame asserted by another party (R138, R152). -/
def State.otherMark (s : State) (slot : Nat) : Bool :=
  s.lane.markRecord.getLsbD slot && !s.lane.ownRecord.getLsbD slot

/-- The absence count of a slot after a frame (R167). -/
def countAbsence (record : BitVec 128) (slot count : Nat) : Nat :=
  if record.getLsbD slot then 0 else countUp Config.orphanAt count

/-- The absence count of a slot after the frame just ended; a home slot is not counted (R167). -/
def nextAbsence (s : State) (slot : Nat) : Nat :=
  if s.isHome slot then 0 else countAbsence s.lane.markRecord slot (s.share.absence.getD slot 0)

/-- The absence counts after the frame just ended (R167). -/
def updateAbsence (s : State) : State :=
  { s with share := { s.share with absence := (List.range Config.slots).map (nextAbsence s) } }

def State.setAbsence (s : State) (slot count : Nat) : State :=
  { s with share := { s.share with absence := s.share.absence.set slot count } }

/-- An orphan for which this station queues an ADOPT (R167). -/
def orphanDue (s : State) (slot : Nat) : Bool :=
  s.profile.station == .run && !s.isHome slot && s.share.absence.getD slot 0 == Config.orphanAt
    && (s.lookup slot).isNone && !s.queued (·.isAdopt slot) && !s.share.adopting.any (·.1 == slot)
    && s.freeGuest?.isSome

/-- Queueing the ADOPT of an orphan (R167). -/
def queueAdopt (slot : Nat) (s : State) : State :=
  if orphanDue s slot then s.send (.adopt (BitVec.ofNat 7 slot) (BitVec.ofNat 8 (min 255 s.free)) s.me) else s

/-- The judgement of this station's own ADOPT for a slot (R37, R168). A cannot-serve RETURN that the full queue drops is
lost. DESIGN CHOICE, log entry 39. -/
def judgeAdoption (slot : Nat) (s : State) : State :=
  if s.otherMark slot then s
  else
    match s.freeGuest?, s.lookup slot with
    | some i, none =>
      servingStart i none ((s.setDirectory slot (some i)).setCtx i
        { freeGuest with slot := some slot, role := .actingHome })
    | _, _ => s.send (.returnSlot (BitVec.ofNat 7 slot) 2 s.me)

/-- Own ADOPTs carried by frame a are judged when frame a+1 has ended (R168). -/
def judgeAdopt (slot : Nat) (s : State) : State :=
  if s.share.adopting.any fun a => a.1 == slot && decide (a.2 + 1 < s.frame) then
    judgeAdoption slot { s with share := { s.share with adopting := s.share.adopting.filter (·.1 != slot) } }
  else s

/-- ADOPT entries whose slot another party marks are removed as stale (R152). -/
def expireAdopts (s : State) : State :=
  s.withdraw fun e => match e.msg with | .adopt slot _ _ => s.otherMark slot.toNat | _ => false

/-! ### The frame boundary -/

/-- The mark record of the frame just ended, wired-OR of this station's marks and the others' (R138).
DEDUCED, log entry 15. -/
def takeMarks (others : BitVec 128) (s : State) : State :=
  { s with lane := { s.lane with markRecord := others ||| s.marks, ownRecord := s.marks } }

/-- Every context in turn. -/
def eachContext (act : Nat → State → State) (s : State) : State :=
  (List.range Config.contexts).foldl (fun s i => act i s) s

/-- Every slot in turn. -/
def eachSlot (act : Nat → State → State) (s : State) : State :=
  (List.range Config.slots).foldl (fun s slot => act slot s) s

/-- The boundary's judgements in LISTEN (R169). -/
def boundaryListen (s : State) : State :=
  let s := { s with
    profile := { s.profile with listenFrames := countUp 16 s.profile.listenFrames }
    share := { s.share with listenMarks := s.lane.markRecord, listenMarks' := s.share.listenMarks } }
  if listenEndDue s then endListen s
  else { s with share := { s.share with listenAdopt := 0, listenAdopt' := s.share.listenAdopt } }

/-- The home judgements of CONFIG and RUN (R166, R170). -/
def boundaryHomes (s : State) : State :=
  eachContext requeueReclaim (eachContext ageReclaim (eachContext judgeAbsence s))

/-- The boundary's judgements in CONFIG (R174, R177): the home contexts first, RUN entry after them. DESIGN CHOICE, log
entry 37. -/
def boundaryConfig (s : State) : State :=
  let s := boundaryHomes { s with profile := { s.profile with configFrames := countUp 8000 s.profile.configFrames } }
  if runEntryDue s then enterRun s else ifDue configTimeoutDue enterRun s

/-- The boundary's judgements in RUN (R152, R157, R160, R161, R164, R167, R168): their order, and the ascending order of
contexts or slots within one of them, show in the age of queued entries of one rank, in which entry a nearly full queue
drops, and in the blocks and guest contexts that an ADOPT counts. DESIGN CHOICE, log entry 27. -/
def boundaryRun (s : State) : State :=
  let s := eachSlot expireBid (expireAdopts s)
  let s := eachContext endOfferWindow (eachSlot expireGrant s)
  let s := eachSlot expireOfferMemory (eachContext timeOutBid s)
  let s := boundaryHomes (eachContext queueReturn s)
  eachSlot queueAdopt (eachSlot judgeAdopt (updateAbsence s))

/-- The boundary that ends a lane frame: the marks are taken, the next frame begins, the judgements are made, and the
hand-overs of the next frame take effect (R138). In HUNT there is no frame. DESIGN CHOICE, log entry 7. -/
def endFrame (others : BitVec 128) (s : State) : State :=
  if s.highway.sync = .locked then
    let next := fun (s : State) => { s with frame := s.frame + 1 }
    let s := s.settleRecalled
    match s.profile.station with
    | .held => s
    | .test => countTestFrame (next s)
    | .unsynced => next s
    | .listen => boundaryListen (next (takeMarks others s))
    | .config => eachContext handOver (boundaryConfig (next (takeMarks others s)))
    | .run => eachContext handOver (boundaryRun (next (takeMarks others s)))
  else s

/-! ### The family's commands -/

/-- FRAME_BOUNDARY (R138). -/
def execFrameBoundary (others : BitVec 128) (s : State) : Answer := .next (endFrame others s)

/-- ORPHAN (R167). -/
def execOrphan (slot : BitVec 7) (s : State) : Answer := .next (queueAdopt slot.toNat s)

/-- ADOPT_JUDGEMENT (R168). -/
def execAdoptJudgement (slot : BitVec 7) (s : State) : Answer := .next (inRun (judgeAdopt slot.toNat) s)

/-- OFFER_WINDOW_END (R161). -/
def execOfferWindowEnd (slot : BitVec 7) (s : State) : Answer := .next (inRun (onHeld slot.toNat endOfferWindow) s)

/-- BID_WINDOW_EXPIRY (R152). -/
def execBidWindowExpiry (slot : BitVec 7) (s : State) : Answer := .next (inRun (expireBid slot.toNat) s)

/-- GRANT_STALE (R161). -/
def execGrantStale (slot : BitVec 7) (s : State) : Answer := .next (inRun (expireGrant slot.toNat) s)

/-- BID_TIMEOUT (R160). -/
def execBidTimeout (slot : BitVec 7) (s : State) : Answer := .next (inRun (onHeld slot.toNat timeOutBid) s)

/-- OFFER_MEMORY_EXPIRY (R157). -/
def execOfferMemoryExpiry (slot : BitVec 7) (s : State) : Answer := .next (inRun (expireOfferMemory slot.toNat) s)

/-- HAND_OVER (R21). -/
def execHandOver (slot : BitVec 7) (s : State) : Answer :=
  .next (inService (onHeld slot.toNat handOver) s)

/-- RECLAIM_AGE_EXPIRY (R170). -/
def execReclaimAgeExpiry (slot : BitVec 7) (s : State) : Answer :=
  .next (inService (onHeld slot.toNat requeueReclaim) s)

end Sys2Proof.Machine
end

