-- ==== Sys2Proof/Machine/Reports.lean ====
section
/-! DEFINITION. Report pages and the answer to a QUERY (R58, R71, R95, R114, R127, R136, R155, R156, R179, R180, R183). -/

namespace Sys2Proof.Machine

/-- Station state codes shown (R183); a station in another state answers no QUERY. -/
def StationState.code : StationState → Nat
  | .listen => 1
  | .config => 2
  | .run => 3
  | .held | .test | .unsynced => 0

def Role.code : Role → Nat
  | .homeServing => 0
  | .homeOffering => 1
  | .handed => 2
  | .reclaiming => 3
  | .guestFree => 4
  | .reserved => 5
  | .taken => 6
  | .actingHome => 7
  | .returning => 8

def CallState.code : CallState → Nat
  | .notServing => 0
  | .idle => 1
  | .search => 2
  | .track => 3
  | .bypass => 4
  | .disabled => 5

def BlockState.code : BlockState → Nat
  | .free => 0
  | .assigned => 1
  | .reserved => 2
  | .spare => 3
  | .failed => 4

def AtLimit.code : AtLimit → Nat
  | .clear => 0
  | .lower => 1
  | .upper => 2

/-- A set of segments as 16 positions, segment 15 sent first (R183). -/
def segmentBits (js : List Nat) : Nat := (sortNums js).foldl (fun m j => m + 2 ^ j) 0

/-- A signed value in w bits of two's complement (R183). -/
def signedField (w : Nat) (v : Int) : Field := (w, (v % 2 ^ w).toNat)

/-- IDENTITY (page 0). -/
def pageIdentity (s : State) : List Field :=
  [(12, Config.vendorCode), (12, Config.partCode), (4, Config.revision), (3, s.profile.k), (4, s.profile.n),
   (1, s.profile.clamped.toNat), (7, Config.contexts), (9, Config.tapBlocks)]

/-- STATION, argument 0: the pool (R114). -/
def pagePool (s : State) : List Field :=
  [(3, s.profile.station.code), (9, s.countBlocks .free), (9, s.countBlocks .assigned), (9, s.countBlocks .reserved),
   (4, s.countBlocks .spare), (9, s.countBlocks .failed), (7, s.pool.shortfall.length)]

/-- STATION, argument 1: the lane counts (R153). -/
def pageCounts (s : State) : List Field :=
  [(16, s.lane.discards), (16, s.lane.drops), (16, s.lane.clashes), (16, s.lane.surplus)]

/-- The want field: the search's want, or in RESERVED the reservation's demand (R180). -/
def wantShown (c : Context) : Nat :=
  match c.reservation with
  | some r => r.demand
  | none => c.search.elim 0 (·.want)

/-- CHANNEL A of a context (R95, R136, R180). -/
def pageChannelA (c : Context) : List Field :=
  let best := (c.offer.bind (·.best)).getD (15, 0)
  [(4, c.role.code), (3, c.callState.code), (1, c.frozen.toNat), (1, c.transparent.toNat), (1, c.toneHold.toNat),
   (1, c.pendingReturn.toNat), (3, c.profile), (3, c.serving.elim 0 (·.profile)), (4, c.server.getD 15), (4, best.1),
   (8, best.2), (16, segmentBits (c.search.elim [] fun r => r.bound.map (·.1))),
   (16, segmentBits (c.search.elim [] (·.explored))), (8, c.search.elim 0 (·.pass)), (7, c.search.elim 0 (·.dwell)),
   (5, wantShown c)]

/-- CHANNEL B of a context (R58, R71, R127, R180). -/
def pageChannelB (c : Context) : List Field :=
  match c.serving with
  | some sv =>
    [signedField 7 sv.send.gain, signedField 7 sv.receive.gain, (2, sv.send.limit.code), (2, sv.receive.limit.code),
     (16, reportNumber (sv.power / 256)), (16, reportNumber sv.msSin), (16, reportNumber sv.msErr),
     (16, reportNumber sv.noise)]
  | none => [(7, 0), (7, 0), (2, 0), (2, 0), (16, 0), (16, 0), (16, 0), (16, 0)]

/-- BLOCK (R114, R183). An absent owner slot or segment is shown as 0 after its present bit. DESIGN CHOICE, log
entry 36. -/
def pageBlock (t : TapBlock) : List Field :=
  [(3, t.state.code), (1, t.owner.isSome.toNat), (7, t.owner.elim 0 (·.slot)), (1, t.segment.isSome.toNat),
   (4, t.segment.getD 0), (8, t.corrected)]

/-- A channel page: out of range, not held, or the context's fields (R180). -/
def channelPage (s : State) (argument : Nat) (fields : Context → List Field) : List Field :=
  if 128 ≤ argument then [(2, 3)]
  else
    match s.lookup argument with
    | none => [(2, 1)]
    | some i => (2, 0) :: fields (s.ctx i)

/-- Status and content of a page (R180). -/
def reportFields (s : State) (page argument : Nat) : List Field :=
  match page with
  | 0 => (2, 0) :: pageIdentity s
  | 1 => if argument = 0 then (2, 0) :: pagePool s else if argument = 1 then (2, 0) :: pageCounts s else [(2, 3)]
  | 2 => channelPage s argument pageChannelA
  | 3 => channelPage s argument pageChannelB
  | 4 => if Config.tapBlocks ≤ argument then [(2, 3)] else (2, 0) :: pageBlock (s.tapBlock argument)
  | _ => [(2, 2)]

/-- A QUERY addressed here is answered with one REPORT (R179). -/
def answerQuery (page : BitVec 3) (argument : BitVec 9) (s : State) : State :=
  s.send (.report page argument (BitVec.ofNat 88 (packLeft 88 (reportFields s page.toNat argument.toNat))) s.me)

end Sys2Proof.Machine
end

