-- ==== Sys2Proof/Machine/Messages.lean ====
section
/-! DEFINITION. The lane's cells and what each delivered message does: the judgement of a cell, carried records, the
sharing messages, slot controls, configuration and queries (R31 to R37, R141 to R149, R153, R158 to R171, R176 to
R179). -/

namespace Sys2Proof.Machine

/-! ### Sharing messages -/

def State.setOffer (s : State) (slot : Nat) (m : Option OfferMemory) : State :=
  { s with share := { s.share with offers := s.share.offers.set slot m } }

/-- A delivered OFFER in RUN: the offer memory, and a bid when room allows (R157, R159). -/
def takeOffer (slot demand profile : Nat) (frozen : Bool) (sender : Nat) (s : State) : State :=
  let s := s.setOffer slot (some ⟨sender, demand, profile, frozen, s.frame⟩)
  match s.lookup slot, s.freeGuest? with
  | none, some i =>
    if 1 ≤ demand ∧ demand ≤ 16 ∧ demand ≤ s.free then
      let s := reserve i slot demand profile frozen s
      let margin := min 255 s.free
      let s := s.modCtx i fun c => { c with reservation := c.reservation.map fun r => { r with margin } }
      let q := s.enqueue ⟨.bid (BitVec.ofNat 7 slot) (BitVec.ofNat 8 margin) s.me, s.frame + 1, some s.frame⟩
      if q.2 then q.1 else withdrawBid i q.1
    else s
  | _, _ => s

/-- A delivered BID: the home's best bid, or a beaten bidder's withdrawal (R160, R161). -/
def takeBid (slot margin sender : Nat) (s : State) : State :=
  onHeld slot (fun i s =>
    let c := s.ctx i
    match c.role, c.offer, c.reservation with
    | .homeOffering, some ⟨some o, best⟩, _ =>
      let better := best.elim true fun b => beats margin sender b.2 b.1
      if better then s.modCtx i fun c => { c with offer := some ⟨some o, some (sender, margin)⟩ } else s
    | .reserved, _, some r => if beats margin sender r.margin s.profile.k then withdrawBid i s else s
    | _, _, _ => s) s

/-- A RETURN that answers a GRANT: cause 1 late grant, 2 cannot serve (R163). One that the full queue drops is lost.
DESIGN CHOICE, log entry 39. -/
def refuseGrant (slot : Nat) (cause : BitVec 3) (s : State) : State := s.send (.returnSlot (BitVec.ofNat 7 slot) cause s.me)

/-- A RESERVED context takes the hand-over frame g+2 (R163, case 1). A second GRANT, while the start that an earlier one
set is pending, sets the later frame. DESIGN CHOICE, log entry 35. -/
def acceptGrant (i : Nat) (s : State) : State := s.modCtx i fun c => { c with startAt := some (s.frame + 2) }

/-- A GRANT that names this station (R163). With an offer memory entry of another sender the answer is late grant, as
with none. DEDUCED, log entry 22; DESIGN CHOICE, log entry 28. -/
def takeGrant (slot sender : Nat) (s : State) : State :=
  match s.lookup slot with
  | some i => if (s.ctx i).role = .reserved then acceptGrant i s else refuseGrant slot 2 s
  | none =>
    match s.share.offers.getD slot none with
    | none => refuseGrant slot 1 s
    | some m =>
      if m.sender ≠ sender then refuseGrant slot 1 s
      else
        match s.freeGuest? with
        | none => refuseGrant slot 1 s
        | some i =>
          if m.demand ≤ s.free then acceptGrant i (reserve i slot m.demand m.profile m.frozen s)
          else refuseGrant slot 1 s

/-- A GRANT delivered in RUN: to the taker it names, or to another bidder, which withdraws (R160, R163). -/
def deliverGrant (slot taker sender : Nat) (s : State) : State :=
  if taker = s.profile.k then takeGrant slot sender s else onHeld slot withdrawBid s

/-- A RETURN for a home slot in CONFIG or RUN (R162, R165). A second one, while the start that an earlier one set is
pending, sets the later hand-over frame. DESIGN CHOICE, log entry 29. On a HOME-SERVING home, whose stop from a GRANT
carried while its offer was cancelled may be pending, it has no effect, in the GRANT's own frame too. DESIGN CHOICE, log
entry 40. -/
def takeReturn (slot sender : Nat) (s : State) : State :=
  onHeld slot (fun i s =>
    let c := s.ctx i
    let resume := fun (s : State) => s.modCtx i fun c => { c with startAt := some (s.frame + 2) }
    match c.kind, c.role with
    | .home, .handed => if c.server = some sender then resume s else s
    | .home, .reclaiming => resume s
    | .home, .homeOffering =>
      if c.grantee = some sender then
        if c.stopAt = some (s.frame + 2) then
          s.modCtx i fun c => { c with role := .homeServing, offer := none, stopAt := none, grantee := none }
        else if c.stopAt.isSome then resume s else s
      else s
    | _, _ => s) s

/-- A RETURN with cause cannot serve sets the slot's absence count to 8 in RUN (R167). -/
def orphanAgain (slot : Nat) (cause : BitVec 3) (s : State) : State :=
  if s.profile.station = .run ∧ cause = 2 ∧ !s.isHome slot then s.setAbsence slot Config.orphanAt else s

/-- A delivered RETURN (R165, R167). -/
def deliverReturn (slot : Nat) (cause : BitVec 3) (sender : Nat) (s : State) : State :=
  takeReturn slot sender (orphanAgain slot cause s)

/-- A delivered ADOPT: in LISTEN it enters the LISTEN record for a home slot; else it withdraws this station's queued
ADOPT and clears the slot's absence count (R167 to R169). -/
def deliverAdopt (slot : Nat) (s : State) : State :=
  if s.profile.station = .listen then
    if s.isHome slot then
      { s with share := { s.share with listenAdopt := s.share.listenAdopt ||| BitVec.ofNat 128 (2 ^ slot) } }
    else s
  else (s.withdraw (·.isAdopt slot)).setAbsence slot 0

/-- A RECLAIM from the slot's home in RUN (R170). -/
def takeReclaim (slot sender : Nat) (s : State) : State :=
  if slot % s.profile.n = sender then
    onHeld slot (fun i s =>
      let c := s.ctx i
      if (c.role = .taken ∨ c.role = .actingHome) ∧ !s.queued (·.isReturn slot) then
        let s := s.modCtx i fun c => { c with pendingReturn := true }
        if c.callState = .idle then sendReturn i s else s
      else s) s
  else s

/-! ### Slot controls -/

/-- TRANSPARENT ON (R33). -/
def transparentOn (i : Nat) (s : State) : State :=
  let s := s.modCtx i fun c => { c with transparent := true }
  if s.serves i ∧ (s.ctx i).callState ≠ .bypass then enterPassing i .bypass s else s

/-- TRANSPARENT OFF (R34). -/
def transparentOff (i : Nat) (s : State) : State :=
  rejudgeIfRun i (s.modCtx i fun c => { c with transparent := false })
where
  /-- In RUN a serving context in BYPASS is judged as at RUN entry. -/
  rejudgeIfRun (i : Nat) (s : State) : State := if s.profile.station = .run then rejudge s i else s

/-- RESTART (R36, R90). -/
def restartSearch (i : Nat) (s : State) : State :=
  if s.serves i ∧ (s.ctx i).callState.processes then searchAgain i (releaseHeld i s) else s

/-- SETTLE (R36, R89). -/
def settleSlot (i : Nat) (s : State) : State :=
  if s.serves i ∧ (s.ctx i).callState = .search then settleSearch i s else s

/-- The slot control of an action code on a context (R31 to R36); code 7 has no effect. -/
def controlAction (action profile : BitVec 3) (i : Nat) (s : State) : State :=
  match action.toNat with
  | 0 => s.modCtx i fun c => { c with profile := profile.toNat }
  | 1 => transparentOn i s
  | 2 => transparentOff i s
  | 3 => s.modCtx i fun c => { c with frozen := true }
  | 4 => s.modCtx i fun c => { c with frozen := false }
  | 5 => settleSlot i s
  | 6 => restartSearch i s
  | _ => s

/-! ### Configuration -/

/-- The profile a PROFILE message stores: its fields clamped (R176). -/
def storedProfile (budget reach : BitVec 5) (step : BitVec 3) (switches sendT recvT : BitVec 5) (sendG recvG : BitVec 7) :
    Profile :=
  { budget := min 16 budget.toNat, reach := clampNat 1 16 reach.toNat, step := clampNat 1 6 step.toNat,
    nlp := switches.getMsbD 0, comfortNoise := switches.getMsbD 1, sendAlc := switches.getMsbD 2,
    receiveAlc := switches.getMsbD 3, tone := switches.getMsbD 4,
    sendTarget := -(clampNat 6 24 sendT.toNat : Int), receiveTarget := -(clampNat 6 24 recvT.toNat : Int),
    sendG := clampInt Config.gainLow Config.gainHigh sendG.toInt,
    receiveG := clampInt Config.gainLow Config.gainHigh recvG.toInt }

/-- A message addressed to this station or to every station (R144). -/
def addressed (s : State) (target : BitVec 4) : Bool := target.toNat == s.profile.k || target == 15

/-- CONFIG REFUSED: the refused kind, and the profile index (R178). -/
def refuseConfig (kind index : Nat) (s : State) : State := s.notify 9 [(4, kind), (3, index)]

/-- A PROFILE message addressed here (R176, R178). -/
def takeProfile (index : Nat) (p : Profile) (s : State) : State :=
  match s.profile.station with
  | .config => { s with profile := { s.profile with profiles := s.profile.profiles.set index p } }
  | .run => refuseConfig 7 index s
  | .held | .test | .listen | .unsynced => s

/-- The idle code table of a RUN message: the first k codes, k from 1 to 4 (R11, R177). -/
def storedCodes (count : BitVec 3) (codes : List Byte) : List Byte := codes.take (clampNat 1 4 count.toNat)

/-- A RUN message addressed here (R177, R178). -/
def takeRun (mask : BitVec 12) (idle : Nat) (codes : List Byte) (s : State) : State :=
  match s.profile.station with
  | .config =>
    { s with profile := { s.profile with noticeMask := mask, runAccepted := some s.frame }
             highway := { s.highway with idleCodes := codes, idleCount := clampNat 64 4095 idle } }
  | .run => refuseConfig 6 0 s
  | .held | .test | .listen | .unsynced => s

/-! ### Delivery -/

/-- Delivery by kind (R149). -/
def deliver (m : Msg) (s : State) : State :=
  match m with
  | .offer slot demand profile frozen k =>
    inRun (takeOffer slot.toNat demand.toNat profile.toNat (frozen == 1) k.toNat) s
  | .bid slot margin k => inRun (takeBid slot.toNat margin.toNat k.toNat) s
  | .grant slot taker k => inRun (deliverGrant slot.toNat taker.toNat k.toNat) s
  | .returnSlot slot cause k => inService (deliverReturn slot.toNat cause k.toNat) s
  | .adopt slot _ _ => deliverAdopt slot.toNat s
  | .reclaim slot k => inRun (takeReclaim slot.toNat k.toNat) s
  | .slotControl slot action profile k =>
    if k = 15 then onHeld slot.toNat (controlAction action profile) s else s
  | .profile target index budget reach step switches st rt sg rg _ =>
    if addressed s target then takeProfile index.toNat (storedProfile budget reach step switches st rt sg rg) s else s
  | .run target mask idle count c1 c2 c3 c4 _ =>
    if addressed s target then takeRun mask idle.toNat (storedCodes count [c1, c2, c3, c4]) s else s
  | .query target page argument _ => if addressed s target then answerQuery page argument s else s
  | .report .. | .notice .. => s

/-- A cell bearing this station's number that it did not win (R147). DESIGN CHOICE, log entry 24. -/
def stationClash (m : Msg) (s : State) : State :=
  { s with lane := { s.lane with clashes := countUp 65535 s.lane.clashes } }.notify 10
    [(4, m.kind), (2, match s.lane.lastCell with | .a => 1 | .b => 2 | .c => 3)]

def discard (s : State) : State := { s with lane := { s.lane with discards := countUp 65535 s.lane.discards } }

/-- Tests 4 to 7 of R145 on a message read in a cell this station did not win. -/
def judgeMessage (m : Msg) (surplus : Bool) (s : State) : State :=
  if !senderFits m then discard s
  else if m.sender = s.profile.k then stationClash m s
  else
    deliver m (if surplus then { s with lane := { s.lane with surplus := countUp 65535 s.lane.surplus } } else s)

/-- A message read in a cell with a sound check, by a station that judges cells (R145). DEDUCED, log entry 16. -/
def receive (m : Msg) (s : State) : State := if s.profile.station.receives then judgeMessage m false s else s

/-- The tests of R145 on the 128 bits of a cell this station did not win. -/
def judgeCell (line : BitVec 128) (s : State) : State :=
  if line = 0 then s
  else if !checkPasses line then discard s
  else
    match parseCell line with
    | none => discard s
    | some m => judgeMessage m (hasSurplus line m) s

/-! ### Cells -/

/-- The entry is eligible for a cell of the frame under way (R150). -/
def eligible (s : State) (e : Entry) : Bool :=
  decide (e.eligible ≤ s.frame) &&
    match e.msg, e.offerFrame with
    | .bid .., some o => decide (s.frame ≤ o + 4)
    | _, _ => true

/-- A queued OFFER takes its profile and frozen flag from its context at the start of the cell (R158). -/
def refreshOffer (s : State) (e : Entry) : Entry :=
  match e.msg with
  | .offer slot demand _ _ k =>
    match s.lookup slot.toNat with
    | some i => { e with msg := .offer slot demand (BitVec.ofNat 3 (s.ctx i).profile) (BitVec.ofBool (s.ctx i).frozen) k }
    | none => e
  | _ => e

/-- The start of a cell: the first eligible entry is sent bit by bit until a bit reads differently (R141).
DEDUCED, log entry 16. -/
def startCell (name : CellName) (line : BitVec 128) (s : State) : State :=
  if s.profile.station.receives then
    let s := s.settleRecalled
    let s := { s with lane := { s.lane with queue := s.lane.queue.map (refreshOffer s) } }
    let sending := if s.profile.station.serves then s.lane.queue.find? (eligible s) else none
    let cell : Cell :=
      match sending with
      | some e =>
        let sent := cellOf e.msg
        let lostAt := firstDifference sent line 128 0
        { name, sending, asserted := lostAt.elim sent (assertedUpTo sent), lostAt, line }
      | none => { name, sending, asserted := 0, lostAt := none, line }
    { s with lane := { s.lane with cell := some cell, lastCell := name } }
  else s

/-- The carried record of a won message, handed to the block that queued it (R142, R158, R159, R162, R164, R168,
R170). DEDUCED, log entry 10. -/
def carried (m : Msg) (s : State) : State :=
  match m with
  | .offer slot .. => onHeld slot.toNat (fun i s => s.modCtx i fun c =>
      { c with offer := c.offer.map fun o => { o with frame := some s.frame } }) s
  | .bid slot .. => onHeld slot.toNat (fun i s => s.modCtx i fun c =>
      { c with reservation := c.reservation.map fun r => { r with bidFrame := some s.frame } }) s
  | .grant slot taker _ => onHeld slot.toNat (fun i s =>
      if (s.ctx i).kind = .home ∧ s.serves i then
        s.modCtx i fun c => { c with stopAt := some (s.frame + 2), grantee := some taker.toNat }
      else s) s
  | .returnSlot slot cause _ => onHeld slot.toNat (fun i s =>
      if ((s.ctx i).role = .taken ∨ (s.ctx i).role = .actingHome) ∧ (cause = 0 ∨ cause = 3) then
        s.modCtx i fun c => { c with role := .returning, pendingReturn := false, stopAt := some (s.frame + 2) }
      else s) s
  | .adopt slot .. => { s with share := { s.share with adopting := s.share.adopting ++ [(slot.toNat, s.frame)] } }
  | .reclaim slot _ => onHeld slot.toNat (fun i s => s.modCtx i fun c =>
      { c with reclaim := c.reclaim.map fun r => { r with age := 0, carried := some s.frame } }) s
  | .report .. | .notice .. | .query .. | .run .. | .profile .. | .slotControl .. => s

/-- The record of a won entry: none for an OFFER withdrawn during its cell, whose offer has gone (R161); a GRANT or
RETURN withdrawn during its cell counts as carried. DEDUCED, log entry 10. -/
def carriedEntry (e : Entry) (recalled : Bool) (s : State) : State :=
  match e.msg with
  | .offer .. => if recalled then s else carried e.msg s
  | _ => carried e.msg s

/-- The end of a cell: the entries withdrawn during it leave the queue; a won one leaves it too and hands on its carried
record; a cell not won is judged (R142, R145, R152). DEDUCED, log entry 31. -/
def endCell (s : State) : State :=
  match s.lane.cell with
  | none => s
  | some cell =>
    let gone := s.lane.recalled
    let s := { s.settleRecalled with lane := { s.settleRecalled.lane with cell := none } }
    match cell.sending, cell.lostAt with
    | some e, none =>
      carriedEntry e (gone.contains e)
        (if gone.contains e then s else { s with lane := { s.lane with queue := s.lane.queue.erase e } })
    | _, _ => judgeCell cell.line s

/-! ### The family's commands -/

/-- CELL_START (R141). -/
def execCellStart (cell : CellName) (line : BitVec 128) (s : State) : Answer := .next (startCell cell line s)

/-- CELL_END (R145). -/
def execCellEnd (s : State) : Answer := .next (unlessHeld endCell s)

/-- OFFER (R159). -/
def execOffer (slot : BitVec 7) (demand : BitVec 5) (profile : BitVec 3) (frozen : BitVec 1) (k : BitVec 4) (s : State) :
    Answer := .next (receive (.offer slot demand profile frozen k) s)

/-- BID (R161). -/
def execBid (slot : BitVec 7) (margin : BitVec 8) (k : BitVec 4) (s : State) : Answer :=
  .next (receive (.bid slot margin k) s)

/-- GRANT (R163). -/
def execGrant (slot : BitVec 7) (taker k : BitVec 4) (s : State) : Answer := .next (receive (.grant slot taker k) s)

/-- RETURN (R165). -/
def execReturn (slot : BitVec 7) (cause : BitVec 3) (k : BitVec 4) (s : State) : Answer :=
  .next (receive (.returnSlot slot cause k) s)

/-- ADOPT (R168). -/
def execAdopt (slot : BitVec 7) (margin : BitVec 8) (k : BitVec 4) (s : State) : Answer :=
  .next (receive (.adopt slot margin k) s)

/-- RECLAIM (R170). -/
def execReclaim (slot : BitVec 7) (k : BitVec 4) (s : State) : Answer := .next (receive (.reclaim slot k) s)

/-- PROFILE_ACTION (R32): action code 0. -/
def execProfileAction (slot : BitVec 7) (profile : BitVec 3) (k : BitVec 4) (s : State) : Answer :=
  .next (receive (.slotControl slot 0 profile k) s)

/-- TRANSPARENT_ON (R33): action code 1. -/
def execTransparentOn (slot : BitVec 7) (k : BitVec 4) (s : State) : Answer := .next (receive (.slotControl slot 1 0 k) s)

/-- TRANSPARENT_OFF (R34): action code 2. -/
def execTransparentOff (slot : BitVec 7) (k : BitVec 4) (s : State) : Answer := .next (receive (.slotControl slot 2 0 k) s)

/-- FREEZE (R35): action code 3. -/
def execFreeze (slot : BitVec 7) (k : BitVec 4) (s : State) : Answer := .next (receive (.slotControl slot 3 0 k) s)

/-- RESUME (R35): action code 4. -/
def execResume (slot : BitVec 7) (k : BitVec 4) (s : State) : Answer := .next (receive (.slotControl slot 4 0 k) s)

/-- SETTLE (R89): action code 5. -/
def execSettle (slot : BitVec 7) (k : BitVec 4) (s : State) : Answer := .next (receive (.slotControl slot 5 0 k) s)

/-- RESTART (R36): action code 6. -/
def execRestart (slot : BitVec 7) (k : BitVec 4) (s : State) : Answer := .next (receive (.slotControl slot 6 0 k) s)

/-- NO_ACTION (R31): action code 7. -/
def execNoAction (slot : BitVec 7) (k : BitVec 4) (s : State) : Answer := .next (receive (.slotControl slot 7 0 k) s)

/-- PROFILE_MESSAGE (R176). -/
def execProfileMessage (target : BitVec 4) (index : BitVec 3) (budget reach : BitVec 5) (step : BitVec 3)
    (switches st rt : BitVec 5) (sg rg : BitVec 7) (k : BitVec 4) (s : State) : Answer :=
  .next (receive (.profile target index budget reach step switches st rt sg rg k) s)

/-- RUN_MESSAGE (R177). -/
def execRunMessage (target : BitVec 4) (mask idle : BitVec 12) (count : BitVec 3) (c1 c2 c3 c4 : BitVec 8) (k : BitVec 4)
    (s : State) : Answer := .next (receive (.run target mask idle count c1 c2 c3 c4 k) s)

/-- QUERY_IDENTITY (R180): page 0. -/
def execQueryIdentity (target : BitVec 4) (argument : BitVec 9) (k : BitVec 4) (s : State) : Answer :=
  .next (receive (.query target 0 argument k) s)

/-- QUERY_STATION (R180): page 1. -/
def execQueryStation (target : BitVec 4) (argument : BitVec 9) (k : BitVec 4) (s : State) : Answer :=
  .next (receive (.query target 1 argument k) s)

/-- QUERY_CHANNEL_A (R180): page 2. -/
def execQueryChannelA (target : BitVec 4) (argument : BitVec 9) (k : BitVec 4) (s : State) : Answer :=
  .next (receive (.query target 2 argument k) s)

/-- QUERY_CHANNEL_B (R180): page 3. -/
def execQueryChannelB (target : BitVec 4) (argument : BitVec 9) (k : BitVec 4) (s : State) : Answer :=
  .next (receive (.query target 3 argument k) s)

/-- QUERY_BLOCK (R180): page 4. -/
def execQueryBlock (target : BitVec 4) (argument : BitVec 9) (k : BitVec 4) (s : State) : Answer :=
  .next (receive (.query target 4 argument k) s)

/-- QUERY_UNKNOWN_PAGE (R180): page 5, 6 or 7. A page 0..4 in its operand is no such query, and nothing is done. -/
def execQueryUnknownPage (target : BitVec 4) (page : BitVec 3) (argument : BitVec 9) (k : BitVec 4) (s : State) : Answer :=
  .next (if 5 ≤ page.toNat then receive (.query target page argument k) s else s)

/-- REPORT (R149). -/
def execReport (page : BitVec 3) (argument : BitVec 9) (body : BitVec 88) (k : BitVec 4) (s : State) : Answer :=
  .next (receive (.report page argument body k) s)

/-- NOTICE (R149). -/
def execNotice (kind : BitVec 4) (argument : BitVec 16) (k : BitVec 4) (s : State) : Answer :=
  .next (receive (.notice kind argument k) s)

end Sys2Proof.Machine
end

