-- ==== Sys2Proof/Machine/Dispatch.lean ====
section
/-! DEFINITION. One command's effect on everything but the queue: one arm per row of the opcode table, in its order. -/

namespace Sys2Proof.Machine

def exec (i : Instr) (s : State) : Host.Outcome State Fault Refusal :=
  match i with
  | .resetAssertion => Sys2Proof.Machine.execResetAssertion s
  | .resetRelease station population faulty => Sys2Proof.Machine.execResetRelease station population faulty s
  | .testEnd => Sys2Proof.Machine.execTestEnd s
  | .frameSyncPulse clock => Sys2Proof.Machine.execFrameSyncPulse clock s
  | .syncLock => Sys2Proof.Machine.execSyncLock s
  | .syncRegain => Sys2Proof.Machine.execSyncRegain s
  | .expectedPositionCheck pulse => Sys2Proof.Machine.execExpectedPositionCheck pulse s
  | .syncLoss => Sys2Proof.Machine.execSyncLoss s
  | .huntPeriod => Sys2Proof.Machine.execHuntPeriod s
  | .sample slot rin sin reads => Sys2Proof.Machine.execSample slot rin sin reads s
  | .callEnd slot => Sys2Proof.Machine.execCallEnd slot s
  | .retirement block => Sys2Proof.Machine.execRetirement block s
  | .dtHangoverEnd slot => Sys2Proof.Machine.execDtHangoverEnd slot s
  | .nlpHangoverExpiry slot => Sys2Proof.Machine.execNlpHangoverExpiry slot s
  | .blockEnd slot => Sys2Proof.Machine.execBlockEnd slot s
  | .pathChange slot => Sys2Proof.Machine.execPathChange slot s
  | .evaluation slot => Sys2Proof.Machine.execEvaluation slot s
  | .toneHold slot => Sys2Proof.Machine.execToneHold slot s
  | .toneHoldRelease slot => Sys2Proof.Machine.execToneHoldRelease slot s
  | .disabledRelease slot => Sys2Proof.Machine.execDisabledRelease slot s
  | .frameBoundary others => Sys2Proof.Machine.execFrameBoundary others s
  | .orphan slot => Sys2Proof.Machine.execOrphan slot s
  | .adoptJudgement slot => Sys2Proof.Machine.execAdoptJudgement slot s
  | .offerWindowEnd slot => Sys2Proof.Machine.execOfferWindowEnd slot s
  | .bidWindowExpiry slot => Sys2Proof.Machine.execBidWindowExpiry slot s
  | .grantStale slot => Sys2Proof.Machine.execGrantStale slot s
  | .bidTimeout slot => Sys2Proof.Machine.execBidTimeout slot s
  | .offerMemoryExpiry slot => Sys2Proof.Machine.execOfferMemoryExpiry slot s
  | .handOver slot => Sys2Proof.Machine.execHandOver slot s
  | .reclaimAgeExpiry slot => Sys2Proof.Machine.execReclaimAgeExpiry slot s
  | .listenEnd => Sys2Proof.Machine.execListenEnd s
  | .configTimeout => Sys2Proof.Machine.execConfigTimeout s
  | .runEntry => Sys2Proof.Machine.execRunEntry s
  | .cellStart cell line => Sys2Proof.Machine.execCellStart cell line s
  | .cellEnd => Sys2Proof.Machine.execCellEnd s
  | .offer slot demand profile frozen sender => Sys2Proof.Machine.execOffer slot demand profile frozen sender s
  | .bid slot margin sender => Sys2Proof.Machine.execBid slot margin sender s
  | .grant slot taker sender => Sys2Proof.Machine.execGrant slot taker sender s
  | .returnSlot slot cause sender => Sys2Proof.Machine.execReturn slot cause sender s
  | .adopt slot margin sender => Sys2Proof.Machine.execAdopt slot margin sender s
  | .reclaim slot sender => Sys2Proof.Machine.execReclaim slot sender s
  | .profileAction slot profile sender => Sys2Proof.Machine.execProfileAction slot profile sender s
  | .transparentOn slot sender => Sys2Proof.Machine.execTransparentOn slot sender s
  | .transparentOff slot sender => Sys2Proof.Machine.execTransparentOff slot sender s
  | .freeze slot sender => Sys2Proof.Machine.execFreeze slot sender s
  | .resume slot sender => Sys2Proof.Machine.execResume slot sender s
  | .settle slot sender => Sys2Proof.Machine.execSettle slot sender s
  | .restart slot sender => Sys2Proof.Machine.execRestart slot sender s
  | .noAction slot sender => Sys2Proof.Machine.execNoAction slot sender s
  | .profileMessage target index budget reach step switches sendTarget receiveTarget sendG receiveG sender => Sys2Proof.Machine.execProfileMessage target index budget reach step switches sendTarget receiveTarget sendG receiveG sender s
  | .runMessage target mask idleCount codeCount code1 code2 code3 code4 sender => Sys2Proof.Machine.execRunMessage target mask idleCount codeCount code1 code2 code3 code4 sender s
  | .queryIdentity target argument sender => Sys2Proof.Machine.execQueryIdentity target argument sender s
  | .queryStation target argument sender => Sys2Proof.Machine.execQueryStation target argument sender s
  | .queryChannelA target argument sender => Sys2Proof.Machine.execQueryChannelA target argument sender s
  | .queryChannelB target argument sender => Sys2Proof.Machine.execQueryChannelB target argument sender s
  | .queryBlock target argument sender => Sys2Proof.Machine.execQueryBlock target argument sender s
  | .queryUnknownPage target page argument sender => Sys2Proof.Machine.execQueryUnknownPage target page argument sender s
  | .report page argument body sender => Sys2Proof.Machine.execReport page argument body sender s
  | .notice kind argument sender => Sys2Proof.Machine.execNotice kind argument sender s

end Sys2Proof.Machine
end

