-- ==== Sys2Proof/Safety.lean ====
section
/-! DEFINITION. The terms in which statements about the station are made: what an act leaves alone, the ranges the
manual gives its state, and the situations a command's rule speaks of. -/

namespace Sys2Proof

/-- The lane message a message command stands for (R143). -/
def Instr.message? : Instr → Option Msg
  | .offer slot demand profile frozen k => some (.offer slot demand profile frozen k)
  | .bid slot margin k => some (.bid slot margin k)
  | .grant slot taker k => some (.grant slot taker k)
  | .returnSlot slot cause k => some (.returnSlot slot cause k)
  | .adopt slot margin k => some (.adopt slot margin k)
  | .reclaim slot k => some (.reclaim slot k)
  | .profileAction slot profile k => some (.slotControl slot 0 profile k)
  | .transparentOn slot k => some (.slotControl slot 1 0 k)
  | .transparentOff slot k => some (.slotControl slot 2 0 k)
  | .freeze slot k => some (.slotControl slot 3 0 k)
  | .resume slot k => some (.slotControl slot 4 0 k)
  | .settle slot k => some (.slotControl slot 5 0 k)
  | .restart slot k => some (.slotControl slot 6 0 k)
  | .noAction slot k => some (.slotControl slot 7 0 k)
  | .profileMessage target index budget reach step switches st rt sg rg k =>
    some (.profile target index budget reach step switches st rt sg rg k)
  | .runMessage target mask idle count c1 c2 c3 c4 k => some (.run target mask idle count c1 c2 c3 c4 k)
  | .queryIdentity target argument k => some (.query target 0 argument k)
  | .queryStation target argument k => some (.query target 1 argument k)
  | .queryChannelA target argument k => some (.query target 2 argument k)
  | .queryChannelB target argument k => some (.query target 3 argument k)
  | .queryBlock target argument k => some (.query target 4 argument k)
  | .queryUnknownPage target page argument k => if 5 ≤ page.toNat then some (.query target page argument k) else none
  | .report page argument body k => some (.report page argument body k)
  | .notice kind argument k => some (.notice kind argument k)
  | .resetAssertion | .resetRelease .. | .testEnd | .frameSyncPulse .. | .syncLock | .syncRegain
  | .expectedPositionCheck .. | .syncLoss | .huntPeriod | .sample .. | .callEnd .. | .retirement .. | .dtHangoverEnd ..
  | .nlpHangoverExpiry .. | .blockEnd .. | .pathChange .. | .evaluation .. | .toneHold .. | .toneHoldRelease ..
  | .disabledRelease .. | .frameBoundary .. | .orphan .. | .adoptJudgement .. | .offerWindowEnd ..
  | .bidWindowExpiry .. | .grantStale .. | .bidTimeout .. | .offerMemoryExpiry .. | .handOver .. | .reclaimAgeExpiry ..
  | .listenEnd | .configTimeout | .runEntry | .cellStart .. | .cellEnd => none

end Sys2Proof

namespace Sys2Proof.Machine

/-! ### What an act leaves alone -/

/-- The station with its contexts, tap blocks, free FIFO, shortfall queue, send queue and drop count erased, and the
number of its contexts and of its blocks: what the calls and the tap pool never change. -/
def State.outside (s : State) : State × Nat × Nat :=
  ({ s with table := { s.table with contexts := [] }
            pool := { s.pool with blocks := [], fifo := [], shortfall := [] }
            lane := { s.lane with queue := [], recalled := [], drops := 0 } },
   s.table.contexts.length, s.pool.blocks.length)

/-- What the acts of other contexts and of the tap pool keep of a context: all but its search record, its call state,
its path-change run count and whether it has an open offer. -/
def Context.steady (c : Context) : Context :=
  { c with role := if c.role = .homeOffering then .homeServing else c.role
           offer := none, callState := .notServing, search := none
           serving := c.serving.map fun sv => { sv with pathRun := 0 } }

/-! ### Ranges -/

/-- The record counts of the station (R17, R96, R175; one entry per slot for the rest). -/
def State.sized (s : State) : Prop :=
  s.table.contexts.length = 64 ∧ s.table.directory.length = 128 ∧ s.pool.blocks.length = 264
    ∧ s.highway.pipeline.length = 128 ∧ s.profile.profiles.length = 8 ∧ s.share.offers.length = 128
    ∧ s.share.absence.length = 128

/-- A property of every set of serving parts. -/
def State.eachServing (p : Serving → Prop) (s : State) : Prop :=
  ∀ c ∈ s.table.contexts, ∀ sv, c.serving = some sv → p sv

/-- The double-talk hangover is at most 240 and the DT flag stands exactly while it is above 0 (R59). -/
def Serving.dtSound (sv : Serving) : Prop := sv.hangover ≤ 240 ∧ (sv.dtFlag = true ↔ 0 < sv.hangover)

/-- The noise estimate lies in 1..16384 (R70). -/
def Serving.noiseSound (sv : Serving) : Prop := 1 ≤ sv.noise ∧ sv.noise ≤ 16384

/-- A gain index lies in −36..+24 (R115). -/
def gainSound (g : Int) : Prop := -36 ≤ g ∧ g ≤ 24

/-- Both gain indices of serving parts lie in −36..+24 (R115). -/
def Serving.gainsSound (sv : Serving) : Prop := gainSound sv.send.gain ∧ gainSound sv.receive.gain

/-- The fields of a profile lie in the ranges in use (R175). -/
def Profile.sound (p : Profile) : Prop :=
  p.budget ≤ 16 ∧ 1 ≤ p.reach ∧ p.reach ≤ 16 ∧ 1 ≤ p.step ∧ p.step ≤ 6 ∧ -24 ≤ p.sendTarget ∧ p.sendTarget ≤ -6
    ∧ -24 ≤ p.receiveTarget ∧ p.receiveTarget ≤ -6 ∧ gainSound p.sendG ∧ gainSound p.receiveG

/-- Every profile lies in its ranges, and so do the gain indices of every context. -/
def State.gainsSound (s : State) : Prop := (∀ p ∈ s.profile.profiles, p.sound) ∧ s.eachServing Serving.gainsSound

/-- The counts of the lane and of frame sync lie in their ranges, and the absence counts in 0..8 (R14 to R16, R153,
R157, R174). -/
def State.countsSound (s : State) : Prop :=
  s.lane.discards ≤ 65535 ∧ s.lane.drops ≤ 65535 ∧ s.lane.clashes ≤ 65535 ∧ s.lane.surplus ≤ 65535
    ∧ s.highway.spacing ≤ 8 ∧ s.highway.miss ≤ 2 ∧ s.highway.framesLost ≤ 65535 ∧ s.profile.configFrames ≤ 8000
    ∧ ∀ n ∈ s.share.absence, n ≤ 8

/-! ### The send queue -/

/-- A send queue in rank order, the higher kind code first (R150). -/
def rankOrdered (q : List Entry) : Prop := q.Pairwise fun a b => b.msg.kind ≤ a.msg.kind

/-- `q'` is the rank-ordered queue `q` with `e` in its place: after every entry of its rank or above, before every entry
of lower rank (R150). -/
def Entry.standsIn (e : Entry) (q q' : List Entry) : Prop :=
  q' = q.filter (fun x => decide (e.msg.kind ≤ x.msg.kind)) ++ e :: q.filter fun x => decide (x.msg.kind < e.msg.kind)

/-- `q'` is the queue after `e` was to join `q`, and `dropped` the messages dropped (R150, R151). To a full queue a message
of rank 9 or above makes the newest NOTICE, or with none the newest REPORT, give way; else the joiner is dropped. -/
def Entry.joins (e : Entry) (q q' : List Entry) (dropped : Nat) : Prop :=
  (q.length < 16 → dropped = 0 ∧ e.standsIn q q')
    ∧ (q.length = 16 → dropped = 1
      ∧ (∀ rank older newest younger, 9 ≤ e.msg.kind → rank = 3 ∨ (rank = 4 ∧ ∀ x ∈ q, x.msg.kind ≠ 3) →
          q = older ++ newest :: younger → newest.msg.kind = rank → (∀ x ∈ younger, x.msg.kind ≠ rank) →
          e.standsIn (older ++ younger) q')
      ∧ (e.msg.kind < 9 ∨ (∀ x ∈ q, x.msg.kind ≠ 3 ∧ x.msg.kind ≠ 4) → q' = q))

/-! ### Situations -/

/-- Context i holds the slot and serves it with the parts `sv` in a station in CONFIG or RUN (R18, R21). -/
abbrev State.servesWith (s : State) (slot i : Nat) (sv : Serving) : Prop :=
  s.profile.station.serves = true ∧ s.lookup slot = some i ∧ (s.ctx i).role.serves = true
    ∧ (s.ctx i).serving = some sv

/-- A message with sender `k` that fits a station kind reaches another station in RUN (R145 to R147). -/
abbrev State.hearsStation (s : State) (k : BitVec 4) : Prop :=
  s.profile.station = .run ∧ k.toNat < 8 ∧ k.toNat ≠ s.profile.k

/-- A message of the supervisory card reaches a station that judges cells; its own number is no 15 (R145 to R147). -/
abbrev State.hearsCard (s : State) (k : BitVec 4) : Prop :=
  s.profile.station.receives = true ∧ k = 15 ∧ s.profile.k < 8

/-- The reference sample that a RIN code gives under a receive gain index: the expansion of the ROUT code (R10, R116). -/
def referenceOf (gain : Int) (rin : Byte) : Int :=
  expand (compress (saturate 4095 (roundDiv (expand rin * linearGain gain) 4096)))

/-- A sample in SEARCH or TRACK that brings no call end and meets no wrong bit of tap memory that stood before it
(R45). -/
abbrev State.soundSample (s : State) (slot i : Nat) (sv : Serving) (rin sin : Byte) : Prop :=
  s.servesWith slot i sv ∧ s.highway.sync = .locked ∧ (s.ctx i).callState.processes = true ∧ sv.callPresent = true
    ∧ (silent s.highway.idleCodes rin sin = true → sv.idleRun + 1 < s.highway.idleCount)
    ∧ ∀ jb ∈ s.boundOf i, (s.tapBlock jb.2).wrong = []

/-- Such a sample that ends no block: the situation of the per-sample rules (R45). -/
abbrev State.plainSample (s : State) (slot i : Nat) (sv : Serving) (rin sin : Byte) : Prop :=
  s.soundSample slot i sv rin sin ∧ sv.phase + 1 < 32

/-- The window of such a sample: its reference before the history's 1023 newest (R39). -/
def Serving.windowAt (sv : Serving) (rin : Byte) : List Int := enter 1024 (referenceOf sv.receive.gain rin) sv.history

/-- The echo estimate over segments with their blocks: the rounded sum of h(j,k) · x(n − 64j − k) over 2^15, saturated
(R42). -/
def State.estimateOver (s : State) (parts : List (Nat × Nat)) (window : List Int) : Int :=
  saturate 4095 (roundDiv
    (parts.map fun jb => ((List.range 64).map fun k =>
      ((s.tapBlock jb.2).entries.getD k ⟨0, 0, 0⟩).h * window.getD (64 * jb.1 + k) 0).sum).sum 32768)

/-- The error e of a sample over the segments that take part (R42 to R44). -/
def State.errorOver (s : State) (parts : List (Nat × Nat)) (sv : Serving) (rin sin : Byte) : Int :=
  saturate 4095 (expand sin - s.estimateOver parts (sv.windowAt rin))

/-- The blocks bound to context i are distinct blocks of the pool (R96). -/
abbrev State.boundDistinct (s : State) (i : Nat) : Prop :=
  ((s.boundOf i).map (·.2)).Nodup ∧ ∀ jb ∈ s.boundOf i, jb.2 < s.pool.blocks.length

/-- The energy E_j of a bound segment (R79). -/
abbrev State.energyAt (s : State) (jb : Nat × Nat) : Nat := energyOf (s.tapBlock jb.2).entries

/-- `S` is the significant segments of a search, with their blocks, in strength order (R79). -/
def State.significantOrder (s : State) (r : SearchRecord) (S : List (Nat × Nat)) : Prop :=
  S.Perm (r.bound.filter fun jb =>
      decide (2 ^ 20 ≤ s.energyAt jb) && r.bound.all fun x => decide (s.energyAt x ≤ 16 * s.energyAt jb))
    ∧ S.Pairwise fun a b => s.energyAt b < s.energyAt a ∨ (s.energyAt b = s.energyAt a ∧ a.1 < b.1)

/-! ### Block ends -/

/-- A direction's level state before and after a block end: spacing count, peak guard, evaluation, limits and at-limit
flag (R119 to R125). `hold` is the block's tone hold, `allowed` the send interlock. -/
def Level.controlled (alc hold allowed : Bool) (target : Int) (l l' : Level) : Prop :=
  let spacing := min 255 (l.spacing + 1)
  let msIn := l.power / 256
  let out := msIn * linearGain l.gain ^ 2 / 2 ^ 24
  let delta : Int :=
    if alc = false ∨ hold = true then 0
    else if l.peak = true then -2
    else if 407 ≤ msIn ∧ allowed = true then
      if (targetBand target).2.2 < out ∧ 8 ≤ spacing then -1
      else if out < (targetBand target).2.1 ∧ 32 ≤ spacing then 1
      else 0
    else 0
  l'.gain = max (-36) (min 24 (l.gain + delta))
    ∧ l'.spacing = (if l'.gain = l.gain then spacing else 0)
    ∧ l'.limit = (if l.gain + delta < -36 then .lower else if 24 < l.gain + delta then .upper
        else if (l.limit = .lower ∧ l.gain < l'.gain) ∨ (l.limit = .upper ∧ l'.gain < l.gain) then .clear else l.limit)
    ∧ l'.peak = false ∧ l'.power = l.power ∧ l'.inputs = l.inputs

/-- A direction's tone state before and after the tests of a block end: tone block, run, qualification, phase reversal
and release run, with the sums taken into the previous-block record (R129 to R131, R133). -/
def Tone.tested (t t' : Tone) : Prop :=
  let tone : Bool := decide (3 * t.e ≤ 4 * ((t.c ^ 2 + t.s ^ 2).toNat / 2 ^ 32) ∧ 100000 ≤ t.e)
  let dot := fun p : ToneBlock => t.c * (p.c * (-13255) + p.s * 9630) - t.s * (p.c * 9630 - p.s * (-13255))
  t'.run = (if tone = true then min 100 (t.run + 1) else 0)
    ∧ (t'.qualified = true ↔ t.qualified = true ∨ t'.run = 100)
    ∧ (t'.reversal = true ↔
        t.qualified = true ∧ tone = true ∧ ∃ p, t.previous = some p ∧ p.tone = true ∧ dot p < 0)
    ∧ t'.release = (if t.e < 32768 then min 63 (t.release + 1) else 0)
    ∧ t'.previous = some ⟨t.c, t.s, tone⟩ ∧ t'.c = 0 ∧ t'.s = 0 ∧ t'.e = 0

/-! ### A sample's sums -/

/-- A direction's level state `l'` after the gain stage took the input `v` in state `l`: P_in over the 256 newest inputs
and the peak record (R116, R118). -/
def Level.staged (l : Level) (v : Int) (l' : Level) : Prop :=
  l'.power = l.power + v.natAbs ^ 2 - (l.inputs.getD 255 0).natAbs ^ 2 ∧ l'.inputs = v :: l.inputs.take 255
    ∧ (l'.peak = true ↔ l.peak = true ∨ 4095 < (roundDiv (v * linearGain l.gain) 4096).natAbs)
    ∧ l'.gain = l.gain ∧ l'.spacing = l.spacing ∧ l'.limit = l.limit

/-- A direction's tone state with the input `x` at block phase `n` in its sums (R129). -/
def Tone.gathered (t : Tone) (n : Nat) (x : Int) : Tone :=
  { t with c := t.c + x * Config.cosTable.getD n 0, s := t.s + x * Config.sinTable.getD n 0, e := t.e + x.natAbs ^ 2 }

/-! ### The tap pool's laws -/

/-- The blocks context i holds (R78). -/
def State.heldBlocks (s : State) (i : Nat) : List Nat :=
  (s.ctx i).search.elim [] fun r => r.bound.map (·.2) ++ r.spare

/-- A search record as its rules leave it in a call state, with the reach of the profile in use: its segments and its
retained set without repeats and below the reach (R77, R78, R86), its spare hand ascending; in SEARCH every segment of
the map explored and bound to a block (R78, R82), and while WAITING a segment left to explore (R84); in TRACK no spare hand, the want the plan
size, and no loss left open (R87, R93). -/
def SearchRecord.laid (st : CallState) (reach : Nat) (r : SearchRecord) : Prop :=
  ((r.map.map (·.number)).Nodup ∧ ∀ e ∈ r.map, e.number < reach)
    ∧ (r.retained.Nodup ∧ ∀ j ∈ r.retained, j < reach) ∧ r.spare.Pairwise (· < ·)
    ∧ (st = .search → (∀ e ∈ r.map, e.number ∈ r.explored ∧ e.block?.isSome = true) ∧ (r.status = .waiting → r.unexplored reach ≠ []))
    ∧ (st = .track → r.spare = [] ∧ r.want = r.map.length ∧ ∀ e ∈ r.map, e.fill ≠ .lost)

/-- The blocks of context i's search stand as R78 and R96 say, and none twice. -/
def State.holds (s : State) (i : Nat) : Prop :=
  ∀ r, (s.ctx i).search = some r → r.laid (s.ctx i).callState (s.profileOf i).reach ∧ (s.heldBlocks i).Nodup
    ∧ (∀ jb ∈ r.bound, (s.tapBlock jb.2).state = .assigned ∧ (s.tapBlock jb.2).segment = some jb.1
        ∧ (s.tapBlock jb.2).owner.map (·.context) = some i)
    ∧ ∀ b ∈ r.spare, (s.tapBlock b).state = .reserved ∧ (s.tapBlock b).owner.map (·.context) = some i

/-- Context h can take a block: it searches, or its plan has an unfilled segment (R91). -/
def State.canTake (s : State) (h : Nat) : Prop :=
  ((s.ctx h).callState = .search ∧ (s.ctx h).search.isSome = true)
    ∨ ((s.ctx h).callState = .track ∧ ∃ r, (s.ctx h).search = some r ∧ ∃ e ∈ r.map, e.fill = .unfilled)

/-- The laws of the tap pool: the FIFO holds exactly the FREE blocks, each once, and stands empty while a context waits
(R100); 256 blocks are in service while a spare is left (R97, second law); a mark stands on a held block only (R96);
every held block is held once, as its record says (R78, R96); the contexts that wait are distinct and can take a block
(R91, R102), and a home with an open offer is among them until its GRANT is carried (R158, R161); every reach is at
least 1 (R175); a search record stands only in SEARCH or TRACK in a station in RUN (R25, R26); and only a role that
serves, in a station in CONFIG or RUN, has a call state (R20, R21). -/
def State.poolSound (s : State) : Prop :=
  s.table.contexts.length = 64 ∧ s.pool.blocks.length = 264
    ∧ s.pool.fifo.Nodup ∧ (∀ b, b ∈ s.pool.fifo ↔ b < 264 ∧ (s.tapBlock b).state = .free)
    ∧ s.countBlocks .spare = 8 - s.countBlocks .failed
    ∧ (∀ b, (s.tapBlock b).retirePending = true → (s.tapBlock b).state = .assigned ∨ (s.tapBlock b).state = .reserved)
    ∧ (∀ i, s.holds i)
    ∧ s.pool.shortfall.Nodup ∧ (s.pool.shortfall ≠ [] → s.pool.fifo = []) ∧ (∀ h ∈ s.pool.shortfall, s.canTake h)
    ∧ (∀ i, (s.ctx i).role = .homeOffering → (s.ctx i).stopAt = none → i ∈ s.pool.shortfall)
    ∧ (∀ p ∈ s.profile.profiles, 1 ≤ p.reach)
    ∧ (∀ i, (s.ctx i).search.isSome = true →
        s.profile.station = .run ∧ (s.ctx i).callState.processes = true ∧ (s.ctx i).serving.isSome = true)
    ∧ (∀ i, (s.ctx i).role.serves = false → (s.ctx i).callState = .notServing)
    ∧ (s.profile.station.serves = false → s.pool.shortfall = []
        ∧ ∀ i, (s.ctx i).callState = .notServing ∧ (s.ctx i).search = none
          ∧ (s.ctx i).role = match (s.ctx i).kind with | .home => .homeServing | .guest => .guestFree)

/-! ### New searches -/

/-- `H` is the blocks context i holds, in ascending number, none of them with a mark. -/
def State.holdsUnmarked (s : State) (i : Nat) (H : List Nat) : Prop :=
  H.Perm (s.heldBlocks i) ∧ H.Pairwise (· < ·) ∧ ∀ b ∈ H, (s.tapBlock b).retirePending = false

/-- Context i's new search in `t`, on a request of its budget from the FREE blocks `free` behind the contexts `waiting`
(R77, R81, R82, R90, R101, R112). The blocks it obtains, `X` in ascending number, stand at zero on segments 0, 1, .. in
pass 1, and without one the search is WAITING in pass 0. Blocks beyond the reach go to the FIFO tail, and the want falls
to what is bound; a search still short of its want waits at the queue's tail. A short request queues POOL SHORT. -/
def State.searchesFrom (s : State) (i : Nat) (waiting free X : List Nat) (t : State) : Prop :=
  let p := s.profileOf i
  let n := if waiting = [] then min p.budget free.length else 0
  X.Perm (free.take n) → X.Pairwise (· < ·) →
  (t.ctx i).callState = .search ∧ ∃ r, (t.ctx i).search = some r
    ∧ r.bound = (List.range p.reach).zip X ∧ r.map.length = min p.reach n ∧ r.spare = []
    ∧ r.explored = List.range (min p.reach n) ∧ r.retained = [] ∧ r.dwell = 0
    ∧ r.pass = (if n = 0 then 0 else 1) ∧ r.status = (if n = 0 then .waiting else .inPass)
    ∧ r.want = (if p.reach < n then p.reach else p.budget)
    ∧ (∀ jb ∈ r.bound, (t.tapBlock jb.2).state = .assigned ∧ (t.tapBlock jb.2).owner = some ⟨i, s.slotOf i⟩
        ∧ (t.tapBlock jb.2).segment = some jb.1 ∧ (t.tapBlock jb.2).entries = List.replicate 64 ⟨0, 0, 0⟩)
    ∧ t.pool.fifo = free.drop n ++ X.drop p.reach
    ∧ t.pool.shortfall = (if n < p.budget ∧ n ≤ p.reach then waiting ++ [i] else waiting)
    ∧ (n < p.budget → maskBit s.profile.noticeMask 3 = true → s.lane.queue.length ≤ 14 →
        ⟨.notice 3 (BitVec.ofNat 16 (s.slotOf i % 128 * 512 + (p.budget - n) % 32 * 16)) s.me, s.frame, none⟩
          ∈ t.lane.queue)

/-- Context i's search has ended in `t` with nothing retained: level-only, its blocks `H` given back to the FIFO tail, and
SEARCH DONE queued with plan size 0 (R85, R88). -/
def State.levelOnly (s : State) (i : Nat) (H : List Nat) (t : State) : Prop :=
  (t.ctx i).callState = .track
    ∧ (∃ r, (t.ctx i).search = some r ∧ r.map = [] ∧ r.spare = [] ∧ r.want = 0 ∧ r.retained = [] ∧ r.dwell = 0)
    ∧ t.pool.fifo = s.pool.fifo ++ H ∧ t.pool.shortfall = []
    ∧ (maskBit s.profile.noticeMask 2 = true → s.lane.queue.length < 16 →
        ⟨.notice 2 (BitVec.ofNat 16 (s.slotOf i % 128 * 512)) s.me, s.frame, none⟩ ∈ t.lane.queue)

/-! ### Calls that start at RUN entry -/

/-- Context k starts a call that requests blocks at RUN entry: it serves in BYPASS, not transparent, with a call present,
under a profile with a budget (R27, R29). -/
def State.startsAtRun (s : State) (k : Nat) : Bool :=
  (s.ctx k).role.serves && (s.ctx k).callState == .bypass && !(s.ctx k).transparent
    && (s.ctx k).serving.elim false (·.callPresent) && decide (0 < (s.profileAt (s.ctx k).profile).budget)

/-- The blocks that the contexts below i request at RUN entry, ascending contexts first (R81, R101). -/
def State.requestedBefore (s : State) (i : Nat) : Nat :=
  (((List.range i).filter s.startsAtRun).map fun k => (s.profileAt (s.ctx k).profile).budget).sum

/-! ### Contexts and their slots -/

/-- The roles of a kind (R37). -/
def Kind.admits : Kind → Role → Bool
  | .home, r => [Role.homeServing, .homeOffering, .handed, .reclaiming].contains r
  | .guest, r => [Role.guestFree, .reserved, .taken, .actingHome, .returning].contains r

/-- The contexts and the slot directory: contexts 0..H−1 are the home contexts of their home slots and the rest guests
(R17); a context is in a role of its kind, a guest in use has a slot, and a GUEST-FREE one has its fields cleared (R18,
R37); and the directory names for each slot the one context that holds it (R18). -/
def State.slotsSound (s : State) : Prop :=
  2 ≤ s.profile.n ∧ s.table.contexts.length = 64 ∧ s.table.directory.length = 128
    ∧ (∀ i < 64, (s.ctx i).kind.admits (s.ctx i).role = true
        ∧ (if i < homeCount s.profile.k s.profile.n then
            (s.ctx i).kind = .home ∧ (s.ctx i).slot = some (s.profile.k + i * s.profile.n)
          else (s.ctx i).kind = .guest ∧ ((s.ctx i).slot = none ↔ (s.ctx i).role = .guestFree)
            ∧ ((s.ctx i).role = .guestFree → s.ctx i = freeGuest)))
    ∧ ∀ slot i, s.lookup slot = some i ↔ (s.ctx i).slot = some slot

/-- While RESET is held the interface is in HUNT and no entry is recalled (R14, R154, R174). -/
def State.heldQuiet (s : State) : Prop :=
  s.profile.station = .held → s.highway.sync = .hunt ∧ s.lane.recalled = []

end Sys2Proof.Machine
end

