-- ==== Sys2Proof/Certificates/Slice0/Obligations.lean ====
section
/-! DEFINITION. The statements for the provers, from the manual's numbered rules. Each names the commands it is about;
`∃ t, exec c s = .next t ∧ …` says that the command completes and what its next state holds. -/

open Sys2Proof Sys2Proof.Machine

/-! ### The queue and the whole machine -/

/-- A step takes the command at the front of the queue and answers what the command does to the state whose queue is
the rest; with no command waiting the station idles (the model's choice, log entry 1). -/
def Obligations.StepTakesFrontCommand : Prop :=
  (∀ (s : State) (c : Instr) (rest : List Instr), s.pending = c :: rest →
    step s = exec c { s with pending := rest })
  ∧ ∀ s : State, s.pending = [] → step s = .next s

/-- Every command completes and leaves the queue of waiting commands alone (log entry 1); while RESET is held, the
interface in HUNT and no entry recalled, the station takes nothing but RESET (R174 read with log entry 4); k, N and
the clamp record stand until the next RESET release (R173); and the profiles, the notice mask, the idle code table and
the idle count change only in CONFIG and by RESET assertion (R11, R176 to R178, R182). -/
def Obligations.QueueStrapsAndConfigurationStand : Prop :=
  ∀ (c : Instr) (s : State), ∃ t, exec c s = .next t
    ∧ t.pending = s.pending
    ∧ (s.profile.station = .held → s.heldQuiet → c ≠ .resetAssertion →
        (∀ station population tested, c ≠ .resetRelease station population tested) → t = s)
    ∧ ((∀ station population tested, c ≠ .resetRelease station population tested) →
        t.profile.k = s.profile.k ∧ t.profile.n = s.profile.n ∧ t.profile.clamped = s.profile.clamped)
    ∧ (s.profile.station ≠ .config → c ≠ .resetAssertion →
        t.profile.profiles = s.profile.profiles ∧ t.profile.noticeMask = s.profile.noticeMask
          ∧ t.highway.idleCodes = s.highway.idleCodes ∧ t.highway.idleCount = s.highway.idleCount)

/-! ### Invariants of every step -/

/-- Every step keeps the number of contexts, slot directory entries, tap blocks, output pipelines, profiles, offer
memory entries and absence counts, so the five block counts always add to 264 (R17, R18, R97). -/
def Obligations.StepKeepsSizes : Prop :=
  ∀ s t : State, s.sized → step s = .next t →
    t.sized ∧ t.countBlocks .free + t.countBlocks .assigned + t.countBlocks .reserved + t.countBlocks .spare
      + t.countBlocks .failed = 264

/-- The send queue never holds more than 16 messages and stays in rank order (R150); the lane's four counts saturate
at 65535, the frames-lost count at 65535, and the spacing, miss, CONFIG frame and absence counts stay within their
ranges (R14 to R16, R153, R157, R174). A message that joins (R150, R151, R153) stands behind every entry of its rank
or above and before the others; when the queue is full, one of rank 9 or above makes the newest NOTICE give way, or
with none the newest REPORT, and any other, or one with neither to displace, is dropped; the drop count rises by 1. So
do a NOTICE, a REPORT, a RECLAIM, an ADOPT and a RETURN, one command for each. That an entry whose cell is under way
gives way like any other is the model's choice (log entry 34); that withdrawn entries count until their cell's end,
the message commands, and the events with commands of their own are its readings (log entries 3, 16 and 31). -/
def Obligations.StepKeepsQueueAndCounts : Prop :=
  (∀ s t : State, s.lane.queue.length ≤ 16 → step s = .next t → t.lane.queue.length ≤ 16)
  ∧ (∀ s t : State, rankOrdered s.lane.queue → step s = .next t → rankOrdered t.lane.queue)
  ∧ (∀ s t : State, s.countsSound → step s = .next t → t.countsSound)
  ∧ ∀ (s : State) (c : Instr) (m : Msg), rankOrdered s.lane.queue → s.lane.queue.length ≤ 16 →
      ((∃ target mask idle count c1 c2 c3 c4 k, c = .runMessage target mask idle count c1 c2 c3 c4 k ∧ s.hearsCard k
          ∧ (target.toNat = s.profile.k ∨ target = 15) ∧ s.profile.station = .run
          ∧ maskBit s.profile.noticeMask 9 = true ∧ m = .notice 9 (BitVec.ofNat 16 (6 * 8 * 512)) s.me)
        ∨ (∃ target page argument k, c = .queryUnknownPage target page argument k ∧ s.hearsCard k
          ∧ (target.toNat = s.profile.k ∨ target = 15) ∧ 5 ≤ page.toNat ∧ m = .report page argument (2 <<< 86) s.me)
        ∨ (∃ slot i r, c = .reclaimAgeExpiry slot ∧ s.profile.station.serves = true ∧ s.lookup slot.toNat = some i
          ∧ (s.ctx i).slot = some slot.toNat ∧ (s.ctx i).role = .reclaiming ∧ (s.ctx i).reclaim = some r ∧ 8000 ≤ r.age
          ∧ (∀ e ∈ s.lane.queue, e.isReclaim slot.toNat = false) ∧ m = .reclaim slot s.me)
        ∨ (∃ slot, c = .orphan slot ∧ s.profile.station = .run ∧ s.isHome slot.toNat = false
          ∧ s.share.absence.getD slot.toNat 0 = 8 ∧ s.lookup slot.toNat = none
          ∧ (∀ e ∈ s.lane.queue, e.isAdopt slot.toNat = false) ∧ (∀ a ∈ s.share.adopting, a.1 ≠ slot.toNat)
          ∧ s.freeGuest? ≠ none ∧ m = .adopt slot (BitVec.ofNat 8 (min 255 s.pool.fifo.length)) s.me)
        ∨ (∃ slot taker k i, c = .grant slot taker k ∧ s.hearsStation k ∧ taker.toNat = s.profile.k
          ∧ s.lookup slot.toNat = some i ∧ (s.ctx i).role ≠ .reserved ∧ m = .returnSlot slot 2 s.me)) →
      ∃ t dropped, exec c s = .next t ∧ Entry.joins ⟨m, s.frame, none⟩ s.lane.queue t.lane.queue dropped
        ∧ t.lane.drops = min 65535 (s.lane.drops + dropped)

/-- The DT hangover never exceeds 240, the DT flag is set exactly when it is above 0 (R59), and the noise estimate
stays within 1..16384 (R70). -/
def Obligations.StepKeepsSignalStateSound : Prop :=
  (∀ s t : State, s.eachServing Serving.dtSound → step s = .next t → t.eachServing Serving.dtSound)
  ∧ ∀ s t : State, s.eachServing Serving.noiseSound → step s = .next t → t.eachServing Serving.noiseSound

/-- Every gain index stays within −36..+24, and every profile within its ranges in use (R115, R125, R175, R176). -/
def Obligations.StepKeepsGainsInRange : Prop :=
  ∀ s t : State, s.gainsSound → step s = .next t → t.gainsSound

/-- The laws of the tap pool stand after every step: the FIFO holds exactly the FREE blocks and stands empty while a
context waits (R100, R102), 256 blocks are in service while a spare is left (R97), marks stand on held blocks (R96),
every held block is held once as its record says, on a segment below the reach of the profile in use (R78, R96), in
SEARCH every segment of a map is bound to a block (R78), and a search that waits has a segment left to explore (R84),
every context that waits can take a block (R91), a home with an open offer waits until its GRANT is carried (R158,
R161), and a search record stands in SEARCH or TRACK only (R25). -/
def Obligations.StepKeepsPoolSound : Prop :=
  ∀ s t : State, s.poolSound → step s = .next t → t.poolSound

/-- Every home context keeps its home slot, every guest context in use its slot, a GUEST-FREE one stands with its
fields cleared, each context is in a role of its kind, and the slot directory names for every slot the one context
that holds it (R17, R18, R20, R37); and while RESET is held the interface stays in HUNT with no entry recalled (R14,
R154, R174 read with log entry 4). -/
def Obligations.StepKeepsSlotsSound : Prop :=
  (∀ s t : State, s.slotsSound → step s = .next t → t.slotsSound)
  ∧ ∀ s t : State, s.heldQuiet → step s = .next t → t.heldQuiet

/-- What RESET leaves, and that the invariants above hold there (R11, R14, R19, R153, R154, R157, R175, R182). That
the blocks stand before the end of TEST as a fault-free test places them, of which R99 does not speak, is the model's
choice (log entry 5), and so are the contexts of k = 0 and N = 2 before the straps are first read (log entry 2): the
pool laws and the slots of this state rest on them. -/
def Obligations.ResetLeaves : Prop :=
  State.reset.sized ∧ State.reset.lane.queue = [] ∧ State.reset.eachServing Serving.dtSound
    ∧ State.reset.eachServing Serving.noiseSound ∧ State.reset.gainsSound ∧ State.reset.countsSound
    ∧ State.reset.poolSound ∧ State.reset.slotsSound ∧ State.reset.heldQuiet
    ∧ State.reset.highway.sync = .hunt ∧ State.reset.highway.idleCodes = [0xD5, 0x55]
    ∧ State.reset.highway.idleCount = 800 ∧ State.reset.profile.noticeMask = BitVec.allOnes 12
    ∧ (∀ i < 64, (State.reset.ctx i).callState = .notServing ∧ (State.reset.ctx i).serving = none
        ∧ (State.reset.ctx i).search = none)
    ∧ ∀ i < 8, (State.reset.profileAt i).budget = (if i = 7 then 0 else 8) ∧ (State.reset.profileAt i).reach = 16
        ∧ (State.reset.profileAt i).step = 2 ∧ (State.reset.profileAt i).sendTarget = -16
        ∧ (State.reset.profileAt i).sendG = 0

/-! ### The formats a partner sees -/

/-- Every message reads back from its own cell: the check passes, the fields are as sent, and no surplus position
holds a 1 (R139, R140, R143, R148). A higher kind code wins over a lower one, whatever the fields: its cell is the
greater number from cell bit 0 on, and at the first bit where the two cells differ it holds the 1 (R142). -/
def Obligations.CellsReadBackAndRank : Prop :=
  (∀ m : Msg, checkPasses (cellOf m) = true ∧ parseCell (cellOf m) = some m ∧ hasSurplus (cellOf m) m = false)
  ∧ ∀ m m' : Msg, m'.kind < m.kind →
    (cellOf m').toNat < (cellOf m).toNat
      ∧ ∃ b < 4, (cellOf m).getMsbD b = true ∧ (cellOf m').getMsbD b = false
          ∧ ∀ a < b, (cellOf m).getMsbD a = (cellOf m').getMsbD a

/-- Expansion of a line code (R8): the code is unscrambled with 55h, and sign, segment and mantissa give the sample;
the magnitudes lie in 1..4032, and D5h and 55h give +1 and −1. Compression of a linear value (R9): saturated to ±4095,
its magnitude a gives segment and mantissa, its sign the sign bit; 0 compresses to D5h, compressing the expansion of
any code gives back the code, the expansions are the only values that survive a round trip, and a value beyond ±4095
goes to the code of magnitude 4032. -/
def Obligations.LineCodesConvert : Prop :=
  (∀ code : Byte,
    let u := code ^^^ 0x55
    let seg := u.toNat / 16 % 8
    let m := u.toNat % 16
    let mag : Int := if seg = 0 then 2 * m + 1 else (2 * m + 33) * 2 ^ (seg - 1)
    expand code = (if 128 ≤ u.toNat then mag else -mag) ∧ 1 ≤ mag ∧ mag ≤ 4032)
  ∧ expand 0xD5 = 1 ∧ expand 0x55 = -1
  ∧ (∀ v : Int,
    let u := (compress v ^^^ 0x55).toNat
    let seg := u / 16 % 8
    let m := u % 16
    let a := min 4095 v.natAbs
    (a < 32 → seg = 0 ∧ m = a / 2)
      ∧ (32 ≤ a → 2 ^ (seg + 4) ≤ a ∧ a < 2 ^ (seg + 5) ∧ m = a / 2 ^ seg - 16)
      ∧ (128 ≤ u ↔ 0 ≤ v))
  ∧ compress 0 = 0xD5 ∧ (∀ code : Byte, compress (expand code) = code)
  ∧ (∀ v : Int, expand (compress v) = v ↔ ∃ code : Byte, expand code = v)
  ∧ ∀ v : Int, (4095 < v → compress v = compress 4095 ∧ expand (compress v) = 4032)
      ∧ (v < -4095 → compress v = compress (-4095) ∧ expand (compress v) = -4032)

/-- The report number format (R156): e is the smallest exponent 0..15 that brings the value below 4096, a value of
134,217,728 or more is given as 15 and 4095, the number stands for every value from m · 2^e to m · 2^e + 2^e − 1, and
values below 4096 are carried exactly. -/
def Obligations.ReportNumberFormat : Prop :=
  ∀ v : Nat,
    let e := reportNumber v / 4096
    let m := reportNumber v % 4096
    e ≤ 15
      ∧ (v < 134217728 → m = v / 2 ^ e ∧ v / 2 ^ e < 4096 ∧ (∀ f < e, 4096 ≤ v / 2 ^ f)
          ∧ m * 2 ^ e ≤ v ∧ v ≤ m * 2 ^ e + 2 ^ e - 1)
      ∧ (134217728 ≤ v → e = 15 ∧ m = 4095)
      ∧ (v < 4096 → e = 0 ∧ m = v)

/-- The value u of a sample from the 12 bits that its 12 generator steps shift out (R74): from a register g the i-th
bit shifted out is stage 23 − i, the first weighs −2048, the next eleven 1024, 512, .. 1, and u lies in −2048..2047.
The register after the 12 steps of R72: stage 13 and up hold what stood 12 stages below, and each stage below holds
the exclusive-or of the bits that stood in stages 23 and 18 at its step. -/
def Obligations.NoiseValueOfTwelveBits : Prop :=
  ∀ g : BitVec 23,
    let u := noiseValue (generatorRun 12 0 g).1
    let bit := fun i : Nat => ((g.getLsbD (22 - i)).toNat : Int)
    let after := (generatorRun 12 0 g).2
    (u = -2048 * bit 0 + 1024 * bit 1 + 512 * bit 2 + 256 * bit 3 + 128 * bit 4 + 64 * bit 5 + 32 * bit 6 + 16 * bit 7
        + 8 * bit 8 + 4 * bit 9 + 2 * bit 10 + bit 11
      ∧ -2048 ≤ u ∧ u ≤ 2047)
    ∧ (∀ b < 12, after.getLsbD b = (g.getLsbD (b + 11)).xor (g.getLsbD (b + 6)))
    ∧ ∀ b < 23, 12 ≤ b → after.getLsbD b = g.getLsbD (b - 12)

/-- The linear gain g of a gain index G is round(4096 · 10^(G/40)) for G from −36 to +24 (R115): no integer lies
nearer. -/
def Obligations.GainOfEveryIndex : Prop :=
  ∀ G : Int, -36 ≤ G → G ≤ 24 →
    |(linearGain G : ℝ) - 4096 * (10 : ℝ) ^ ((G : ℝ) / 40)| < 1 / 2 ∧ 516 ≤ linearGain G ∧ linearGain G ≤ 16306
      ∧ (linearGain G = 4096 ↔ G = 0)

/-! ### RESET, TEST and sync -/

/-- RESET_ASSERTION (R6, R14, R18, R19, R22, R113, R153, R154, R157, R169, R174, R175): outputs and lane are released,
and all state takes its RESET values, whatever stood before: roles, hand-over frames, offers, reservations, slot
directory, blocks, FIFO, LISTEN record and queues too; the straps' values stand. The model's choices are that the
commands that wait stay (log entry 1), that the miss count, which R14 gives at a lock only, is 0 and k and N keep the
values last read (log entry 2), that blocks 0..255 are FREE and the rest SPARE until TEST has placed them (log entry
5), and that frames are numbered from 0 (log entry 7). -/
def Obligations.ResetAssertion : Prop :=
  ∀ s : State, ∃ t, exec .resetAssertion s = .next t
    ∧ t.pending = s.pending ∧ t.frame = 0
    ∧ t.profile.station = .held ∧ t.profile.runReached = false ∧ t.profile.configFrames = 0
    ∧ t.profile.testFrames = 0 ∧ t.profile.listenFrames = 0 ∧ t.profile.runAccepted = none
    ∧ t.profile.k = s.profile.k ∧ t.profile.n = s.profile.n ∧ t.profile.clamped = s.profile.clamped
    ∧ t.profile.profiles = defaultProfiles ∧ t.profile.noticeMask = BitVec.allOnes 12
    ∧ t.highway.sync = .hunt ∧ t.highway.spacing = 0 ∧ t.highway.miss = 0 ∧ t.highway.framesLost = 0
    ∧ t.highway.lastPulse = none ∧ t.highway.lockClock = none ∧ t.highway.lines.codes = none
    ∧ (∀ slot, t.highway.pipeline.getD slot [] = []) ∧ t.highway.idleCodes = [0xD5, 0x55]
    ∧ t.highway.idleCount = 800 ∧ t.marks = 0
    ∧ t.lane.queue = [] ∧ t.lane.recalled = [] ∧ t.lane.markRecord = 0 ∧ t.lane.ownRecord = 0 ∧ t.lane.discards = 0
    ∧ t.lane.drops = 0 ∧ t.lane.clashes = 0 ∧ t.lane.surplus = 0 ∧ t.lane.cell = none
    ∧ (∀ slot, t.share.offers.getD slot none = none ∧ t.share.absence.getD slot 0 = 0)
    ∧ t.share.listenMarks = 0 ∧ t.share.listenMarks' = 0 ∧ t.share.listenAdopt = 0 ∧ t.share.listenAdopt' = 0
    ∧ t.share.adopting = []
    ∧ t.pool.shortfall = [] ∧ t.pool.faulty = 0 ∧ t.pool.fifo = List.range 256
    ∧ (∀ b < 264, (t.tapBlock b).state = (if b < 256 then .free else .spare) ∧ (t.tapBlock b).owner = none
        ∧ (t.tapBlock b).segment = none ∧ (t.tapBlock b).retirePending = false ∧ (t.tapBlock b).corrected = 0
        ∧ (t.tapBlock b).entries = List.replicate 64 ⟨0, 0, 0⟩ ∧ (t.tapBlock b).wrong = [])
    ∧ (∀ i, (t.ctx i).callState = .notServing ∧ (t.ctx i).serving = none ∧ (t.ctx i).search = none
        ∧ (t.ctx i).profile = 0 ∧ (t.ctx i).frozen = false ∧ (t.ctx i).transparent = false
        ∧ (t.ctx i).toneHold = false ∧ (t.ctx i).pendingReturn = false
        ∧ (t.ctx i).role = (match (t.ctx i).kind with | .home => .homeServing | .guest => .guestFree)
        ∧ (t.ctx i).server = none ∧ (t.ctx i).offer = none ∧ (t.ctx i).reservation = none
        ∧ (t.ctx i).reclaim = none ∧ (t.ctx i).stopAt = none ∧ (t.ctx i).grantee = none ∧ (t.ctx i).startAt = none)
    ∧ (2 ≤ s.profile.n → ∀ slot < 128,
        (s.profile.k < s.profile.n ∧ slot % s.profile.n = s.profile.k →
          ∃ i < 64, t.lookup slot = some i ∧ (t.ctx i).kind = .home ∧ (t.ctx i).slot = some slot)
        ∧ (¬(s.profile.k < s.profile.n ∧ slot % s.profile.n = s.profile.k) → t.lookup slot = none))

/-- RESET_RELEASE (R17, R18, R98, R173, R174): the straps give k, and N with its clamp; TEST begins; contexts 0..H−1
are the home contexts of slots k, k+N, .., the rest are free guests, and the directory maps exactly the home slots.
The memory test fails exactly the blocks of which a bit reads wrong (log entry 5 gives the form of its findings). -/
def Obligations.ResetReleaseFixesContexts : Prop :=
  ∀ (s : State) (station population : BitVec 3) (tested : List TapUpset), s.profile.station = .held →
    ∃ t, exec (.resetRelease station population tested) s = .next t
      ∧ t.profile.station = .test ∧ t.profile.configFrames = 0 ∧ t.profile.runReached = false
      ∧ t.profile.k = station.toNat
      ∧ t.profile.n = (if population = 0 then 2 else population.toNat + 1)
      ∧ (t.profile.clamped = true ↔ population = 0)
      ∧ (∀ b < 264, (t.pool.faulty.getLsbD b = true ↔ ∃ u ∈ tested, u.block.toNat = b ∧ 0 < u.bits))
      ∧ (∀ slot < 128,
          (t.profile.k < t.profile.n ∧ slot % t.profile.n = t.profile.k →
            ∃ i < 64, t.lookup slot = some i ∧ (t.ctx i).kind = .home ∧ (t.ctx i).slot = some slot
              ∧ (t.ctx i).role = .homeServing ∧ slot = t.profile.k + i * t.profile.n)
          ∧ (¬(t.profile.k < t.profile.n ∧ slot % t.profile.n = t.profile.k) → t.lookup slot = none))
      ∧ ∀ i < 64, (∀ slot < 128, t.lookup slot ≠ some i) →
          (t.ctx i).kind = .guest ∧ (t.ctx i).role = .guestFree ∧ (t.ctx i).slot = none

/-- TEST_END (R14, R99): the failing blocks are FAILED, the lowest passing blocks up to 256 are FREE and stand in the
FIFO in ascending order, the rest SPARE; the station goes to LISTEN when LOCKED and to UNSYNCED when in HUNT. That the
event has a command of its own, which acts when its condition stands, is the model's reading (log entry 3). -/
def Obligations.TestEndPlacesBlocks : Prop :=
  ∀ s : State, s.profile.station = .test → 32 ≤ s.profile.testFrames →
    ∃ t, exec .testEnd s = .next t
      ∧ t.profile.station = (if s.highway.sync = .locked then .listen else .unsynced)
      ∧ (∀ b < 264,
          let passing := ((List.range b).filter fun a => !s.pool.faulty.getLsbD a).length
          (t.tapBlock b).state =
            (if s.pool.faulty.getLsbD b then .failed else if passing < 256 then .free else .spare)
          ∧ (t.tapBlock b).owner = none ∧ (t.tapBlock b).segment = none ∧ (t.tapBlock b).retirePending = false
          ∧ (t.tapBlock b).corrected = 0)
      ∧ t.pool.fifo = (List.range 264).filter (fun b => (t.tapBlock b).state == .free)
      ∧ t.pool.shortfall = [] ∧ t.table = s.table ∧ t.lane = s.lane ∧ t.highway = s.highway ∧ t.frame = s.frame

/-- FRAME_SYNC_PULSE (R14, R15): in HUNT a correctly spaced pulse raises the spacing count by 1 and any other sets it
to 1; at 8 the interface is LOCKED with the miss count 0 and its timing from this pulse; in LOCKED a pulse changes
nothing here (expected positions have their own command, the model's reading, log entry 20). SYNC_LOCK and SYNC_REGAIN
(R14, R16, R174, R182): with the spacing count at 8 the interface is LOCKED; a first lock in UNSYNCED leads to LISTEN
without a notice, and a lock that ends a sync loss queues SYNC REGAINED with the frames-lost count, which becomes 0.
EXPECTED_POSITION_CHECK and HUNT_PERIOD (R15, R16): a pulse at an expected position sets the miss count to 0; a first
missing pulse raises it; the second brings sync loss; in HUNT after a loss each period raises the frames-lost count,
saturating at 65535. That an event has a command of its own, which acts when its condition stands, is the model's
reading (log entry 3). -/
def Obligations.FrameSyncAndTiming : Prop :=
  (∀ (s : State) (clock : Nat), s.profile.station ≠ .held →
    (s.highway.sync = .locked → exec (.frameSyncPulse clock) s = .next s)
    ∧ (s.highway.sync = .hunt →
        (s.highway.lastPulse ≠ some (clock - 1024) ∨ clock < 1024 →
          exec (.frameSyncPulse clock) s =
            .next { s with highway := { s.highway with spacing := 1, lastPulse := some clock } })
        ∧ (s.highway.lastPulse = some (clock - 1024) → 1024 ≤ clock → s.highway.spacing < 7 →
            exec (.frameSyncPulse clock) s =
              .next { s with highway := { s.highway with
                spacing := s.highway.spacing + 1, lastPulse := some clock } })
        ∧ (s.highway.lastPulse = some (clock - 1024) → 1024 ≤ clock → 7 ≤ s.highway.spacing →
            ∃ t, exec (.frameSyncPulse clock) s = .next t ∧ t.highway.sync = .locked ∧ t.highway.miss = 0
              ∧ t.highway.lockClock = some clock ∧ t.highway.framesLost = 0
              ∧ (s.profile.station = .unsynced → t.profile.station = .listen))))
  ∧ (∀ s : State, s.highway.sync = .hunt → s.highway.spacing = 8 → s.profile.station = .unsynced →
    (s.highway.framesLost = 0 →
      ∃ t, exec .syncLock s = .next t ∧ t.highway.sync = .locked ∧ t.highway.miss = 0
        ∧ t.profile.station = .listen ∧ t.profile.listenFrames = 0 ∧ t.lane = s.lane ∧ t.table = s.table
        ∧ t.pool = s.pool)
    ∧ (s.highway.framesLost ≠ 0 → maskBit s.profile.noticeMask 8 = true → s.lane.queue.length < 16 →
        ∃ t, exec .syncRegain s = .next t ∧ t.highway.sync = .locked ∧ t.highway.miss = 0
          ∧ t.highway.framesLost = 0 ∧ t.profile.station = .listen
          ∧ t.lane.queue = insertEntry
              ⟨.notice 8 (BitVec.ofNat 16 s.highway.framesLost) s.me, s.frame, none⟩ s.lane.queue
          ∧ t.table = s.table ∧ t.pool = s.pool))
  ∧ ∀ s : State, s.profile.station ≠ .held →
    (s.highway.sync = .locked →
      exec (.expectedPositionCheck true) s = .next { s with highway := { s.highway with miss := 0 } }
      ∧ (s.highway.miss = 0 →
          exec (.expectedPositionCheck false) s = .next { s with highway := { s.highway with miss := 1 } })
      ∧ (1 ≤ s.highway.miss →
          ∃ t, exec (.expectedPositionCheck false) s = .next t ∧ t.highway.sync = .hunt ∧ t.highway.framesLost = 2
            ∧ t.lane.queue = []))
    ∧ (s.highway.sync = .hunt → s.highway.framesLost ≠ 0 → s.profile.station ≠ .test →
        exec .huntPeriod s = .next { s with highway := { s.highway with
          framesLost := min 65535 (s.highway.framesLost + 1) } })

/-- SYNC_LOSS (R15, R20, R113, R154, R157, R174): the outputs are released and the pipelines emptied, every context
goes to NOT SERVING without serving parts or search, homes take HOME-SERVING and keep their slot-control fields,
guests are freed, the queues are emptied and the lane's counts kept. No block is held or reserved: those with a
retire-pending mark fail, with their owner, last segment (log entry 14) and corrected count, each replaced by the
lowest SPARE block, and the others become FREE; the FIFO keeps its blocks ahead of the promoted and then of the
released ones, each in ascending number. That the event has a command of its own, which acts when its condition
stands, is the model's reading (log entries 3 and 20). -/
def Obligations.SyncLossClearsStation : Prop :=
  ∀ s : State, s.highway.sync = .locked → 2 ≤ s.highway.miss → s.profile.station ≠ .held →
    ∃ t, exec .syncLoss s = .next t
      ∧ t.highway.sync = .hunt ∧ t.highway.spacing = 0 ∧ t.highway.framesLost = 2 ∧ t.highway.lines.codes = none
      ∧ (∀ slot, t.highway.pipeline.getD slot [] = []) ∧ t.highway.idleCodes = s.highway.idleCodes
      ∧ t.highway.idleCount = s.highway.idleCount
      ∧ t.profile.station = (if s.profile.station = .test then .test else .unsynced)
      ∧ t.profile.configFrames = 0 ∧ t.profile.profiles = s.profile.profiles
      ∧ t.profile.runReached = s.profile.runReached ∧ t.profile.noticeMask = s.profile.noticeMask
      ∧ t.lane.queue = [] ∧ t.lane.markRecord = 0 ∧ t.lane.discards = s.lane.discards ∧ t.lane.drops = s.lane.drops
      ∧ t.lane.clashes = s.lane.clashes ∧ t.lane.surplus = s.lane.surplus
      ∧ t.pool.shortfall = []
      ∧ (∀ b ∈ t.pool.blocks, b.state ≠ .assigned ∧ b.state ≠ .reserved)
      ∧ (s.poolSound →
          (let marked := (List.range 264).filter fun b => (s.tapBlock b).retirePending
           let held := (List.range 264).filter fun b => !(s.tapBlock b).retirePending
             && ((s.tapBlock b).state == .assigned || (s.tapBlock b).state == .reserved)
           let promoted := ((List.range 264).filter fun b => (s.tapBlock b).state == .spare).take marked.length
           t.pool.fifo = s.pool.fifo ++ promoted ++ held
            ∧ (∀ b ∈ marked, t.tapBlock b = { s.tapBlock b with
                state := .failed, segment := (s.tapBlock b).lastSegment, retirePending := false })
            ∧ (∀ b ∈ promoted ++ held, (t.tapBlock b).state = .free ∧ (t.tapBlock b).owner = none
                ∧ (t.tapBlock b).segment = none ∧ (t.tapBlock b).corrected = (s.tapBlock b).corrected)
            ∧ ∀ b, b ∉ marked ++ promoted ++ held → t.tapBlock b = s.tapBlock b))
      ∧ (∀ slot, t.share.offers.getD slot none = none ∧ t.share.absence.getD slot 0 = 0)
      ∧ ∀ i, (t.ctx i).callState = .notServing ∧ (t.ctx i).serving = none ∧ (t.ctx i).search = none
          ∧ (t.ctx i).toneHold = false ∧ (t.ctx i).pendingReturn = false ∧ (t.ctx i).kind = (s.ctx i).kind
          ∧ ((s.ctx i).kind = .guest → t.ctx i = freeGuest)
          ∧ ((s.ctx i).kind = .home → (t.ctx i).role = .homeServing ∧ (t.ctx i).slot = (s.ctx i).slot
              ∧ (t.ctx i).profile = (s.ctx i).profile ∧ (t.ctx i).frozen = (s.ctx i).frozen
              ∧ (t.ctx i).transparent = (s.ctx i).transparent ∧ (t.ctx i).server = none ∧ (t.ctx i).offer = none
              ∧ (t.ctx i).stopAt = none ∧ (t.ctx i).startAt = none)

/-- LISTEN_END (R169, R174): after the 16th frame the station enters CONFIG, or RUN once run-reached; a home slot
whose mark was read in that frame, or for which an ADOPT was delivered in it or the one before, makes its context
RECLAIMING with a RECLAIM queued, unless the full queue drops one; every other home context starts serving, in BYPASS
in CONFIG and in IDLE or BYPASS in RUN. That the event has a command of its own, which acts when its condition stands,
is the model's reading (log entry 3). -/
def Obligations.ListenEndJudgesHomes : Prop :=
  ∀ s : State, s.profile.station = .listen → 16 ≤ s.profile.listenFrames → s.table.contexts.length = 64 →
    (let held := fun slot : Nat => s.share.listenMarks.getLsbD slot || s.share.listenAdopt.getLsbD slot
       || s.share.listenAdopt'.getLsbD slot
     let reclaims := (List.range 64).filter fun i =>
       decide ((s.ctx i).kind = .home) && (s.ctx i).slot.elim false held
     ∃ t, exec .listenEnd s = .next t
      ∧ t.profile.station = (if s.profile.runReached then .run else .config)
      ∧ t.frame = s.frame
      ∧ ∀ i < 64, ∀ slot, (s.ctx i).kind = .home → (s.ctx i).slot = some slot →
          (held slot = true →
            (t.ctx i).role = .reclaiming ∧ (t.ctx i).reclaim = some ⟨0, none, s.frame + 1⟩
            ∧ (slot < 128 → s.lane.queue.length + reclaims.length ≤ 16 →
                ⟨.reclaim (BitVec.ofNat 7 slot) s.me, s.frame, none⟩ ∈ t.lane.queue)
            ∧ (slot < 128 → (∃ e ∈ t.lane.queue, e.isReclaim slot = true) ∨ s.lane.drops < t.lane.drops
                ∨ t.lane.drops = 65535))
          ∧ (held slot = false →
            (t.ctx i).role = (s.ctx i).role
              ∧ (t.ctx i).callState =
                  (if s.profile.runReached = true ∧ (s.ctx i).transparent = false then .idle else .bypass)
              ∧ ∃ sv, (t.ctx i).serving = some sv ∧ sv.callPresent = false ∧ sv.idleRun = 0 ∧ sv.phase = 0
                  ∧ sv.profile = (s.ctx i).profile))

/-- RUN_ENTRY and CONFIG_TIMEOUT (R27, R29, R81, R82, R101, R112, R158, R174, R177): the station enters RUN,
run-reached is set and the absence counts are 0; a serving context in BYPASS stays there when transparent, goes to
IDLE when no call is present, and starts its call when one is: SEARCH, or TRACK with a budget of 0, with the profile
in use and the signal state set up. These starts request their blocks in ascending context number (the order is the
model's, log entry 8, and the offer's place in the start log entry 9): each takes up to its budget from the FIFO head
behind the blocks of those before it and binds them as any call start does; one that obtained fewer joins the
shortfall queue with a POOL SHORT notice, and a HOME-SERVING one makes its OFFER. That the event has a command of its
own, which acts when its condition stands, is the model's reading (log entry 3). -/
def Obligations.RunEntryRejudges : Prop :=
  ∀ (s : State) (c : Instr), s.profile.station = .config →
    ((c = .runEntry ∧ ∃ f, s.profile.runAccepted = some f ∧ f < s.frame)
      ∨ (c = .configTimeout ∧ s.profile.runAccepted = none ∧ 8000 ≤ s.profile.configFrames)) →
    ∃ t, exec c s = .next t
      ∧ t.profile.station = .run ∧ t.profile.runReached = true ∧ t.profile.profiles = s.profile.profiles
      ∧ t.highway = s.highway ∧ (∀ slot, t.share.absence.getD slot 0 = 0)
      ∧ (∀ i < 64, ∀ sv, (s.ctx i).serving = some sv → (s.ctx i).role.serves = true → (s.ctx i).callState = .bypass →
          ((s.ctx i).transparent = true → t.ctx i = s.ctx i)
          ∧ ((s.ctx i).transparent = false → sv.callPresent = false →
              (t.ctx i).callState = .idle ∧ (t.ctx i).search = none ∧ (t.ctx i).toneHold = false)
          ∧ ((s.ctx i).transparent = false → sv.callPresent = true → 1 ≤ (s.profileAt (s.ctx i).profile).reach →
              ∃ sv', (t.ctx i).serving = some sv'
                ∧ (t.ctx i).callState = (if (s.profileAt (s.ctx i).profile).budget = 0 then .track else .search)
                ∧ (t.ctx i).toneHold = false ∧ (t.ctx i).frozen = (s.ctx i).frozen
                ∧ sv'.callPresent = true ∧ sv'.idleRun = sv.idleRun ∧ sv'.phase = sv.phase
                ∧ sv'.profile = (s.ctx i).profile ∧ sv'.history = [] ∧ sv'.power = 0 ∧ sv'.hangover = 0
                ∧ sv'.dtFlag = false ∧ sv'.nlp = .opened ∧ sv'.noise = 64 ∧ sv'.hold = none ∧ sv'.pathRun = 0
                ∧ sv'.receive.gain = (s.profileAt (s.ctx i).profile).receiveG
                ∧ sv'.send.gain = (s.profileAt (s.ctx i).profile).sendG))
      ∧ (s.poolSound →
          (∀ k < 64, s.startsAtRun k = true →
            (s.profileAt (s.ctx k).profile).budget ≤ (s.profileAt (s.ctx k).profile).reach) →
          s.lane.queue.length + 2 * ((List.range 64).filter s.startsAtRun).length ≤ 16 →
          t.pool.fifo = s.pool.fifo.drop (s.requestedBefore 64)
          ∧ t.pool.shortfall = (List.range 64).filter (fun k => s.startsAtRun k
              && decide (s.pool.fifo.length < s.requestedBefore k + (s.profileAt (s.ctx k).profile).budget))
          ∧ ∀ i < 64, s.startsAtRun i = true →
              (let p := s.profileAt (s.ctx i).profile
               let free := s.pool.fifo.drop (s.requestedBefore i)
               let n := min p.budget free.length
               ∃ r, (t.ctx i).search = some r ∧ r.want = p.budget ∧ r.dwell = 0 ∧ r.retained = [] ∧ r.spare = []
                ∧ r.explored = List.range n ∧ r.bound.map (·.1) = List.range n
                ∧ (r.bound.map (·.2)).Perm (free.take n) ∧ (r.bound.map (·.2)).Pairwise (· < ·)
                ∧ (∀ jb ∈ r.bound, (t.tapBlock jb.2).state = .assigned
                    ∧ (t.tapBlock jb.2).owner = some ⟨i, s.slotOf i⟩ ∧ (t.tapBlock jb.2).segment = some jb.1
                    ∧ (t.tapBlock jb.2).entries = List.replicate 64 ⟨0, 0, 0⟩)
                ∧ (0 < n → r.pass = 1 ∧ r.status = .inPass) ∧ (n = 0 → r.pass = 0 ∧ r.status = .waiting)
                ∧ (n = p.budget ∨ (s.ctx i).role ≠ .homeServing →
                    (t.ctx i).role = (s.ctx i).role ∧ (t.ctx i).offer = (s.ctx i).offer)
                ∧ (n < p.budget → maskBit s.profile.noticeMask 3 = true →
                    ⟨.notice 3 (BitVec.ofNat 16 (s.slotOf i % 128 * 512 + (p.budget - n) % 32 * 16)) s.me, s.frame,
                      none⟩ ∈ t.lane.queue)
                ∧ (n < p.budget → (s.ctx i).role = .homeServing →
                    (t.ctx i).role = .homeOffering ∧ (t.ctx i).offer = some ⟨none, none⟩
                      ∧ ⟨.offer (BitVec.ofNat 7 (s.slotOf i)) (BitVec.ofNat 5 p.budget)
                          (BitVec.ofNat 3 (s.ctx i).profile) (if (s.ctx i).frozen = true then 1 else 0) s.me, s.frame,
                          none⟩ ∈ t.lane.queue)))

/-- The events whose condition no command leaves standing are taken in the command that brings them about (R13, R14,
R15, R16, R45, R169, R174, R177): the SAMPLE at block phase 31 goes on as the BLOCK_END of the state its stages leave,
the silent SAMPLE that completes the idle run as the CALL_END of the call, the second missed position as SYNC_LOSS,
the eighth spaced pulse as SYNC_LOCK or SYNC_REGAIN, the boundary after the 32nd frame of TEST as TEST_END and that
after the 16th of LISTEN as LISTEN_END, and CONFIG ends at its boundary. The commands of their own and the boundary's
order are the model's reading (log entries 3, 7 and 20). -/
def Obligations.EventsInTheirCommand : Prop :=
  (∀ (s : State) (slot : BitVec 7) (rin sin : Byte) (i : Nat) (sv : Serving),
    s.soundSample slot.toNat i sv rin sin → sv.phase = 31 →
    ∃ u v, exec (.sample slot rin sin []) s = exec (.blockEnd slot) u ∧ (u.ctx i).serving = some v
      ∧ u.servesWith slot.toNat i v ∧ v.phase = 32 ∧ v.history = sv.windowAt rin
      ∧ v.power = sv.power + (referenceOf sv.receive.gain rin).natAbs ^ 2 - (sv.history.getD 255 0).natAbs ^ 2
      ∧ v.block.sumY = sv.block.sumY + (expand sin).natAbs ^ 2
      ∧ v.block.sumE = sv.block.sumE + (s.errorOver (s.boundOf i) sv rin sin).natAbs ^ 2
      ∧ v.block.leadIn = sv.block.leadIn ∧ v.hold = sv.hold ∧ v.pathRun = sv.pathRun ∧ v.noise = sv.noise
      ∧ v.receive.gain = sv.receive.gain ∧ v.send.gain = sv.send.gain ∧ v.failed = []
      ∧ (u.ctx i).callState = (s.ctx i).callState ∧ (u.ctx i).search = (s.ctx i).search
      ∧ (u.ctx i).toneHold = (s.ctx i).toneHold ∧ u.pool.fifo = s.pool.fifo ∧ u.pool.shortfall = s.pool.shortfall
      ∧ u.lane = s.lane ∧ u.profile = s.profile ∧ ∀ k, k ≠ i → u.ctx k = s.ctx k)
  ∧ (∀ (s : State) (slot : BitVec 7) (rin sin : Byte) (i : Nat) (sv : Serving),
    s.servesWith slot.toNat i sv → i < s.table.contexts.length → s.highway.sync = .locked → sv.callPresent = true →
    silent s.highway.idleCodes rin sin = true → s.highway.idleCount ≤ min 4095 (sv.idleRun + 1) →
    ∃ t sv', exec (.sample slot rin sin []) s = .next t ∧ (t.ctx i).serving = some sv'
      ∧ ∃ v, exec (.callEnd slot) (s.setCtx i { s.ctx i with
            serving := some { sv with idleRun := min 4095 (sv.idleRun + 1), ending := true } }) = .next v
          ∧ sv'.callPresent = false ∧ sv'.idleRun = 0 ∧ t.pool = v.pool ∧ t.lane = v.lane
          ∧ (t.ctx i).callState = (v.ctx i).callState ∧ (t.ctx i).search = (v.ctx i).search
          ∧ (t.ctx i).toneHold = (v.ctx i).toneHold ∧ (t.ctx i).role = (v.ctx i).role
          ∧ ∀ k, k ≠ i → t.ctx k = v.ctx k)
  ∧ (∀ s : State, s.profile.station ≠ .held → s.highway.sync = .locked → 1 ≤ s.highway.miss →
      exec (.expectedPositionCheck false) s =
        exec .syncLoss { s with highway := { s.highway with miss := 2 } })
  ∧ (∀ (s : State) (clock : Nat), s.profile.station ≠ .held → s.highway.sync = .hunt → 7 ≤ s.highway.spacing →
      s.highway.lastPulse = some clock →
      exec (.frameSyncPulse (clock + 1024)) s =
        exec (if s.highway.framesLost ≠ 0 ∧ s.profile.station = .unsynced then .syncRegain else .syncLock)
          { s with highway := { s.highway with spacing := 8, lastPulse := some (clock + 1024) } })
  ∧ (∀ (s : State) (others : BitVec 128), s.highway.sync = .locked → s.profile.station = .test →
      31 ≤ s.profile.testFrames → s.lane.recalled = [] →
      exec (.frameBoundary others) s =
        exec .testEnd { s with frame := s.frame + 1, profile := { s.profile with testFrames := 32 } })
  ∧ (∀ s : State, s.highway.sync = .hunt → s.highway.framesLost = 0 → s.profile.station = .test →
      31 ≤ s.profile.testFrames →
      exec .huntPeriod s = exec .testEnd { s with profile := { s.profile with testFrames := 32 } })
  ∧ (∀ (s : State) (others : BitVec 128), s.highway.sync = .locked → s.profile.station = .listen →
      15 ≤ s.profile.listenFrames → s.lane.recalled = [] →
      exec (.frameBoundary others) s =
        exec .listenEnd { s with
          frame := s.frame + 1
          profile := { s.profile with listenFrames := 16 }
          lane := { s.lane with markRecord := others ||| s.marks, ownRecord := s.marks }
          share := { s.share with listenMarks := others ||| s.marks, listenMarks' := s.share.listenMarks } })
  ∧ ∀ (s : State) (others : BitVec 128), s.highway.sync = .locked → s.profile.station = .config →
      ((∃ f, s.profile.runAccepted = some f ∧ f ≤ s.frame)
        ∨ (s.profile.runAccepted = none ∧ 7999 ≤ s.profile.configFrames)) →
      ∃ t, exec (.frameBoundary others) s = .next t ∧ t.profile.station = .run ∧ t.profile.runReached = true

/-! ### Samples -/

/-- SAMPLE, the output lines and the pipeline of the slot in every call state (R2 to R4, R6, R7): of a slot that this
station does not serve the lines stay at high impedance, the pair due is discarded, and no context, block or lane
state changes; of a served slot the first pair placed for this frame is driven, or D5h on both lines when there is
none, one pair joins for two frames later, and no other slot's pipeline changes. In BYPASS and DISABLED, and in IDLE
while silent, that pair is the codes themselves. -/
def Obligations.PassingSlotsAndPipeline : Prop :=
  (∀ (s : State) (slot : BitVec 7) (rin sin : Byte) (upsets : List TapUpset),
    s.profile.station ≠ .held → s.highway.sync = .locked → s.servedBy slot.toNat = none →
    ∃ t, exec (.sample slot rin sin upsets) s = .next t
      ∧ t.highway.lines = ⟨some slot.toNat, none⟩
      ∧ (∀ p ∈ t.highway.pipeline.getD slot.toNat [], s.frame < p.frame)
      ∧ (∀ k, k ≠ slot.toNat → t.highway.pipeline.getD k [] = s.highway.pipeline.getD k [])
      ∧ t.table = s.table ∧ t.pool = s.pool ∧ t.lane = s.lane ∧ t.share = s.share ∧ t.profile = s.profile
      ∧ t.frame = s.frame)
  ∧ ∀ (s : State) (slot : BitVec 7) (rin sin : Byte) (upsets : List TapUpset) (i : Nat) (sv : Serving),
    s.servesWith slot.toNat i sv → s.highway.sync = .locked → s.highway.pipeline.length = 128 →
    ∃ t p, exec (.sample slot rin sin upsets) s = .next t ∧ (t.highway.pipeline.getD slot.toNat []).getLast? = some p
      ∧ t.highway.lines.slot = some slot.toNat
      ∧ ((∀ q ∈ s.highway.pipeline.getD slot.toNat [], q.frame ≠ s.frame) →
          t.highway.lines.codes = some ⟨0xD5, 0xD5⟩)
      ∧ (∀ q, (s.highway.pipeline.getD slot.toNat []).find? (fun q => decide (q.frame = s.frame)) = some q →
          t.highway.lines.codes = some q.codes)
      ∧ p.frame = s.frame + 2
      ∧ t.highway.pipeline.getD slot.toNat [] =
          (s.highway.pipeline.getD slot.toNat []).filter (fun q => decide (s.frame < q.frame)) ++ [p]
      ∧ (∀ k, k ≠ slot.toNat → t.highway.pipeline.getD k [] = s.highway.pipeline.getD k [])
      ∧ ((s.ctx i).callState = .bypass ∨ (s.ctx i).callState = .disabled
            ∨ ((s.ctx i).callState = .idle ∧ silent s.highway.idleCodes rin sin = true) →
          p.codes = ⟨rin, sin⟩)
      ∧ t.share = s.share ∧ t.profile = s.profile ∧ t.frame = s.frame

/-- SAMPLE in SEARCH or TRACK, its reference and double-talk test (R10, R39 to R41, R60, R61, R116): ROUT is the
compression of the gained RIN, the reference is that code's expansion, it enters the history as the newest of 1024, P
sums the 256 newest squares, and the hangover becomes 240 when twice the SIN magnitude exceeds every history magnitude
and otherwise counts down. -/
def Obligations.SampleReferenceAndDoubleTalk : Prop :=
  ∀ (s : State) (slot : BitVec 7) (rin sin : Byte) (i : Nat) (sv : Serving),
    s.plainSample slot.toNat i sv rin sin → s.highway.pipeline.length = 128 →
    ∃ t sv', exec (.sample slot rin sin []) s = .next t ∧ (t.ctx i).serving = some sv'
      ∧ ((t.highway.pipeline.getD slot.toNat []).getLast?.map fun p => (p.frame, p.codes.rout)) =
          some (s.frame + 2, compress (saturate 4095 (roundDiv (expand rin * linearGain sv.receive.gain) 4096)))
      ∧ sv'.history = referenceOf sv.receive.gain rin :: sv.history.take 1023
      ∧ sv'.power = sv.power + (referenceOf sv.receive.gain rin).natAbs ^ 2 - (sv.history.getD 255 0).natAbs ^ 2
      ∧ sv'.hangover = (if ∀ x ∈ sv.history, x.natAbs < 2 * (expand sin).natAbs then 240 else sv.hangover - 1)
      ∧ (sv'.dtFlag = true ↔ 0 < sv'.hangover)
      ∧ sv'.phase = sv.phase + 1 ∧ sv'.receive.gain = sv.receive.gain ∧ sv'.send.gain = sv.send.gain
      ∧ sv'.noise = sv.noise ∧ sv'.hold = sv.hold ∧ (t.ctx i).callState = (s.ctx i).callState
      ∧ (t.ctx i).search = (s.ctx i).search
      ∧ t.pool.fifo = s.pool.fifo ∧ t.pool.shortfall = s.pool.shortfall ∧ t.share = s.share ∧ t.profile = s.profile
      ∧ ∀ k, k ≠ i → t.ctx k = s.ctx k

/-- SAMPLE in SEARCH or TRACK, its send path and its sums (R42, R43, R50, R62, R65 to R67, R69, R73, R75, R116, R118,
R129): the error is SIN less the rounded sum of h · x over the bound segments, both saturated; the inactive count; the
NLP state reached; and SOUT, gained by the send gain from the error while OPEN, from round(u · floor(sqrt(3 ·
N_noise)) / 2048) or silence while CLOSED. P_in of each direction sums its 256 newest inputs, the RIN expansion and
that value; a gained output beyond ±4095 marks the direction's peak record; the block stays clean while the DT flag is
clear and records an active reference; and with the tone switch on x · c_n, x · s_n and x² of the RIN and the SIN
expansion join the tone sums, c_n and s_n the values of R129 at the block phase. In DISABLED the tone sums gather the
same, and nothing else of the signal state changes (R54, R129). -/
def Obligations.SampleSendPath : Prop :=
  (∀ (s : State) (slot : BitVec 7) (rin sin : Byte) (i : Nat) (sv : Serving),
    s.plainSample slot.toNat i sv rin sin → s.highway.pipeline.length = 128 → sv.noise ≤ 16384 →
    ∃ t sv', exec (.sample slot rin sin []) s = .next t ∧ (t.ctx i).serving = some sv'
      ∧ (let active : Prop := 256 ≤ sv'.power / 256
         let e := s.errorOver (s.boundOf i) sv rin sin
         let noise := generatorRun 12 0 sv.generator
         sv'.inactive = (if active then 0 else min 1024 (sv.inactive + 1))
         ∧ sv'.generator = noise.2
         ∧ (sv.nlp = .opened →
             (sv'.nlp = .closed ↔
               (s.profileOf i).nlp = true ∧ (s.ctx i).toneHold = false ∧ active ∧ sv'.dtFlag = false))
         ∧ (sv.nlp = .closed →
             (sv'.nlp = .opened ↔ sv'.dtFlag = true
               ∨ (64 ≤ sv'.inactive ∧ ∀ jb ∈ s.boundOf i, 64 * (jb.1 + 1) ≤ sv'.inactive)))
         ∧ sv'.block.sumY = sv.block.sumY + (expand sin).natAbs ^ 2
         ∧ sv'.block.sumE = sv.block.sumE + e.natAbs ^ 2
         ∧ (sv'.block.clean = true ↔ sv.block.clean = true ∧ sv'.dtFlag = false)
         ∧ (sv'.block.activeSeen = true ↔ sv.block.activeSeen = true ∨ active)
         ∧ (let value := if sv'.nlp = .opened then e
              else if (s.profileOf i).comfortNoise then roundDiv (noiseValue noise.1 * Nat.sqrt (3 * sv.noise)) 2048
              else 0
            ((t.highway.pipeline.getD slot.toNat []).getLast?.map fun p => p.codes.sout) =
              some (compress (saturate 4095 (roundDiv (value * linearGain sv.send.gain) 4096)))
            ∧ sv.receive.staged (expand rin) sv'.receive ∧ sv.send.staged value sv'.send)
         ∧ ((s.profileOf i).tone = true →
             sv'.toneReceive = sv.toneReceive.gathered sv.phase (expand rin)
               ∧ sv'.toneSend = sv.toneSend.gathered sv.phase (expand sin))
         ∧ ((s.profileOf i).tone = false → sv'.toneReceive = sv.toneReceive ∧ sv'.toneSend = sv.toneSend)))
  ∧ ∀ (s : State) (slot : BitVec 7) (rin sin : Byte) (upsets : List TapUpset) (i : Nat) (sv : Serving),
    s.servesWith slot.toNat i sv → s.highway.sync = .locked → (s.ctx i).callState = .disabled →
    sv.callPresent = true → (silent s.highway.idleCodes rin sin = true → sv.idleRun + 1 < s.highway.idleCount) →
    sv.phase + 1 < 32 →
    (let quiet := silent s.highway.idleCodes rin sin
     let tone := fun sv : Serving => if (s.profileOf i).tone = true then
       { sv with toneReceive := sv.toneReceive.gathered sv.phase (expand rin)
                 toneSend := sv.toneSend.gathered sv.phase (expand sin) } else sv
     ∃ t, exec (.sample slot rin sin upsets) s = .next t
      ∧ t.ctx i = { s.ctx i with serving := some { tone sv with
          idleRun := if quiet = true then min 4095 (sv.idleRun + 1) else 0, ending := false, phase := sv.phase + 1 } }
      ∧ t.pool = s.pool ∧ t.lane = s.lane ∧ ∀ k, k ≠ i → t.ctx k = s.ctx k)

/-- SAMPLE in SEARCH or TRACK, its gradient sums (R46, R47): on a contributing sample e · x(n − 64j − k) is added to
Gc of every entry k of every bound segment j; nothing else of any block changes, and on another sample no block
changes. -/
def Obligations.SampleGathersGradients : Prop :=
  ∀ (s : State) (slot : BitVec 7) (rin sin : Byte) (i : Nat) (sv : Serving),
    s.plainSample slot.toNat i sv rin sin → s.boundDistinct i →
    ∃ t sv', exec (.sample slot rin sin []) s = .next t ∧ (t.ctx i).serving = some sv'
      ∧ (let contributes : Prop := (s.ctx i).frozen = false ∧ (s.ctx i).toneHold = false ∧ 256 ≤ sv'.power / 256
            ∧ sv'.dtFlag = false
         let e := s.errorOver (s.boundOf i) sv rin sin
         (contributes → sv'.block.count = sv.block.count + 1)
         ∧ (¬contributes → sv'.block.count = sv.block.count ∧ t.pool.blocks = s.pool.blocks)
         ∧ (contributes →
             (∀ jb ∈ s.boundOf i, (s.tapBlock jb.2).entries.length = 64 →
               (∀ k < 64,
                 (t.tapBlock jb.2).entries.getD k ⟨0, 0, 0⟩ =
                   { (s.tapBlock jb.2).entries.getD k ⟨0, 0, 0⟩ with
                     gc := ((s.tapBlock jb.2).entries.getD k ⟨0, 0, 0⟩).gc
                       + e * (sv.windowAt rin).getD (64 * jb.1 + k) 0 })
               ∧ t.tapBlock jb.2 = { s.tapBlock jb.2 with entries := (t.tapBlock jb.2).entries })
             ∧ ∀ b, (∀ jb ∈ s.boundOf i, jb.2 ≠ b) → t.tapBlock b = s.tapBlock b))

/-- SAMPLE that meets one wrong bit in an entry of a bound block (R106 to R108): all goes as without it, but the
block's corrected count rises by 1; when the count has reached 16 the block retires at once, which with no FREE block
leaves the retire-pending mark, and with FREE blocks moves owner, segment, coefficients and sums to the FIFO head, the
lowest SPARE block following to the tail. Two wrong bits in one entry (R44, R92, R93, R107, R110 to R112): the block
fails with its count at 0 and a BLOCK RETIRED notice of cause 3, the estimate and the error are formed over the other
segments, the lowest SPARE block is placed, and the FIFO head takes over the segment with its entries at zero; with no
FREE block the segment is unfilled in TRACK, where the context waits in the shortfall queue with a POOL SHORT notice,
and in SEARCH it leaves map, explored set and retained set, the search going on over the bound segments that are left,
on a new pass from the spare hand, or WAITING in the queue. How an entry holds its wrong bits, the order of the pool's
acts, and where the promoted spare goes are the model's readings (log entries 6, 8 and 12). -/
def Obligations.SampleFindsMemoryErrors : Prop :=
  ∀ (s : State) (slot : BitVec 7) (rin sin : Byte) (i : Nat) (sv : Serving) (r : SearchRecord) (j b : Nat)
    (entry : BitVec 6), s.plainSample slot.toNat i sv rin sin → s.poolSound → (s.ctx i).search = some r →
    (j, b) ∈ r.bound →
    ∃ t0 sv0, exec (.sample slot rin sin []) s = .next t0 ∧ (t0.ctx i).serving = some sv0 ∧
    (∃ t, exec (.sample slot rin sin [⟨BitVec.ofNat 9 b, entry, 1⟩]) s = .next t
      ∧ ((s.tapBlock b).corrected + 1 < 16 ∨ (s.tapBlock b).retirePending = true →
          t = t0.modBlock b fun u => { u with corrected := min 255 ((s.tapBlock b).corrected + 1) })
      ∧ (16 ≤ (s.tapBlock b).corrected + 1 → (s.tapBlock b).retirePending = false →
          (s.pool.fifo = [] → t = t0.modBlock b fun u =>
            { u with corrected := min 255 ((s.tapBlock b).corrected + 1), retirePending := true })
          ∧ ∀ h, s.pool.fifo.head? = some h →
              t.pool.fifo = s.pool.fifo.drop 1
                  ++ ((List.range 264).filter fun a => (s.tapBlock a).state == .spare).take 1
                ∧ (t.tapBlock b).state = .failed ∧ (t.tapBlock b).corrected = min 255 ((s.tapBlock b).corrected + 1)
                ∧ (t.tapBlock h).state = .assigned ∧ (t.tapBlock h).owner = (s.tapBlock b).owner
                ∧ (t.tapBlock h).segment = some j ∧ (t.tapBlock h).entries = (t0.tapBlock b).entries
                ∧ t.boundOf i = r.bound.map (fun jb => if jb = (j, b) then (j, h) else jb)
                ∧ (t.ctx i).serving = some sv0 ∧ t.highway = t0.highway
                ∧ ∀ k, k ≠ i → t.ctx k = s.ctx k))
    ∧ ∃ t sv' r', exec (.sample slot rin sin [⟨BitVec.ofNat 9 b, entry, 2⟩]) s = .next t
      ∧ (t.ctx i).serving = some sv' ∧ (t.ctx i).search = some r'
      ∧ (t.tapBlock b).state = .failed ∧ (t.tapBlock b).corrected = 0 ∧ (t.tapBlock b).owner = (s.tapBlock b).owner
      ∧ (t.tapBlock b).retirePending = false ∧ sv'.failed = [j]
      ∧ sv'.block.sumE = sv.block.sumE
          + (s.errorOver (r.bound.filter fun jb => decide (jb.1 ≠ j)) sv rin sin).natAbs ^ 2
      ∧ sv'.history = sv0.history ∧ sv'.hangover = sv0.hangover ∧ sv'.block.count = sv0.block.count
      ∧ (maskBit s.profile.noticeMask 5 = true → s.lane.queue.length ≤ 13 →
          ⟨.notice 5 (BitVec.ofNat 16 (b * 128 + 3 * 32)) s.me, s.frame, none⟩ ∈ t.lane.queue)
      ∧ (s.pool.shortfall = [] →
          (let free := s.pool.fifo ++ ((List.range 264).filter fun a => (s.tapBlock a).state == .spare).take 1
           (∀ h, free.head? = some h →
              t.pool.fifo = free.drop 1 ∧ t.pool.shortfall = []
              ∧ r'.bound = r.bound.map (fun jb => if jb = (j, b) then (j, h) else jb)
              ∧ (t.tapBlock h).state = .assigned ∧ (t.tapBlock h).segment = some j
              ∧ (t.tapBlock h).owner = some ⟨i, s.slotOf i⟩
              ∧ (t.tapBlock h).entries = List.replicate 64 ⟨0, 0, 0⟩
              ∧ r'.want = r.want ∧ r'.spare = r.spare ∧ r'.retained = r.retained
              ∧ (t.ctx i).callState = (s.ctx i).callState)))
      ∧ (s.pool.fifo = [] → s.countBlocks .spare = 0 →
          ((s.ctx i).callState = .track →
              r'.map = r.map.map (fun e => if e.number = j then { e with fill := .unfilled } else e)
              ∧ r'.want = r.want ∧ (t.ctx i).callState = .track
              ∧ sv'.pathRun = (if r'.bound = [] then 0 else sv.pathRun)
              ∧ t.pool.shortfall = (if i ∈ s.pool.shortfall then s.pool.shortfall else s.pool.shortfall ++ [i])
              ∧ (i ∉ s.pool.shortfall → maskBit s.profile.noticeMask 3 = true → s.lane.queue.length ≤ 13 →
                  ⟨.notice 3 (BitVec.ofNat 16 (s.slotOf i % 128 * 512 + (r.want + 1 - r.held) % 32 * 16)) s.me, s.frame,
                    none⟩ ∈ t.lane.queue))
          ∧ ((s.ctx i).callState = .search →
              (t.ctx i).callState = .search ∧ sv'.pathRun = sv.pathRun
              ∧ r'.retained = r.retained.filter (fun a => decide (a ≠ j))
              ∧ (2 ≤ r.bound.length →
                  r'.want = r.want ∧ r'.map = r.map.filter (fun e => decide (e.number ≠ j))
                  ∧ r'.explored = r.explored.filter (fun a => decide (a ≠ j)) ∧ r'.pass = r.pass
                  ∧ r'.status = r.status ∧ r'.dwell = r.dwell ∧ r'.spare = r.spare
                  ∧ t.pool.shortfall = s.pool.shortfall)
              ∧ (r.bound.length = 1 → r.spare ≠ [] →
                  r'.pass = min 255 (r.pass + 1) ∧ r'.status = .inPass ∧ r'.dwell = 0 ∧ r'.spare = []
                  ∧ r'.bound ≠ [])
              ∧ (r.bound.length = 1 → r.spare = [] → 0 < r.want →
                  r'.want = r.want ∧ r'.map = [] ∧ r'.explored = r.explored.filter (fun a => decide (a ≠ j))
                  ∧ r'.pass = r.pass ∧ r'.status = .waiting ∧ r'.dwell = 0
                  ∧ t.pool.shortfall = (if i ∈ s.pool.shortfall then s.pool.shortfall else s.pool.shortfall ++ [i]))))

/-- SAMPLE, idle recognition in every call state (R12, R13, R164): a silent sample raises the idle run count,
saturating at 4095, or ends the call when it completes the idle count, and any other sets it to 0 with call-present
set; in BYPASS the codes still pass and no block or search is touched; and a call start of a server withdraws the
RETURN it has queued, at once between cells and by the end of the cell under way otherwise (the model's reading of
R152, log entry 31), and keeps its pending-RETURN flag. SAMPLE that starts a call from IDLE in RUN (R12, R26, R27,
R60, R73): call-present is set, the profile number comes into use, the call state becomes SEARCH, or TRACK with a
budget of 0, the history holds this sample's reference alone, and the first sample sets the hangover to 240. -/
def Obligations.IdleRecognitionAndCallStart : Prop :=
  (∀ (s : State) (slot : BitVec 7) (rin sin : Byte) (upsets : List TapUpset) (i : Nat) (sv : Serving),
    s.servesWith slot.toNat i sv → s.highway.sync = .locked → (s.ctx i).slot = some slot.toNat →
    (let quiet := silent s.highway.idleCodes rin sin
     let run := min 4095 (sv.idleRun + 1)
     let ends : Bool := sv.callPresent && decide (s.highway.idleCount ≤ run)
     ∃ t sv', exec (.sample slot rin sin upsets) s = .next t ∧ (t.ctx i).serving = some sv'
      ∧ sv'.callPresent = (if quiet = true then sv.callPresent && !ends else true)
      ∧ sv'.idleRun = (if quiet = true ∧ ends = false then run else 0)
      ∧ (t.ctx i).pendingReturn = (s.ctx i).pendingReturn
      ∧ ((s.ctx i).callState = .bypass →
          (t.ctx i).callState = .bypass ∧ (t.ctx i).search = (s.ctx i).search ∧ t.pool = s.pool)
      ∧ (quiet = false → sv.callPresent = false → (s.ctx i).role = .taken ∨ (s.ctx i).role = .actingHome →
          (s.lane.cell = none → ∀ e ∈ t.lane.queue, e.isReturn slot.toNat = false)
          ∧ (s.lane.cell ≠ none → ∀ e ∈ s.lane.queue, e.isReturn slot.toNat = true → e ∈ t.lane.recalled))))
  ∧ ∀ (s : State) (slot : BitVec 7) (rin sin : Byte) (i : Nat) (sv : Serving),
    s.servesWith slot.toNat i sv → s.highway.sync = .locked → s.profile.station = .run →
    (s.ctx i).callState = .idle → sv.callPresent = false → silent s.highway.idleCodes rin sin = false →
    (let p := s.profileAt (s.ctx i).profile
     1 ≤ p.reach →
     ∃ t sv', exec (.sample slot rin sin []) s = .next t ∧ (t.ctx i).serving = some sv'
       ∧ (t.ctx i).callState = (if p.budget = 0 then .track else .search)
       ∧ (t.ctx i).toneHold = false ∧ (t.ctx i).frozen = (s.ctx i).frozen
       ∧ sv'.callPresent = true ∧ sv'.idleRun = 0 ∧ sv'.profile = (s.ctx i).profile
       ∧ sv'.history = [referenceOf p.receiveG rin] ∧ sv'.power = (referenceOf p.receiveG rin).natAbs ^ 2
       ∧ sv'.hangover = 240 ∧ sv'.dtFlag = true ∧ sv'.nlp = .opened ∧ sv'.noise = 64
       ∧ sv'.receive.gain = p.receiveG ∧ sv'.send.gain = p.sendG ∧ sv'.pathRun = 0 ∧ sv'.msSin = 0 ∧ sv'.msErr = 0
       ∧ sv'.generator = (generatorRun 12 0 (BitVec.ofNat 23 (s.slotOf i + 1))).2
       ∧ ∀ k, k ≠ i → (t.ctx k).steady = (s.ctx k).steady)

/-- SAMPLE that starts a call from IDLE in RUN, and the blocks it obtains (R81, R82, R101, R112, R158): with no
context waiting the call takes blocks from the FIFO head up to its budget and none otherwise; they are bound, in
ascending number and at zero, to segments 0, 1, .. in pass 1, or the search waits in pass 0; a call that obtained
fewer than its budget joins the shortfall queue with a POOL SHORT notice, and a HOME-SERVING context becomes
HOME-OFFERING with an OFFER of its whole budget in the send queue. That the offer comes before the pass start is the
model's reading (log entry 9). -/
def Obligations.CallStartRequestsBlocks : Prop :=
  ∀ (s : State) (slot : BitVec 7) (rin sin : Byte) (i : Nat) (sv : Serving),
    s.servesWith slot.toNat i sv → s.highway.sync = .locked → s.profile.station = .run →
    (s.ctx i).callState = .idle → sv.callPresent = false → silent s.highway.idleCodes rin sin = false → s.poolSound →
    (s.ctx i).slot = some slot.toNat → s.lane.queue.length ≤ 13 →
    (let p := s.profileAt (s.ctx i).profile
     let n := if s.pool.shortfall = [] then min p.budget s.pool.fifo.length else 0
     0 < p.budget → p.budget ≤ 16 → n ≤ p.reach →
     ∃ t r, exec (.sample slot rin sin []) s = .next t ∧ (t.ctx i).search = some r
       ∧ (t.ctx i).callState = .search ∧ r.want = p.budget ∧ r.dwell = 0 ∧ r.retained = [] ∧ r.spare = []
       ∧ r.explored = List.range n ∧ r.bound.map (·.1) = List.range n
       ∧ (r.bound.map (·.2)).Perm (s.pool.fifo.take n) ∧ (r.bound.map (·.2)).Pairwise (· < ·)
       ∧ (∀ jb ∈ r.bound, (t.tapBlock jb.2).state = .assigned ∧ (t.tapBlock jb.2).owner = some ⟨i, slot.toNat⟩
           ∧ (t.tapBlock jb.2).segment = some jb.1 ∧ (t.tapBlock jb.2).entries = List.replicate 64 ⟨0, 0, 0⟩)
       ∧ (0 < n → r.pass = 1 ∧ r.status = .inPass) ∧ (n = 0 → r.pass = 0 ∧ r.status = .waiting)
       ∧ t.pool.fifo = s.pool.fifo.drop n
       ∧ t.pool.shortfall = (if n < p.budget then s.pool.shortfall ++ [i] else s.pool.shortfall)
       ∧ (n = p.budget ∨ (s.ctx i).role ≠ .homeServing →
           (t.ctx i).role = (s.ctx i).role ∧ (t.ctx i).offer = (s.ctx i).offer)
       ∧ (n < p.budget → maskBit s.profile.noticeMask 3 = true →
           ⟨.notice 3 (BitVec.ofNat 16 (slot.toNat * 512 + (p.budget - n) * 16)) s.me, s.frame, none⟩ ∈ t.lane.queue)
       ∧ (n < p.budget → (s.ctx i).role = .homeServing →
           (t.ctx i).role = .homeOffering ∧ (t.ctx i).offer = some ⟨none, none⟩
             ∧ ⟨.offer slot (BitVec.ofNat 5 p.budget) (BitVec.ofNat 3 (s.ctx i).profile)
                 (if (s.ctx i).frozen = true then 1 else 0) s.me, s.frame, none⟩ ∈ t.lane.queue))

/-- CALL_END (R13, R25, R28): when the silent sample before it brought the call's end, call-present clears and the
idle run count becomes 0; a call in SEARCH, TRACK or DISABLED goes to IDLE, its search record is discarded and tone
hold cleared; what it releases changes no more of the other contexts than blocks and searches. Without such a sample
nothing changes. That the event has a command of its own, which acts when its condition stands, is the model's reading
(log entry 3). -/
def Obligations.CallEndGoesIdle : Prop :=
  ∀ (s : State) (slot : BitVec 7) (i : Nat) (sv : Serving),
    s.servesWith slot.toNat i sv →
    (sv.callPresent = false ∨ sv.ending = false → exec (.callEnd slot) s = .next s)
    ∧ (sv.callPresent = true → sv.ending = true →
      ∃ t sv', exec (.callEnd slot) s = .next t ∧ (t.ctx i).serving = some sv'
        ∧ sv'.callPresent = false ∧ sv'.idleRun = 0 ∧ sv'.ending = false ∧ sv'.history = sv.history
        ∧ sv'.noise = sv.noise
        ∧ ((s.ctx i).callState.processes = true ∨ (s.ctx i).callState = .disabled →
            (t.ctx i).callState = .idle ∧ (t.ctx i).search = none ∧ (t.ctx i).toneHold = false
              ∧ sv'.toneReceive = Tone.cleared ∧ sv'.toneSend = Tone.cleared)
        ∧ ((s.ctx i).callState = .bypass → (t.ctx i).callState = .bypass ∧ t.pool = s.pool ∧ t.lane = s.lane)
        ∧ t.outside = s.outside ∧ ∀ k, k ≠ i → (t.ctx k).steady = (s.ctx k).steady)

/-- CALL_END of a call that holds one block, while contexts wait for blocks (R91, R102, R103, R109, R111, R161): the
block, or the lowest SPARE block when it bears a retire-pending mark and so fails, goes to the context at the queue
head and not to the FIFO: into its spare hand in a pass, to its lowest unexplored segment in a new pass when it was
WAITING, or to its first unfilled plan segment in TRACK; a context that has its want then leaves the queue, its open
offer cancelled. That the event has a command of its own, which acts when its condition stands, and that the pool's
acts are taken depth first, are the model's readings (log entries 3 and 8). -/
def Obligations.ReleasedBlockGoesToQueueHead : Prop :=
  ∀ (s : State) (slot : BitVec 7) (i h b g : Nat) (sv : Serving) (r : SearchRecord) (rest : List Nat),
    s.servesWith slot.toNat i sv → sv.callPresent = true → sv.ending = true → (s.ctx i).callState.processes = true →
    s.poolSound → s.heldBlocks i = [b] → i ∉ s.pool.shortfall → s.pool.shortfall = h :: rest →
    (s.ctx h).search = some r →
    (((s.tapBlock b).retirePending = false ∧ g = b)
      ∨ ((s.tapBlock b).retirePending = true
        ∧ ((List.range 264).filter fun a => (s.tapBlock a).state == .spare).head? = some g)) →
    ((s.ctx h).callState = .track ∨ r.status = .inPass
      ∨ (r.spare = [] ∧ r.unexplored (s.profileOf h).reach ≠ [])) →
    ∃ t r', exec (.callEnd slot) s = .next t ∧ (t.ctx h).search = some r'
      ∧ ((s.tapBlock b).retirePending = true → (t.tapBlock b).state = .failed ∧ (t.tapBlock b).retirePending = false)
      ∧ (t.tapBlock g).owner = some ⟨h, s.slotOf h⟩ ∧ t.pool.fifo = [] ∧ r'.want = r.want
      ∧ ((s.ctx h).callState = .search → r.status = .inPass →
          r'.spare.Perm (g :: r.spare) ∧ r'.map = r.map ∧ r'.pass = r.pass ∧ r'.dwell = r.dwell
            ∧ (t.tapBlock g).state = .reserved ∧ (t.tapBlock g).segment = none)
      ∧ (∀ j, (s.ctx h).callState = .search → r.status = .waiting → r.spare = [] →
          (r.unexplored (s.profileOf h).reach).head? = some j →
          (j, g) ∈ r'.bound ∧ r'.bound.length = r.bound.length + 1 ∧ j ∈ r'.explored ∧ r'.spare = []
            ∧ r'.pass = min 255 (r.pass + 1) ∧ r'.status = .inPass ∧ r'.dwell = 0
            ∧ (t.tapBlock g).state = .assigned ∧ (t.tapBlock g).segment = some j
            ∧ (t.tapBlock g).entries = List.replicate 64 ⟨0, 0, 0⟩)
      ∧ (∀ e, r.map.find? (fun e => e.fill == .unfilled) = some e → (s.ctx h).callState = .track →
          r'.map = r.map.map (fun x => if x.number = e.number then { x with fill := .block g } else x)
            ∧ (t.ctx h).callState = .track
            ∧ (t.tapBlock g).state = .assigned ∧ (t.tapBlock g).segment = some e.number
            ∧ (t.tapBlock g).entries = List.replicate 64 ⟨0, 0, 0⟩)
      ∧ (r.want ≤ r.held + 1 →
          t.pool.shortfall = rest
            ∧ ((s.ctx h).role = .homeOffering → (s.ctx h).stopAt = none →
                (t.ctx h).role = .homeServing ∧ (t.ctx h).offer = none))
      ∧ (r.held + 1 < r.want →
          t.pool.shortfall = h :: rest ∧ (t.ctx h).role = (s.ctx h).role ∧ (t.ctx h).offer = (s.ctx h).offer)

/-- RETIREMENT (R108, R111, R112): with no FREE block the block takes the retire-pending mark and nothing else
changes; with FREE blocks and no context waiting the FIFO head takes its place with its entries, in the owner's
segment map too, the block becomes FAILED with its corrected count, and the lowest SPARE block joins the FIFO tail.
That the event has a command of its own, which acts when its condition stands, is the model's reading (log entry 3).
-/
def Obligations.RetirementMigratesOrMarks : Prop :=
  ∀ (s : State) (b : BitVec 9), s.profile.station ≠ .held → b.toNat < 264 → s.pool.blocks.length = 264 →
    (s.tapBlock b.toNat).state = .assigned → 16 ≤ (s.tapBlock b.toNat).corrected →
    (s.tapBlock b.toNat).retirePending = false →
    (s.pool.fifo = [] →
      exec (.retirement b) s = .next (s.modBlock b.toNat fun t => { t with retirePending := true }))
    ∧ ∀ (h : Nat) (rest : List Nat) (o : Owner) (j : Nat), s.pool.fifo = h :: rest → h < 264 →
        (s.tapBlock h).state = .free → s.pool.shortfall = [] → (s.tapBlock b.toNat).owner = some o →
        (s.tapBlock b.toNat).segment = some j →
        ∃ t, exec (.retirement b) s = .next t
          ∧ (t.tapBlock h).state = .assigned ∧ (t.tapBlock h).owner = some o ∧ (t.tapBlock h).segment = some j
          ∧ (t.tapBlock h).entries = (s.tapBlock b.toNat).entries
          ∧ (t.tapBlock h).corrected = (s.tapBlock h).corrected
          ∧ (t.tapBlock b.toNat).state = .failed ∧ (t.tapBlock b.toNat).owner = some o
          ∧ (t.tapBlock b.toNat).corrected = (s.tapBlock b.toNat).corrected
          ∧ (t.tapBlock b.toNat).retirePending = false
          ∧ t.pool.fifo = rest ++ ((List.range 264).filter fun a => (s.tapBlock a).state == .spare).take 1
          ∧ (∀ r, (s.ctx o.context).search = some r →
              t.ctx o.context = { s.ctx o.context with search := some { r with
                map := r.map.map fun e => if e.number = j then { e with fill := .block h } else e } })
          ∧ (∀ k, k ≠ o.context → t.ctx k = s.ctx k)
          ∧ t.outside = s.outside ∧ ∀ k, (t.ctx k).steady = (s.ctx k).steady

/-! ### Timed events, block ends and searches -/

/-- DT_HANGOVER_END (R61), NLP_HANGOVER_EXPIRY (R67), TONE_HOLD (R68, R130) and TONE_HOLD_RELEASE (R134): what each
changes in the serving parts when it is due, and that nothing else of the station changes. That the event has a
command of its own, which acts when its condition stands, is the model's reading (log entry 3). -/
def Obligations.HangoverAndToneHoldEvents : Prop :=
  ∀ (s : State) (slot : BitVec 7) (i : Nat) (sv : Serving), s.servesWith slot.toNat i sv →
    (sv.dtFlag = true → sv.hangover = 0 →
      exec (.dtHangoverEnd slot) s = .next (s.setCtx i { s.ctx i with serving := some { sv with dtFlag := false } }))
    ∧ ((s.ctx i).callState.processes = true → sv.nlp = .closed → 64 ≤ sv.inactive →
        (∀ jb ∈ s.boundOf i, 64 * (jb.1 + 1) ≤ sv.inactive) →
        exec (.nlpHangoverExpiry slot) s =
          .next (s.setCtx i { s.ctx i with serving := some { sv with nlp := .opened } }))
    ∧ ((s.ctx i).callState.processes = true → (sv.toneReceive.qualified = true ∨ sv.toneSend.qualified = true) →
        (s.ctx i).toneHold = false →
        ∃ t, exec (.toneHold slot) s = .next t
          ∧ t.ctx i = { s.ctx i with toneHold := true, serving := some { sv with nlp := .opened, inactive := 0 } }
          ∧ (∀ k, k ≠ i → t.ctx k = s.ctx k) ∧ t.pool = s.pool ∧ t.lane = s.lane ∧ t.outside = s.outside)
    ∧ ((s.ctx i).callState.processes = true → (s.ctx i).toneHold = true → sv.toneReceive.release = 63 →
        sv.toneSend.release = 63 →
        ∃ t, exec (.toneHoldRelease slot) s = .next t
          ∧ t.ctx i = { s.ctx i with
              toneHold := false, serving := some { sv with toneReceive := .cleared, toneSend := .cleared } }
          ∧ (∀ k, k ≠ i → t.ctx k = s.ctx k) ∧ t.pool = s.pool ∧ t.lane = s.lane ∧ t.outside = s.outside)

/-- BLOCK_END in SEARCH or TRACK (R49, R50, R53, R55, R70). Outside a lead-in block the block measures are the floors
of the sums over 32, the noise estimate falls to a quieter block or rises slowly, and the current-block record starts
anew, whatever search end, path change or tone event the block end brings. At a lead-in block's end the measures, the
noise estimate, the gains and the search stand, the hold is emptied, every gradient sum of the bound blocks, the tone
sums and the peak records are cleared, and nothing else is done; that it is so too where RESTART came within the block
is the model's choice (log entry 33). That the event has a command of its own, which acts when its condition stands,
and the order of a block end's work are the model's readings (log entries 3 and 13). -/
def Obligations.BlockEndMeasures : Prop :=
  ∀ (s : State) (slot : BitVec 7) (i : Nat) (sv : Serving),
    s.servesWith slot.toNat i sv → (s.ctx i).callState.processes = true → 32 ≤ sv.phase →
    ∃ t sv', exec (.blockEnd slot) s = .next t ∧ (t.ctx i).serving = some sv'
      ∧ sv'.phase = 0 ∧ sv'.block.leadIn = false ∧ sv'.block.clean = true ∧ sv'.block.count = 0 ∧ sv'.block.sumY = 0
      ∧ sv'.block.sumE = 0 ∧ sv'.block.activeSeen = false
      ∧ sv'.history = sv.history ∧ sv'.power = sv.power ∧ sv'.hangover = sv.hangover ∧ sv'.generator = sv.generator
      ∧ sv'.callPresent = sv.callPresent ∧ sv'.profile = sv.profile
      ∧ t.outside = s.outside ∧ (∀ k, k ≠ i → (t.ctx k).steady = (s.ctx k).steady)
      ∧ (sv.block.leadIn = false →
          sv'.msSin = sv.block.sumY / 32 ∧ sv'.msErr = sv.block.sumE / 32
            ∧ sv'.noise = (if sv.block.sumY / 32 < sv.noise then max 1 (sv.block.sumY / 32)
                else min 16384 (sv.noise + sv.noise / 256 + 1)))
      ∧ (sv.block.leadIn = true →
          sv'.msSin = sv.msSin ∧ sv'.msErr = sv.msErr ∧ sv'.noise = sv.noise ∧ sv'.hold = none
            ∧ sv'.pathRun = sv.pathRun
            ∧ sv'.receive = { sv.receive with peak := false } ∧ sv'.send = { sv.send with peak := false }
            ∧ sv'.toneReceive = { sv.toneReceive with c := 0, s := 0, e := 0 }
            ∧ sv'.toneSend = { sv.toneSend with c := 0, s := 0, e := 0 } ∧ sv'.nlp = sv.nlp
            ∧ (t.ctx i).callState = (s.ctx i).callState ∧ (t.ctx i).search = (s.ctx i).search
            ∧ (t.ctx i).toneHold = (s.ctx i).toneHold ∧ t.lane = s.lane ∧ t.pool.fifo = s.pool.fifo
            ∧ (∀ jb ∈ s.boundOf i, ∀ k, ((t.tapBlock jb.2).entries.getD k ⟨0, 0, 0⟩) =
                ⟨((s.tapBlock jb.2).entries.getD k ⟨0, 0, 0⟩).h, 0, 0⟩)
            ∧ ∀ b, (∀ jb ∈ s.boundOf i, jb.2 ≠ b) → t.tapBlock b = s.tapBlock b)

/-- BLOCK_END in SEARCH or TRACK, its commit and hold (R50 to R52, R56, R83): with a clean held block and a clean
block just ended, every entry of every bound block takes h + round(Gh · 2^(15−s) / D_h), saturated, where Gh is not 0;
otherwise no coefficient changes. In both cases Gh takes Gc, Gc becomes 0, and the hold takes the block just ended
with its denominator (MS_ref + 64) · 64 · L, where L leaves out the segments that failed on the last sample. Nothing
else of a block changes, but that a written entry has no wrong bits (log entry 6). A counting commit raises the dwell
of a pass, and in TRACK the path-change run count. No evaluation, path change or tone event is due in this situation.
How a segment bound within the last sample counts in L is the model's choice (log entry 25), that the event has a
command of its own the model's reading (log entry 3). -/
def Obligations.BlockEndCommits : Prop :=
  ∀ (s : State) (slot : BitVec 7) (i : Nat) (sv : Serving),
    s.servesWith slot.toNat i sv → (s.ctx i).callState.processes = true → sv.block.leadIn = false → 32 ≤ sv.phase →
    sv.toneReceive.qualified = false → sv.toneSend.qualified = false → sv.toneReceive.reversal = false →
    sv.toneSend.reversal = false → sv.toneReceive.run ≤ 98 → sv.toneSend.run ≤ 98 → s.boundDistinct i →
    (∀ r, (s.ctx i).search = some r → (s.ctx i).callState = .search → r.dwell ≤ 62) →
    ((s.ctx i).callState = .track → sv.pathRun ≤ 30) →
    (let bound := s.boundOf i
     let L := (bound.filter fun jb => decide (jb.1 ∉ sv.failed)).length
     let msSin := sv.block.sumY / 32
     let msErr := sv.block.sumE / 32
     let counting : Bool := sv.hold.elim false fun h =>
       h.clean && sv.block.clean && decide (16 ≤ h.count) && decide (0 < h.denom)
     ∃ t sv', exec (.blockEnd slot) s = .next t ∧ (t.ctx i).serving = some sv'
      ∧ sv'.hold = some ⟨sv.block.clean, sv.block.count, (sv.power / 256 + 64) * (64 * L)⟩
      ∧ (∀ hold, sv.hold = some hold → hold.clean = true → sv.block.clean = true → ∀ jb ∈ bound, ∀ k,
          (t.tapBlock jb.2).entries.getD k ⟨0, 0, 0⟩ =
            (let e := (s.tapBlock jb.2).entries.getD k ⟨0, 0, 0⟩
             { h := if e.gh = 0 then e.h
                 else clampInt (-32768) 32767 (e.h + roundDiv (e.gh * 2 ^ (15 - (s.profileOf i).step)) hold.denom)
               gc := 0, gh := e.gc }))
      ∧ (sv.hold = none ∨ sv.hold.elim false (·.clean) = false ∨ sv.block.clean = false → ∀ jb ∈ bound, ∀ k,
          (t.tapBlock jb.2).entries.getD k ⟨0, 0, 0⟩ =
            (let e := (s.tapBlock jb.2).entries.getD k ⟨0, 0, 0⟩
             { h := e.h, gc := 0, gh := e.gc }))
      ∧ (∀ b, (∀ jb ∈ bound, jb.2 ≠ b) → t.tapBlock b = s.tapBlock b)
      ∧ (∀ jb ∈ bound, t.tapBlock jb.2 = { s.tapBlock jb.2 with entries := (t.tapBlock jb.2).entries, wrong := [] })
      ∧ (t.ctx i).callState = (s.ctx i).callState
      ∧ ((s.ctx i).callState = .track →
          (t.ctx i).search = (s.ctx i).search
            ∧ sv'.pathRun = (if bound = [] then 0
                else if 0 < L ∧ counting = true ∧ 16 ≤ sv.block.count then
                  (if msSin < 4 * msErr then min 32 (sv.pathRun + 1) else 0)
                else sv.pathRun))
      ∧ ((s.ctx i).callState = .search → sv'.pathRun = sv.pathRun ∧ ∀ r, (s.ctx i).search = some r →
          (t.ctx i).search = some { r with
            dwell := if counting = true ∧ r.status = .inPass then min 64 (r.dwell + 1) else r.dwell })
      ∧ t.pool.fifo = s.pool.fifo ∧ t.lane = s.lane ∧ t.outside = s.outside ∧ ∀ k, k ≠ i → t.ctx k = s.ctx k)

/-- BLOCK_END in SEARCH or TRACK outside a lead-in block, the level control of both directions (R119 to R125): the
spacing counts rise, a peak record takes 2 off the gain index, an active input is evaluated against its target band
with the spacings 8 and 32, the send direction only where the block was not a clean one with an active reference, tone
hold and a switch that is off hold a direction, and the limits set and clear the at-limit flags. That the event has a
command of its own, which acts when its condition stands, and the order of a block end's work are the model's readings
(log entries 3 and 13). -/
def Obligations.BlockEndControlsLevels : Prop :=
  ∀ (s : State) (slot : BitVec 7) (i : Nat) (sv : Serving),
    s.servesWith slot.toNat i sv → (s.ctx i).callState.processes = true → sv.block.leadIn = false → 32 ≤ sv.phase →
    sv.gainsSound →
    ∃ t sv', exec (.blockEnd slot) s = .next t ∧ (t.ctx i).serving = some sv'
      ∧ Level.controlled (s.profileOf i).receiveAlc (s.ctx i).toneHold true (s.profileOf i).receiveTarget
          sv.receive sv'.receive
      ∧ Level.controlled (s.profileOf i).sendAlc (s.ctx i).toneHold
          (!(sv.block.clean && sv.block.activeSeen)) (s.profileOf i).sendTarget sv.send sv'.send

/-- BLOCK_END in SEARCH or TRACK with the tone switch on, outside a lead-in block (R68, R130 to R134): both directions
are tested; a qualification sets tone hold and opens the NLP with its inactive count at 0; a phase reversal of either
direction takes the call to DISABLED with tone hold still set, its search record gone and, where no other event of
this block end queues a message, a TONE DISABLE notice with the direction; and with both release runs at 63 tone hold
ends and the tone state is cleared. With the switch off the tone state stands. That the event has a command of its
own, which acts when its condition stands, and the order of a block end's work are the model's readings (log entries 3
and 13). -/
def Obligations.BlockEndTestsTones : Prop :=
  ∀ (s : State) (slot : BitVec 7) (i : Nat) (sv : Serving),
    s.servesWith slot.toNat i sv → (s.ctx i).callState.processes = true → sv.block.leadIn = false → 32 ≤ sv.phase →
    (sv.toneReceive.qualified = true ∨ sv.toneSend.qualified = true → (s.ctx i).toneHold = true) →
    ((s.profileOf i).tone = false → (s.ctx i).toneHold = false → sv.toneReceive.reversal = false →
      sv.toneSend.reversal = false →
      ∃ t sv', exec (.blockEnd slot) s = .next t ∧ (t.ctx i).serving = some sv'
        ∧ sv'.toneReceive = sv.toneReceive ∧ sv'.toneSend = sv.toneSend ∧ (t.ctx i).toneHold = false)
    ∧ ((s.profileOf i).tone = true →
      ∃ t sv', exec (.blockEnd slot) s = .next t ∧ (t.ctx i).serving = some sv'
        ∧ ∃ toneReceive toneSend, Tone.tested sv.toneReceive toneReceive ∧ Tone.tested sv.toneSend toneSend
          ∧ (let reversed := toneReceive.reversal = true ∨ toneSend.reversal = true
             let qualified := toneReceive.qualified = true ∨ toneSend.qualified = true
             let quiet := toneReceive.release = 63 ∧ toneSend.release = 63
             (reversed → (t.ctx i).callState = .disabled ∧ (t.ctx i).toneHold = true ∧ (t.ctx i).search = none
                ∧ sv'.toneReceive = toneReceive ∧ sv'.toneSend = toneSend
                ∧ (s.poolSound → s.heldBlocks i = [] → (∀ r, (s.ctx i).search = some r → r.dwell ≤ 62) →
                    sv.pathRun ≤ 30 →
                    i ∉ s.pool.shortfall → maskBit s.profile.noticeMask 7 = true → s.lane.queue.length < 16 →
                    t.lane.queue = insertEntry ⟨.notice 7 (BitVec.ofNat 16 (s.slotOf i % 128 * 512
                      + (if toneReceive.reversal = true then 1 else 0) * 128
                      + (if toneSend.reversal = true then 2 else 0) * 128)) s.me, s.frame, none⟩ s.lane.queue))
             ∧ (¬reversed → (t.ctx i).callState ≠ .disabled)
             ∧ (¬reversed → qualified → (s.ctx i).toneHold = false →
                (t.ctx i).toneHold = true ∧ sv'.nlp = .opened ∧ sv'.inactive = 0
                  ∧ sv'.toneReceive = toneReceive ∧ sv'.toneSend = toneSend)
             ∧ ((s.ctx i).toneHold = true → quiet →
                (t.ctx i).toneHold = false ∧ sv'.toneReceive = Tone.cleared ∧ sv'.toneSend = Tone.cleared)
             ∧ (¬reversed → (s.ctx i).toneHold = true → ¬quiet →
                (t.ctx i).toneHold = true ∧ sv'.toneReceive = toneReceive ∧ sv'.toneSend = toneSend)
             ∧ (¬reversed → ¬qualified → (s.ctx i).toneHold = false →
                (t.ctx i).toneHold = false ∧ sv'.toneReceive = toneReceive ∧ sv'.toneSend = toneSend)))

/-- PATH_CHANGE (R49, R56, R57, R90): the call searches again from pass 1 with nothing retained, the hold is emptied
and the run count 0, and history, power, hangover, noise estimate, NLP state, generator and gains are kept. Where no
other context waits and none of its blocks bears a mark, its blocks have gone to the FIFO tail in ascending number,
the new search has requested its budget behind them, and a PATH CHANGE notice names the slot. That the event has a
command of its own, which acts when its condition stands, is the model's reading (log entry 3). -/
def Obligations.PathChangeSearchesAgain : Prop :=
  ∀ (s : State) (slot : BitVec 7) (i : Nat) (sv : Serving),
    s.servesWith slot.toNat i sv → (s.ctx i).callState = .track → 32 ≤ sv.pathRun → 0 < (s.profileOf i).budget →
    0 < (s.profileOf i).reach →
    ∃ t sv' r, exec (.pathChange slot) s = .next t ∧ (t.ctx i).serving = some sv' ∧ (t.ctx i).search = some r
      ∧ (t.ctx i).callState = .search ∧ r.retained = [] ∧ r.pass ≤ 1 ∧ r.dwell = 0
      ∧ r.explored = r.bound.map (·.1)
      ∧ ((s.profileOf i).budget ≤ (s.profileOf i).reach → r.want = (s.profileOf i).budget)
      ∧ sv'.pathRun = 0 ∧ sv'.hold = none ∧ sv'.history = sv.history ∧ sv'.power = sv.power
      ∧ sv'.hangover = sv.hangover ∧ sv'.noise = sv.noise ∧ sv'.nlp = sv.nlp ∧ sv'.generator = sv.generator
      ∧ sv'.receive.gain = sv.receive.gain ∧ sv'.send.gain = sv.send.gain ∧ sv'.msSin = sv.msSin
      ∧ (t.ctx i).toneHold = (s.ctx i).toneHold ∧ t.outside = s.outside
      ∧ (∀ k, k ≠ i → (t.ctx k).steady = (s.ctx k).steady)
      ∧ (s.poolSound → (∀ h ∈ s.pool.shortfall, h = i) → ∀ H X, s.holdsUnmarked i H →
          s.searchesFrom i [] (s.pool.fifo ++ H) X t
            ∧ (maskBit s.profile.noticeMask 1 = true → s.lane.queue.length ≤ 14 →
                ⟨.notice 1 (BitVec.ofNat 16 (s.slotOf i % 128 * 512)) s.me, s.frame, none⟩ ∈ t.lane.queue))

/-- EVALUATION that does not end the search (R79, R82 to R84): the new retained set is the first B significant
segments in strength order; the retained segments keep their blocks and coefficients. With segments left to explore
and blocks to move, the next pass binds the blocks of the other segments and of the spare hand, in ascending number
and at zero, to the lowest unexplored segments, and gives back what is left over to the FIFO when no context waits;
with segments left, no block to move and a place in the shortfall queue the search is WAITING. An evaluation that
finds nothing significant and has no segment left, or no block and no place, ends level-only in TRACK with want 0 and
a SEARCH DONE notice (R85, R88). That the event has a command of its own, which acts when its condition stands, and
that a search end unbinds nothing first are the model's readings (log entries 3 and 11). -/
def Obligations.EvaluationNextStep : Prop :=
  ∀ (s : State) (slot : BitVec 7) (i : Nat) (sv : Serving) (r : SearchRecord) (S : List (Nat × Nat)) (F : List Nat),
    s.servesWith slot.toNat i sv → (s.ctx i).callState = .search → (s.ctx i).search = some r → r.status = .inPass →
    64 ≤ r.dwell → s.poolSound → s.significantOrder r S →
    (let R := (S.map (·.1)).take (s.profileOf i).budget
     let U := r.unexplored (s.profileOf i).reach
     let gone := r.bound.filter fun jb => decide (jb.1 ∉ R)
     F.Perm (gone.map (·.2) ++ r.spare) → F.Pairwise (· < ·) →
     (U ≠ [] → F ≠ [] →
       ∃ t r', exec (.evaluation slot) s = .next t ∧ (t.ctx i).search = some r'
        ∧ (t.ctx i).callState = .search ∧ r'.status = .inPass ∧ r'.pass = min 255 (r.pass + 1) ∧ r'.dwell = 0
        ∧ r'.retained = R ∧ r'.spare = []
        ∧ (∀ jb ∈ r.bound, jb.1 ∈ R → jb ∈ r'.bound ∧ t.tapBlock jb.2 = s.tapBlock jb.2)
        ∧ (∀ jb ∈ U.zip F, jb ∈ r'.bound ∧ jb.1 ∈ r'.explored ∧ (t.tapBlock jb.2).state = .assigned
            ∧ (t.tapBlock jb.2).segment = some jb.1 ∧ (t.tapBlock jb.2).entries = List.replicate 64 ⟨0, 0, 0⟩)
        ∧ r'.bound.length = r.bound.length - gone.length + min U.length F.length
        ∧ r'.want = (if U.length < F.length then r'.bound.length else r.want)
        ∧ (s.pool.shortfall = [] → (∀ b ∈ F, (s.tapBlock b).retirePending = false) →
            t.pool.fifo = s.pool.fifo ++ F.drop U.length)
        ∧ t.outside = s.outside ∧ ∀ k, k ≠ i → (t.ctx k).steady = (s.ctx k).steady)
     ∧ (U ≠ [] → F = [] → i ∈ s.pool.shortfall →
        exec (.evaluation slot) s = .next (s.setCtx i { s.ctx i with
          search := some { r with retained := R, status := .waiting, dwell := 0 } }))
     ∧ (S = [] → U = [] ∨ (F = [] ∧ i ∉ s.pool.shortfall) →
       ∃ t r', exec (.evaluation slot) s = .next t ∧ (t.ctx i).search = some r'
        ∧ (t.ctx i).callState = .track ∧ r'.map = [] ∧ r'.spare = [] ∧ r'.want = 0 ∧ r'.retained = []
        ∧ r'.pass = r.pass ∧ r'.dwell = 0
        ∧ (s.pool.shortfall = [] → (∀ b ∈ F, (s.tapBlock b).retirePending = false) →
            t.pool.fifo = s.pool.fifo ++ F
            ∧ (maskBit s.profile.noticeMask 2 = true → s.lane.queue.length < 16 →
                ⟨.notice 2 (BitVec.ofNat 16 (s.slotOf i % 128 * 512)) s.me, s.frame, none⟩ ∈ t.lane.queue))
        ∧ t.outside = s.outside ∧ ∀ k, k ≠ i → (t.ctx k).steady = (s.ctx k).steady))

/-- EVALUATION that ends the search, and SETTLE, where significant segments stand (R79, R84, R86 to R89, R101, R112):
the plan is the first B significant segments in strength order and then their neighbours, lower before higher, up to
B; a segment of the plan that is bound keeps its block and its coefficients (log entry 11); the others take, in plan
order and at zero, the blocks given up in ascending number and then blocks from the FIFO head; blocks left over go to
the FIFO tail, and a plan still unfilled joins the shortfall queue with a POOL SHORT notice. The call goes to TRACK
with the plan's size as its want and a SEARCH DONE notice. That the FIFO's blocks go to the segments in FIFO order is
the model's choice (log entry 26), that a message command is a cell with a sound check that this station did not win,
and that an event has a command of its own, the model's reading (log entries 3 and 16). -/
def Obligations.SearchEndPlansAndFills : Prop :=
  ∀ (s : State) (slot : BitVec 7) (k : BitVec 4) (c : Instr) (i : Nat) (sv : Serving) (r : SearchRecord)
    (S : List (Nat × Nat)) (X : List Nat),
    s.servesWith slot.toNat i sv → (s.ctx i).callState = .search → (s.ctx i).search = some r → s.poolSound →
    s.pool.shortfall = [] → s.significantOrder r S → S ≠ [] →
    0 < (s.profileOf i).budget → (s.profileOf i).budget ≤ 16 →
    ((c = .settle slot k ∧ s.hearsCard k)
      ∨ (c = .evaluation slot ∧ r.status = .inPass ∧ 64 ≤ r.dwell ∧ sv.failed = []
        ∧ (r.unexplored (s.profileOf i).reach = []
          ∨ (r.spare = [] ∧ S.length = r.bound.length ∧ S.length ≤ (s.profileOf i).budget)))) →
    (let B := (s.profileOf i).budget
     let reach := (s.profileOf i).reach
     let R := (S.map (·.1)).take B
     let neighbours := fun j : Nat => (if 0 < j then [j - 1] else []) ++ (if j + 1 < reach then [j + 1] else [])
     let P := ((R ++ R.flatMap neighbours).eraseDups).take B
     let fresh := P.filter fun j => decide (j ∉ r.bound.map (·.1))
     let outside := (r.bound.filter fun jb => decide (jb.1 ∉ P)).map (·.2) ++ r.spare
     X.Perm outside → X.Pairwise (· < ·) → (∀ b ∈ X, (s.tapBlock b).retirePending = false) →
     ∃ t r' sv', exec c s = .next t ∧ (t.ctx i).search = some r' ∧ (t.ctx i).serving = some sv'
      ∧ (t.ctx i).callState = .track ∧ sv'.pathRun = 0
      ∧ r'.map.map (·.number) = P ∧ r'.want = P.length ∧ r'.retained = R ∧ r'.spare = [] ∧ r'.dwell = 0
      ∧ r'.pass = r.pass ∧ r'.explored = r.explored
      ∧ (∀ jb ∈ r.bound, jb.1 ∈ P → jb ∈ r'.bound ∧ t.tapBlock jb.2 = s.tapBlock jb.2)
      ∧ (∀ jb ∈ fresh.zip (X ++ s.pool.fifo), jb ∈ r'.bound ∧ (t.tapBlock jb.2).state = .assigned
          ∧ (t.tapBlock jb.2).owner = some ⟨i, s.slotOf i⟩ ∧ (t.tapBlock jb.2).segment = some jb.1
          ∧ (t.tapBlock jb.2).entries = List.replicate 64 ⟨0, 0, 0⟩)
      ∧ r'.bound.length = P.length - (fresh.length - (X ++ s.pool.fifo).length)
      ∧ t.pool.fifo = s.pool.fifo.drop (fresh.length - X.length) ++ X.drop fresh.length
      ∧ t.pool.shortfall = (if (X ++ s.pool.fifo).length < fresh.length then [i] else [])
      ∧ (maskBit s.profile.noticeMask 2 = true → s.lane.queue.length ≤ 14 →
          ⟨.notice 2 (BitVec.ofNat 16 (s.slotOf i % 128 * 512 + P.length * 16 + P.headD 0 % 16)) s.me, s.frame, none⟩
            ∈ t.lane.queue)
      ∧ ((X ++ s.pool.fifo).length < fresh.length → maskBit s.profile.noticeMask 3 = true → s.lane.queue.length ≤ 14 →
          ⟨.notice 3 (BitVec.ofNat 16 (s.slotOf i % 128 * 512 + (fresh.length - (X ++ s.pool.fifo).length) * 16)) s.me,
            s.frame, none⟩ ∈ t.lane.queue)
      ∧ t.outside = s.outside ∧ ∀ n, n ≠ i → (t.ctx n).steady = (s.ctx n).steady)

/-- DISABLED_RELEASE (R126, R135): tone hold and the tone state are cleared, both gains take their initial values with
their spacing counts at 0, their at-limit flags clear and their peak records no, and the call searches again from pass
1 with nothing retained and the budget as its want, requesting blocks behind the contexts that wait; with a budget of
0 it ends level-only at once; the rest of the signal state is kept. BLOCK_END in DISABLED (R54, R129, R133, R135):
with the tone switch on each direction's release run count rises or becomes 0 by the block's E and its sums become 0,
and with both counts at 63 the block end is the release; with the switch off, and in IDLE and BYPASS, the next block
begins and nothing else is done. That an event has a command of its own, which acts when its condition stands, is the
model's reading (log entry 3). -/
def Obligations.DisabledReleaseAndPassingBlockEnds : Prop :=
  ∀ (s : State) (slot : BitVec 7) (i : Nat) (sv : Serving), s.servesWith slot.toNat i sv →
    ((s.ctx i).callState = .disabled → sv.toneReceive.release = 63 → sv.toneSend.release = 63 →
      0 < (s.profileOf i).reach →
      ∃ t sv' r, exec (.disabledRelease slot) s = .next t ∧ (t.ctx i).serving = some sv' ∧ (t.ctx i).search = some r
        ∧ (t.ctx i).callState = (if (s.profileOf i).budget = 0 then .track else .search) ∧ (t.ctx i).toneHold = false
        ∧ r.retained = [] ∧ r.pass ≤ 1 ∧ r.dwell = 0 ∧ r.explored = r.bound.map (·.1)
        ∧ ((s.profileOf i).budget ≤ (s.profileOf i).reach → r.want = (s.profileOf i).budget)
        ∧ sv'.toneReceive = Tone.cleared ∧ sv'.toneSend = Tone.cleared
        ∧ sv'.receive.gain = (s.profileOf i).receiveG ∧ sv'.send.gain = (s.profileOf i).sendG
        ∧ sv'.receive.spacing = 0 ∧ sv'.send.spacing = 0 ∧ sv'.receive.limit = .clear ∧ sv'.send.limit = .clear
        ∧ sv'.receive.peak = false ∧ sv'.send.peak = false
        ∧ sv'.receive.power = sv.receive.power ∧ sv'.send.power = sv.send.power
        ∧ sv'.hold = none ∧ sv'.pathRun = 0 ∧ sv'.history = sv.history ∧ sv'.power = sv.power
        ∧ sv'.hangover = sv.hangover ∧ sv'.noise = sv.noise ∧ sv'.generator = sv.generator ∧ sv'.nlp = sv.nlp
        ∧ sv'.profile = sv.profile ∧ t.outside = s.outside ∧ (∀ k, k ≠ i → (t.ctx k).steady = (s.ctx k).steady)
        ∧ (s.poolSound →
            (0 < (s.profileOf i).budget → ∀ X, s.searchesFrom i s.pool.shortfall s.pool.fifo X t)
            ∧ ((s.profileOf i).budget = 0 → s.pool.shortfall = [] → s.levelOnly i [] t)))
    ∧ ((s.ctx i).callState = .disabled → sv.block.leadIn = false → 32 ≤ sv.phase →
      (let counted := fun x : Tone =>
         { x with c := 0, s := 0, e := 0, release := if x.e < 32768 then min 63 (x.release + 1) else 0 }
       let receive := counted sv.toneReceive
       let send := counted sv.toneSend
       let next := fun sv : Serving => s.setCtx i { s.ctx i with serving := some { sv with phase := 0 } }
       ((s.profileOf i).tone = true → ¬(receive.release = 63 ∧ send.release = 63) →
          exec (.blockEnd slot) s = .next (next { sv with toneReceive := receive, toneSend := send }))
       ∧ ((s.profileOf i).tone = true → receive.release = 63 → send.release = 63 →
          exec (.blockEnd slot) s =
            exec (.disabledRelease slot) (next { sv with toneReceive := receive, toneSend := send }))
       ∧ ((s.profileOf i).tone = false → exec (.blockEnd slot) s = .next (next sv))))
    ∧ ((s.ctx i).callState = .idle ∨ (s.ctx i).callState = .bypass → 32 ≤ sv.phase →
      exec (.blockEnd slot) s = .next (s.setCtx i { s.ctx i with
        serving := some { sv with phase := 0, block := { sv.block with leadIn := false } } }))

/-! ### Frame boundaries and sharing -/

/-- FRAME_BOUNDARY in LISTEN, CONFIG and RUN (R6, R138): the station's own marks are exactly the slots it serves, the
mark record is their wired-OR with the other parties' marks, and the next frame begins. That the operand is the other
parties' marks, and that the frame number rises at the boundary, is the model's form (log entries 7 and 15). -/
def Obligations.FrameBoundaryTakesMarks : Prop :=
  (∀ (s : State) (slot : Nat), slot < 128 → s.marks.getLsbD slot = (s.servedBy slot).isSome)
  ∧ ∀ (s : State) (others : BitVec 128), s.highway.sync = .locked →
      (s.profile.station = .listen ∨ s.profile.station = .config ∨ s.profile.station = .run) →
      ∃ t, exec (.frameBoundary others) s = .next t ∧ t.frame = s.frame + 1
        ∧ t.lane.markRecord = others ||| s.marks ∧ t.lane.ownRecord = s.marks ∧ t.lane.discards = s.lane.discards
        ∧ t.lane.clashes = s.lane.clashes ∧ t.lane.surplus = s.lane.surplus ∧ t.highway.sync = s.highway.sync

/-- FRAME_BOUNDARY, the judgements on the mark record of the frame just ended. In LISTEN, before its last frame, the
LISTEN record takes the marks read, beside those of the frame before, and passes on the ADOPTs of the frame just ended
(R169). The absence count of a slot that is not homed here becomes 0 when its mark was read, this station's own
included, and otherwise rises by 1, saturating at 8 (R167). In CONFIG and RUN a HANDED home, and a RECLAIMING one
whose first judged frame has come, serves again in HOME-SERVING when its mark was not read, with call-present clear,
in IDLE or, when transparent, in BYPASS in RUN (R157, R166). A RECLAIMING home whose mark was read and whose last
RECLAIM was carried before the frame just ended counts its RECLAIM age up to 8000, and at 8000 a RECLAIM is queued
unless the full queue drops it (R151, R170). The operand holds the other parties' marks (log entry 15), and the order
of a boundary's judgements is the model's (log entry 27). -/
def Obligations.FrameBoundaryJudgesSlots : Prop :=
  (∀ (s : State) (others : BitVec 128), s.highway.sync = .locked → s.profile.station = .run →
    ∃ t, exec (.frameBoundary others) s = .next t
      ∧ ∀ slot < 128, ¬(s.profile.k < s.profile.n ∧ slot % s.profile.n = s.profile.k) →
          t.share.absence.getD slot 0 =
            (if others.getLsbD slot = true ∨ (s.servedBy slot).isSome = true then 0
              else min 8 (s.share.absence.getD slot 0 + 1)))
  ∧ (∀ (s : State) (others : BitVec 128), s.highway.sync = .locked → s.profile.station = .listen →
    s.profile.listenFrames < 15 → s.lane.recalled = [] →
    exec (.frameBoundary others) s = .next { s with
      frame := s.frame + 1
      profile := { s.profile with listenFrames := s.profile.listenFrames + 1 }
      lane := { s.lane with markRecord := others ||| s.marks, ownRecord := s.marks }
      share := { s.share with listenMarks := others ||| s.marks, listenMarks' := s.share.listenMarks,
                              listenAdopt := 0, listenAdopt' := s.share.listenAdopt } })
  ∧ ∀ (s : State) (others : BitVec 128) (i slot : Nat), s.highway.sync = .locked → s.profile.station.serves = true →
    s.slotsSound → (s.ctx i).kind = .home → (s.ctx i).slot = some slot →
    (((s.ctx i).role = .handed
        ∨ ((s.ctx i).role = .reclaiming ∧ ∃ r, (s.ctx i).reclaim = some r ∧ r.judgeFrom ≤ s.frame)) →
      others.getLsbD slot = false →
      ∃ t sv, exec (.frameBoundary others) s = .next t ∧ (t.ctx i).serving = some sv
        ∧ (t.ctx i).role = .homeServing ∧ (t.ctx i).server = none ∧ (t.ctx i).reclaim = none
        ∧ (t.ctx i).startAt = none ∧ sv.callPresent = false ∧ (t.ctx i).profile = (s.ctx i).profile
        ∧ (s.profile.station = .run →
            (t.ctx i).callState = (if (s.ctx i).transparent = true then .bypass else .idle)))
    ∧ (∀ r, (s.ctx i).reclaim = some r → ∀ f, r.carried = some f → (s.ctx i).role = .reclaiming →
        others.getLsbD slot = true → (s.ctx i).startAt = none → (s.ctx i).stopAt = none →
        ∃ t, exec (.frameBoundary others) s = .next t ∧ (t.ctx i).role = .reclaiming
          ∧ (t.ctx i).reclaim = some { r with age := if f < s.frame then min 8000 (r.age + 1) else r.age }
          ∧ (f < s.frame → 7999 ≤ r.age →
              (∃ e ∈ t.lane.queue, e.isReclaim slot = true) ∨ s.lane.drops < t.lane.drops ∨ t.lane.drops = 65535))

/-- FRAME_BOUNDARY in RUN, the deadlines that the frame just ended closes: no BID stays queued past o+4, no queued
GRANT past o+8 and no ADOPT for a slot another party marks (R152); no offer memory entry stays past o+8 (R157); a
bidder without a GRANT by b+8 has no reservation (R160); an offer past o+4 has led to a GRANT or to HOME-SERVING
(R161); a TAKEN guest without a call, and an ACTING-HOME one with a pending RETURN, have a RETURN queued unless the
full queue dropped it (R151, R164); and every hand-over of the frame that begins has taken effect (R162 to R165). That
the RETURN of a guest is queued also while an answer with cause late grant or cannot serve for its slot stands in the
queue, where R164 names no cause, is the model's choice (log entry 38); the judgements' order is the model's (log
entries 7 and 27). -/
def Obligations.FrameBoundaryMeetsDeadlines : Prop :=
  ∀ (s : State) (others : BitVec 128), s.highway.sync = .locked → s.profile.station = .run → s.sized →
    s.slotsSound →
    ∃ t, exec (.frameBoundary others) s = .next t
      ∧ (∀ e ∈ t.lane.queue, ∀ o, e.offerFrame = some o → e.msg.kind = 12 → s.frame < o + 4)
      ∧ (∀ e ∈ t.lane.queue, ∀ o, e.offerFrame = some o → e.msg.kind = 13 → e ∈ s.lane.queue → e.eligible ≤ s.frame →
          s.frame < o + 8)
      ∧ (∀ e ∈ t.lane.queue, ∀ slot < 128, e.isAdopt slot = true →
          others.getLsbD slot = false ∨ (s.servedBy slot).isSome = true)
      ∧ (∀ slot < 128, ∀ m, t.share.offers.getD slot none = some m → s.frame < m.frame + 8)
      ∧ (∀ i < 64, ∀ f, (t.ctx i).stopAt = some f ∨ (t.ctx i).startAt = some f → s.frame + 1 < f)
      ∧ (∀ i < 64, ∀ r, (s.ctx i).reservation = some r → ∀ b, r.bidFrame = some b → (s.ctx i).role = .reserved →
          (s.ctx i).startAt = none → b + 8 ≤ s.frame → (t.ctx i).reservation = none)
      ∧ (∀ i < 64, ∀ slot, (s.ctx i).slot = some slot → ∀ sv, (s.ctx i).serving = some sv → slot < 128 →
          sv.callPresent = false →
          (s.ctx i).role = .taken ∨ ((s.ctx i).role = .actingHome ∧ (s.ctx i).pendingReturn = true) →
          (∃ e ∈ t.lane.queue, e.isReturn slot = true) ∨ s.lane.drops < t.lane.drops ∨ t.lane.drops = 65535)
      ∧ ∀ i < 64, ∀ slot, (s.ctx i).slot = some slot → ∀ r, (s.ctx i).offer = some r → ∀ o, r.frame = some o →
          (s.ctx i).role = .homeOffering → (s.ctx i).stopAt = none → o + 4 ≤ s.frame → slot < 128 →
          (r.best = none → (∀ e ∈ s.lane.queue, e.isGrant slot = false) →
            (t.ctx i).role = .homeServing ∧ (t.ctx i).offer = none)
          ∧ (r.best ≠ none → (∃ e ∈ t.lane.queue, e.isGrant slot = true) ∨ (t.ctx i).role = .homeServing)

/-- ORPHAN and ADOPT_JUDGEMENT (R37, R167, R168): an ADOPT with margin FREE joins the queue for an orphan slot; a
carried ADOPT is judged at the boundary after the next frame: given up when another party marks the slot, ACTING-HOME
in IDLE in the lowest free guest context otherwise, and a cannot-serve RETURN when there is none or the slot has a
directory entry here. The commands and their place at a boundary are the model's reading (log entries 3 and 7). -/
def Obligations.OrphanAdoption : Prop :=
  (∀ (s : State) (slot : BitVec 7), s.profile.station = .run → s.isHome slot.toNat = false →
    s.share.absence.getD slot.toNat 0 = 8 → s.lookup slot.toNat = none →
    (∀ e ∈ s.lane.queue, e.isAdopt slot.toNat = false) → (∀ a ∈ s.share.adopting, a.1 ≠ slot.toNat) →
    s.freeGuest? ≠ none → s.lane.queue.length < 16 →
    exec (.orphan slot) s = .next { s with lane := { s.lane with
      queue := insertEntry ⟨.adopt slot (BitVec.ofNat 8 (min 255 s.pool.fifo.length)) s.me, s.frame, none⟩ s.lane.queue
      drops := min 65535 s.lane.drops } })
  ∧ ∀ (s : State) (slot : BitVec 7) (a : Nat), s.profile.station = .run → (slot.toNat, a) ∈ s.share.adopting →
      a + 1 < s.frame →
      (s.otherMark slot.toNat = true →
        exec (.adoptJudgement slot) s = .next { s with share := { s.share with
          adopting := s.share.adopting.filter fun b => b.1 != slot.toNat } })
      ∧ (∀ i, s.otherMark slot.toNat = false → s.freeGuest? = some i → s.lookup slot.toNat = none →
          s.table.directory.length = 128 →
          ∃ t sv, exec (.adoptJudgement slot) s = .next t ∧ t.lookup slot.toNat = some i
            ∧ (t.ctx i).role = .actingHome ∧ (t.ctx i).slot = some slot.toNat ∧ (t.ctx i).profile = 0
            ∧ (t.ctx i).frozen = false ∧ (t.ctx i).transparent = false ∧ (t.ctx i).callState = .idle
            ∧ (t.ctx i).serving = some sv ∧ sv.callPresent = false ∧ t.pool = s.pool ∧ t.lane = s.lane
            ∧ ∀ k, k ≠ i → t.ctx k = s.ctx k)
      ∧ (s.otherMark slot.toNat = false → s.freeGuest? = none ∨ s.lookup slot.toNat ≠ none → s.lane.queue.length < 16 →
          ∃ t, exec (.adoptJudgement slot) s = .next t ∧ t.table = s.table ∧ t.pool = s.pool
            ∧ t.lane.queue = insertEntry ⟨.returnSlot slot 2 s.me, s.frame, none⟩ s.lane.queue)

/-- OFFER_WINDOW_END, GRANT_STALE and OFFER_MEMORY_EXPIRY (R152, R157, R161): after o+4 the best bidder is granted the
slot, or without a bid the context is HOME-SERVING again; a GRANT not carried by o+8 is removed with the same end; an
offer memory entry goes after o+8. The commands and the test `f + n < frame` of a deadline are the model's reading
(log entries 3 and 7). -/
def Obligations.OfferEnds : Prop :=
  ∀ (s : State) (slot : BitVec 7), s.profile.station = .run →
    (∀ (i o : Nat) (best : Option (Nat × Nat)), s.lookup slot.toNat = some i → (s.ctx i).slot = some slot.toNat →
      (s.ctx i).role = .homeOffering → (s.ctx i).offer = some ⟨some o, best⟩ → o + 4 < s.frame →
      (s.ctx i).stopAt = none → (∀ e ∈ s.lane.queue, e.isGrant slot.toNat = false) → s.lane.queue.length < 16 →
      (∀ taker margin, best = some (taker, margin) →
        ∃ t, exec (.offerWindowEnd slot) s = .next t ∧ t.table = s.table ∧ t.pool = s.pool
          ∧ t.lane.queue = insertEntry ⟨.grant slot (BitVec.ofNat 4 taker) s.me, s.frame, some o⟩ s.lane.queue)
      ∧ (best = none →
          ∃ t, exec (.offerWindowEnd slot) s = .next t
            ∧ t.ctx i = { s.ctx i with role := .homeServing, offer := none } ∧ t.pool = s.pool
            ∧ (∀ k, k ≠ i → t.ctx k = s.ctx k)
            ∧ t.lane.queue = (if maskBit s.profile.noticeMask 4 = true then
                insertEntry ⟨.notice 4 (slot.zeroExtend 16 <<< 9) s.me, s.frame, none⟩ s.lane.queue
              else s.lane.queue)))
    ∧ (∀ i, s.lookup slot.toNat = some i → i < s.table.contexts.length → (s.ctx i).role = .homeOffering →
        (s.ctx i).stopAt = none →
        (∃ e ∈ s.lane.queue, e.isGrant slot.toNat = true ∧ ∃ o, e.offerFrame = some o ∧ o + 8 < s.frame) →
        ∃ t, exec (.grantStale slot) s = .next t
          ∧ t.ctx i = { s.ctx i with role := .homeServing, offer := none } ∧ t.pool = s.pool
          ∧ (∀ k, k ≠ i → t.ctx k = s.ctx k)
          ∧ ∀ e ∈ t.lane.queue, ∀ o, e.isGrant slot.toNat = true → e.offerFrame = some o → s.frame ≤ o + 8)
    ∧ ∀ m, s.share.offers.getD slot.toNat none = some m → m.frame + 8 < s.frame →
        exec (.offerMemoryExpiry slot) s = .next { s with share := { s.share with
          offers := s.share.offers.set slot.toNat none } }

/-- BID_WINDOW_EXPIRY and BID_TIMEOUT (R105, R152, R160): a bidder whose BID was not carried by o+4, or that saw no
GRANT by b+8, withdraws: its context is free with its directory entry removed, no BID for the slot stays queued, and
with no context waiting its reserved blocks join the FIFO tail in ascending order. The commands and the test `f + n <
frame` of a deadline are the model's reading (log entries 3 and 7). -/
def Obligations.BidEnds : Prop :=
  ∀ (s : State) (slot : BitVec 7) (i : Nat) (c : Instr), s.profile.station = .run → s.lookup slot.toNat = some i →
    s.table.directory.length = 128 → (s.ctx i).slot = some slot.toNat → (s.ctx i).role = .reserved →
    (s.ctx i).callState = .notServing → (s.ctx i).startAt = none →
    s.pool.shortfall = [] → s.pool.blocks.length = 264 → (∀ b ∈ s.reservedFor i, (s.tapBlock b).retirePending = false) →
    ((c = .bidWindowExpiry slot
        ∧ ∃ e ∈ s.lane.queue, e.isBid slot.toNat = true ∧ ∃ o, e.offerFrame = some o ∧ o + 4 < s.frame)
      ∨ (c = .bidTimeout slot
        ∧ ∃ r b, (s.ctx i).reservation = some r ∧ r.bidFrame = some b ∧ b + 8 < s.frame)) →
    ∃ t, exec c s = .next t ∧ t.ctx i = freeGuest ∧ t.lookup slot.toNat = none
      ∧ (∀ e ∈ t.lane.queue, e.isBid slot.toNat = false)
      ∧ t.pool.fifo = s.pool.fifo ++ s.reservedFor i ∧ t.share = s.share
      ∧ (∀ b ∈ s.reservedFor i, (t.tapBlock b).state = .free ∧ (t.tapBlock b).owner = none)
      ∧ ∀ k, k ≠ i → t.ctx k = s.ctx k

/-- HAND_OVER (R21 to R24, R162 to R165): at its hand-over frame a home with a GRANT carried becomes HANDED and stops
serving; a RESERVED bidder becomes TAKEN and starts with call-present set and the offered profile in use, in RUN in a
search on its reserved blocks: up to the budget and the reach they stand in ascending number on segments 0, 1, .. of
pass 1, its want, and the others are released, as they all are in BYPASS and with a budget of 0 (R90); a HANDED or
RECLAIMING home whose slot returns serves again in HOME-SERVING with call-present clear; a start that finds its
context serving has no effect; a RETURNING guest stops and is free. The command and its order of stop and start are
the model's reading (log entries 3 and 19). -/
def Obligations.HandOverTakesEffect : Prop :=
  ∀ (s : State) (slot : BitVec 7) (i f : Nat), s.profile.station.serves = true → s.lookup slot.toNat = some i →
    i < s.table.contexts.length → s.table.directory.length = 128 → (s.ctx i).slot = some slot.toNat → f ≤ s.frame →
    ((s.ctx i).kind = .home → (s.ctx i).stopAt = some f → (s.ctx i).startAt = none →
      ∃ t, exec (.handOver slot) s = .next t ∧ (t.ctx i).role = .handed ∧ (t.ctx i).server = (s.ctx i).grantee
        ∧ (t.ctx i).callState = .notServing ∧ (t.ctx i).serving = none ∧ (t.ctx i).search = none
        ∧ (t.ctx i).offer = none ∧ (t.ctx i).stopAt = none ∧ (t.ctx i).toneHold = false
        ∧ t.highway.pipeline.getD slot.toNat [] = [] ∧ (t.ctx i).profile = (s.ctx i).profile
        ∧ ∀ k, k ≠ i → (t.ctx k).steady = (s.ctx k).steady)
    ∧ ((s.ctx i).kind = .guest → (s.ctx i).role = .reserved → (s.ctx i).stopAt = none → (s.ctx i).startAt = some f →
        ∀ r, (s.ctx i).reservation = some r →
        ∃ t sv, exec (.handOver slot) s = .next t ∧ (t.ctx i).serving = some sv ∧ (t.ctx i).role = .taken
          ∧ (t.ctx i).reservation = none ∧ (t.ctx i).startAt = none ∧ sv.callPresent = true ∧ sv.profile = r.profile
          ∧ sv.phase = 0 ∧ t.highway.pipeline.getD slot.toNat [] = []
          ∧ ((s.ctx i).transparent = true ∨ s.profile.station ≠ .run → (t.ctx i).callState = .bypass)
          ∧ (s.poolSound →
              (let B := (s.profileAt r.profile).budget
               let reach := (s.profileAt r.profile).reach
               let R := s.reservedFor i
               let searches : Prop := (s.ctx i).transparent = false ∧ s.profile.station = .run
               (searches → 0 < B →
                 (t.ctx i).callState = .search ∧ ∃ r', (t.ctx i).search = some r'
                  ∧ r'.pass = 1 ∧ r'.status = .inPass ∧ r'.dwell = 0 ∧ r'.retained = [] ∧ r'.spare = []
                  ∧ r'.bound = (List.range reach).zip (R.take B) ∧ r'.want = min reach (min B R.length)
                  ∧ r'.explored = List.range (min reach (min B R.length))
                  ∧ ∀ jb ∈ r'.bound, (t.tapBlock jb.2).state = .assigned
                      ∧ (t.tapBlock jb.2).owner = some ⟨i, slot.toNat⟩ ∧ (t.tapBlock jb.2).segment = some jb.1
                      ∧ (t.tapBlock jb.2).entries = List.replicate 64 ⟨0, 0, 0⟩)
               ∧ (searches → B = 0 → (t.ctx i).callState = .track ∧ ∃ r', (t.ctx i).search = some r'
                  ∧ r'.want = 0 ∧ r'.map = [] ∧ r'.spare = [])
               ∧ (s.pool.shortfall = [] → (∀ b ∈ R, (s.tapBlock b).retirePending = false) →
                  (searches → t.pool.fifo = s.pool.fifo ++ R.drop B ++ (R.take B).drop reach)
                  ∧ (¬searches → t.pool.fifo = s.pool.fifo ++ R))))
          ∧ ∀ k, k ≠ i → (t.ctx k).steady = (s.ctx k).steady)
    ∧ ((s.ctx i).kind = .home → (s.ctx i).role = .handed ∨ (s.ctx i).role = .reclaiming → (s.ctx i).stopAt = none →
        (s.ctx i).startAt = some f →
        ∃ t sv, exec (.handOver slot) s = .next t ∧ (t.ctx i).serving = some sv ∧ (t.ctx i).role = .homeServing
          ∧ (t.ctx i).server = none ∧ (t.ctx i).startAt = none ∧ (t.ctx i).reclaim = none
          ∧ sv.callPresent = false ∧ sv.profile = (s.ctx i).profile
          ∧ (t.ctx i).callState =
              (if (s.ctx i).transparent = true ∨ s.profile.station ≠ .run then .bypass else .idle)
          ∧ (∀ e ∈ t.lane.queue, e.isReclaim slot.toNat = false) ∧ t.pool = s.pool
          ∧ ∀ k, k ≠ i → t.ctx k = s.ctx k)
    ∧ ((s.ctx i).role.serves = true → (s.ctx i).stopAt = none → (s.ctx i).startAt = some f →
        exec (.handOver slot) s = .next (s.setCtx i { s.ctx i with startAt := none }))
    ∧ ((s.ctx i).kind = .guest → (s.ctx i).stopAt = some f → (s.ctx i).startAt = none →
        ∃ t, exec (.handOver slot) s = .next t ∧ t.ctx i = freeGuest ∧ t.lookup slot.toNat = none
          ∧ t.highway.pipeline.getD slot.toNat [] = [] ∧ ∀ k, k ≠ i → (t.ctx k).steady = (s.ctx k).steady)

/-! ### Cells -/

/-- CELL_START in CONFIG and RUN (R141, R150, R158): a queued OFFER takes its profile and frozen flag from its
context; the first entry in queue order whose eligible frame has come, and for a BID whose offer is at most four
frames old, is sent; the station loses at the first bit whose level read differs from the bit it sends, asserts its 1
bits up to that bit and releases the line after it; with no eligible entry it asserts nothing. That the levels of the
whole cell are given at its start is the model's form (log entry 16). -/
def Obligations.CellStartSendsFirstEligible : Prop :=
  ∀ (s : State) (name : CellName) (line : BitVec 128), s.profile.station.serves = true → s.lane.recalled = [] →
    ∃ t cell, exec (.cellStart name line) s = .next t ∧ t.lane.cell = some cell ∧ cell.name = name ∧ cell.line = line
      ∧ t.lane.lastCell = name
      ∧ t.lane.queue = s.lane.queue.map (fun e => match e.msg with
          | .offer slot demand _ _ k => match s.lookup slot.toNat with
            | some i => ⟨.offer slot demand (BitVec.ofNat 3 (s.ctx i).profile)
                (if (s.ctx i).frozen = true then 1 else 0) k, e.eligible, e.offerFrame⟩
            | none => e
          | _ => e)
      ∧ t.table = s.table ∧ t.pool = s.pool
      ∧ cell.sending = t.lane.queue.find? (fun e => decide (e.eligible ≤ s.frame)
          && (e.msg.kind != 12 || e.offerFrame.elim true fun o => decide (s.frame ≤ o + 4)))
      ∧ (cell.sending = none → cell.asserted = 0 ∧ cell.lostAt = none)
      ∧ ∀ e, cell.sending = some e →
          (cell.lostAt = none ↔ line = cellOf e.msg)
          ∧ (∀ p, cell.lostAt = some p → p < 128 ∧ (cellOf e.msg).getMsbD p ≠ line.getMsbD p
              ∧ ∀ b < p, (cellOf e.msg).getMsbD b = line.getMsbD b)
          ∧ ∀ b < 128, (cell.asserted.getMsbD b = true ↔
              (cellOf e.msg).getMsbD b = true ∧ ∀ p, cell.lostAt = some p → b ≤ p)

/-- CELL_END (R142, R145 to R149, R152): the entries withdrawn during the cell leave the queue, and a cell read back
whole takes its own entry out of it. Of a cell not won, an empty one counts nothing; one that fails the check, holds a
kind not in use or a sender that does not fit is discarded and counted with no other effect; one in this station's own
name raises the clash count and queues a STATION CLASH notice with its kind and its cell; and any other has the effect
of its message's command, the surplus count rising first when a surplus position holds a 1. That withdrawals made
during a cell wait for its end is the model's reading (log entry 31), and so is the message command (log entry 16). -/
def Obligations.CellEndJudges : Prop :=
  ∀ (s : State) (cell : Cell), s.profile.station ≠ .held → s.lane.cell = some cell →
    (let settled : Lane := { s.lane with queue := s.lane.queue.diff s.lane.recalled, recalled := [], cell := none }
     (∀ e, cell.sending = some e → cell.lostAt = none →
      ∃ t, exec .cellEnd s = .next t ∧ t.lane.cell = none ∧ t.lane.recalled = []
        ∧ (e ∉ s.lane.recalled → t.lane.queue = (s.lane.queue.diff s.lane.recalled).erase e)
        ∧ (e ∈ s.lane.recalled → t.lane.queue = s.lane.queue.diff s.lane.recalled)
        ∧ t.lane.discards = s.lane.discards ∧ t.pool = s.pool ∧ t.highway = s.highway ∧ t.profile = s.profile)
     ∧ (cell.sending = none ∨ cell.lostAt ≠ none →
        (cell.line = 0 → exec .cellEnd s = .next { s with lane := settled })
        ∧ (cell.line ≠ 0 → (checkPasses cell.line = false ∨ parseCell cell.line = none
              ∨ ∃ m, parseCell cell.line = some m ∧ senderFits m = false) →
            exec .cellEnd s = .next { s with lane := { settled with
              discards := min 65535 (s.lane.discards + 1) } })
        ∧ ∀ m, parseCell cell.line = some m → checkPasses cell.line = true → senderFits m = true →
            (m.sender = s.profile.k → maskBit s.profile.noticeMask 10 = true → s.lane.queue.length < 16 →
              s.lane.lastCell = cell.name → s.lane.drops ≤ 65535 →
              (let place := match cell.name with
                 | .a => 1
                 | .b => 2
                 | .c => 3
               let notice : Msg := .notice 10 (BitVec.ofNat 16 (m.kind * 4096 + place * 1024)) s.me
               exec .cellEnd s = .next { s with lane := { settled with
                 clashes := min 65535 (s.lane.clashes + 1)
                 queue := insertEntry ⟨notice, s.frame, none⟩ (s.lane.queue.diff s.lane.recalled) } }))
            ∧ (m.sender ≠ s.profile.k → s.profile.station.receives = true → ∀ c : Instr, c.message? = some m →
              exec .cellEnd s = exec c { s with lane := { settled with
                surplus := if cell.line = cellOf m then s.lane.surplus else min 65535 (s.lane.surplus + 1) } })))

/-- CELL_END, the carried records (R158, R159, R161, R162, R164, R168, R170): the frame of a carried OFFER, BID,
GRANT, RETURN, ADOPT or RECLAIM reaches the context or record whose deadlines run from it; an OFFER withdrawn during
its cell opens nothing. What a carried GRANT or RETURN does to a context whose offer or reason has gone is the model's
reading (log entry 10), and so is that a withdrawal waits for the end of the cell (log entry 31). -/
def Obligations.CarriedRecords : Prop :=
  ∀ (s : State) (cell : Cell) (e : Entry) (slot : BitVec 7) (k : BitVec 4), s.profile.station ≠ .held →
    s.lane.cell = some cell → cell.sending = some e → cell.lostAt = none →
    (∀ margin, e.msg = .adopt slot margin k → e ∉ s.lane.recalled →
      ∃ t, exec .cellEnd s = .next t ∧ t.share.adopting = s.share.adopting ++ [(slot.toNat, s.frame)]
        ∧ t.table = s.table)
    ∧ (∀ demand profile frozen, e.msg = .offer slot demand profile frozen k → e ∈ s.lane.recalled →
      ∃ t, exec .cellEnd s = .next t ∧ t.table = s.table ∧ t.share = s.share)
    ∧ ∀ i, s.lookup slot.toNat = some i → i < s.table.contexts.length →
      (∀ o, (s.ctx i).offer = some o → ∀ demand profile frozen, e.msg = .offer slot demand profile frozen k →
          e ∉ s.lane.recalled →
        ∃ t, exec .cellEnd s = .next t ∧ t.ctx i = { s.ctx i with offer := some { o with frame := some s.frame } }
          ∧ ∀ n, n ≠ i → t.ctx n = s.ctx n)
      ∧ (∀ r, (s.ctx i).reservation = some r → ∀ margin, e.msg = .bid slot margin k →
        ∃ t, exec .cellEnd s = .next t
          ∧ t.ctx i = { s.ctx i with reservation := some { r with bidFrame := some s.frame } }
          ∧ ∀ n, n ≠ i → t.ctx n = s.ctx n)
      ∧ (∀ taker, e.msg = .grant slot taker k → (s.ctx i).kind = .home → s.serves i = true →
        ∃ t, exec .cellEnd s = .next t
          ∧ t.ctx i = { s.ctx i with stopAt := some (s.frame + 2), grantee := some taker.toNat }
          ∧ ∀ n, n ≠ i → t.ctx n = s.ctx n)
      ∧ (∀ cause, e.msg = .returnSlot slot cause k → ((s.ctx i).role = .taken ∨ (s.ctx i).role = .actingHome) →
          (cause = 0 ∨ cause = 3) →
        ∃ t, exec .cellEnd s = .next t
          ∧ t.ctx i = { s.ctx i with role := .returning, pendingReturn := false, stopAt := some (s.frame + 2) }
          ∧ ∀ n, n ≠ i → t.ctx n = s.ctx n)
      ∧ ∀ r, (s.ctx i).reclaim = some r → e.msg = .reclaim slot k →
        ∃ t, exec .cellEnd s = .next t
          ∧ t.ctx i = { s.ctx i with reclaim := some { r with age := 0, carried := some s.frame } }
          ∧ ∀ n, n ≠ i → t.ctx n = s.ctx n

/-! ### Sharing messages -/

/-- OFFER (R37, R105, R157, R159): with room the station reserves the demand from the FIFO head, its lowest free guest
enters RESERVED with the fields of the OFFER, and a BID with margin FREE after the reservation joins the queue for the
frames after the OFFER's; without room only the offer memory changes. A message command is a cell with a sound check
that this station did not win (log entry 16). -/
def Obligations.OfferDelivered : Prop :=
  ∀ (s : State) (slot : BitVec 7) (demand : BitVec 5) (profile : BitVec 3) (frozen : BitVec 1) (k : BitVec 4),
    s.hearsStation k → s.share.offers.length = 128 →
    ((s.lookup slot.toNat ≠ none ∨ s.freeGuest? = none ∨ demand = 0 ∨ 16 < demand.toNat
        ∨ s.pool.fifo.length < demand.toNat) →
      exec (.offer slot demand profile frozen k) s = .next { s with share := { s.share with
        offers := s.share.offers.set slot.toNat
          (some ⟨k.toNat, demand.toNat, profile.toNat, decide (frozen = 1), s.frame⟩) } })
    ∧ ∀ i, s.lookup slot.toNat = none → s.freeGuest? = some i → demand ≠ 0 → demand.toNat ≤ 16 →
        demand.toNat ≤ s.pool.fifo.length → s.lane.queue.length < 16 → s.table.directory.length = 128 →
        (∀ b ∈ s.pool.fifo, b < s.pool.blocks.length) →
        (let margin := min 255 (s.pool.fifo.length - demand.toNat)
         ∃ t, exec (.offer slot demand profile frozen k) s = .next t
          ∧ t.share.offers.getD slot.toNat none
              = some ⟨k.toNat, demand.toNat, profile.toNat, decide (frozen = 1), s.frame⟩
          ∧ t.lookup slot.toNat = some i ∧ (t.ctx i).role = .reserved ∧ (t.ctx i).slot = some slot.toNat
          ∧ (t.ctx i).profile = profile.toNat ∧ (t.ctx i).frozen = decide (frozen = 1)
          ∧ (t.ctx i).transparent = false
          ∧ (t.ctx i).reservation = some ⟨demand.toNat, profile.toNat, margin, none⟩
          ∧ t.pool.fifo = s.pool.fifo.drop demand.toNat
          ∧ (∀ b ∈ s.pool.fifo.take demand.toNat, (t.tapBlock b).state = .reserved
              ∧ (t.tapBlock b).owner = some ⟨i, slot.toNat⟩ ∧ (t.tapBlock b).segment = none)
          ∧ t.lane.queue = insertEntry ⟨.bid slot (BitVec.ofNat 8 margin) s.me, s.frame + 1, some s.frame⟩ s.lane.queue
          ∧ ∀ n, n ≠ i → t.ctx n = s.ctx n)

/-- BID (R103, R105, R160, R161): a home with its OFFER carried keeps the best bid, the higher margin and then the
higher station; a RESERVED context beaten by another station's BID withdraws, its unmarked reserved blocks going to
the FIFO tail in ascending order when no context waits. A message command is a cell with a sound check that this
station did not win (log entry 16). -/
def Obligations.BidDelivered : Prop :=
  ∀ (s : State) (slot : BitVec 7) (margin : BitVec 8) (k : BitVec 4) (i : Nat), s.hearsStation k →
    s.lookup slot.toNat = some i → i < s.table.contexts.length →
    (∀ r, (s.ctx i).offer = some r → ∀ o, r.frame = some o → (s.ctx i).role = .homeOffering →
      ((∀ b, r.best = some b → b.2 < margin.toNat ∨ (b.2 = margin.toNat ∧ b.1 < k.toNat)) →
        exec (.bid slot margin k) s = .next (s.setCtx i { s.ctx i with
          offer := some ⟨some o, some (k.toNat, margin.toNat)⟩ }))
      ∧ (∀ b, r.best = some b → ¬(b.2 < margin.toNat ∨ (b.2 = margin.toNat ∧ b.1 < k.toNat)) →
        exec (.bid slot margin k) s = .next s))
    ∧ ∀ r, (s.ctx i).reservation = some r → (s.ctx i).role = .reserved → (s.ctx i).offer = none →
        (s.ctx i).slot = some slot.toNat → (s.ctx i).callState = .notServing → (s.ctx i).startAt = none →
        s.table.directory.length = 128 →
        ((r.margin < margin.toNat ∨ (r.margin = margin.toNat ∧ s.profile.k < k.toNat)) →
          ∃ t, exec (.bid slot margin k) s = .next t ∧ t.ctx i = freeGuest ∧ t.lookup slot.toNat = none
            ∧ (∀ e ∈ t.lane.queue, e.isBid slot.toNat = false) ∧ t.share = s.share
            ∧ (s.pool.shortfall = [] → s.pool.blocks.length = 264 →
                (∀ b ∈ s.reservedFor i, (s.tapBlock b).retirePending = false) →
                t.pool.fifo = s.pool.fifo ++ s.reservedFor i
                  ∧ ∀ b ∈ s.reservedFor i, (t.tapBlock b).state = .free ∧ (t.tapBlock b).owner = none)
            ∧ ∀ n, n ≠ i → (t.ctx n).steady = (s.ctx n).steady)
        ∧ (¬(r.margin < margin.toNat ∨ (r.margin = margin.toNat ∧ s.profile.k < k.toNat)) →
            exec (.bid slot margin k) s = .next s)

/-- GRANT (R160, R163): a RESERVED context named as taker takes hand-over frame g+2, by the model's choice (log entry
35) also where an earlier GRANT's start is pending; one that is not named withdraws; a named station with a context in
another role answers cannot serve. A named station without a context takes the slot on its offer memory entry of the
same sender when it has a free guest and the demand in its FIFO, which it reserves; it answers late grant when it has
not, when it has no entry, and, by the model's choice (log entry 28), when the entry is another sender's. A message
command is a cell with a sound check that this station did not win (log entry 16). -/
def Obligations.GrantDelivered : Prop :=
  ∀ (s : State) (slot : BitVec 7) (taker k : BitVec 4), s.hearsStation k →
    (∀ i, s.lookup slot.toNat = some i → taker.toNat = s.profile.k → (s.ctx i).role = .reserved →
      exec (.grant slot taker k) s = .next (s.setCtx i { s.ctx i with startAt := some (s.frame + 2) }))
    ∧ (∀ i, s.lookup slot.toNat = some i → taker.toNat = s.profile.k → (s.ctx i).role ≠ .reserved →
        s.lane.queue.length < 16 →
        ∃ t, exec (.grant slot taker k) s = .next t ∧ t.table = s.table ∧ t.pool = s.pool
          ∧ t.lane.queue = insertEntry ⟨.returnSlot slot 2 s.me, s.frame, none⟩ s.lane.queue)
    ∧ (taker.toNat = s.profile.k → s.lookup slot.toNat = none →
        (∀ m, s.share.offers.getD slot.toNat none = some m →
          m.sender ≠ k.toNat ∨ s.freeGuest? = none ∨ s.pool.fifo.length < m.demand) →
        s.lane.queue.length < 16 →
        ∃ t, exec (.grant slot taker k) s = .next t ∧ t.table = s.table ∧ t.pool = s.pool
          ∧ t.lane.queue = insertEntry ⟨.returnSlot slot 1 s.me, s.frame, none⟩ s.lane.queue)
    ∧ (∀ m, s.share.offers.getD slot.toNat none = some m → ∀ i, s.freeGuest? = some i →
        taker.toNat = s.profile.k → s.lookup slot.toNat = none → m.sender = k.toNat →
        m.demand ≤ s.pool.fifo.length → s.table.directory.length = 128 → (∀ b ∈ s.pool.fifo, b < s.pool.blocks.length) →
        ∃ t, exec (.grant slot taker k) s = .next t ∧ t.lookup slot.toNat = some i ∧ (t.ctx i).role = .reserved
          ∧ (t.ctx i).slot = some slot.toNat ∧ (t.ctx i).startAt = some (s.frame + 2)
          ∧ (t.ctx i).profile = m.profile ∧ (t.ctx i).frozen = m.frozen ∧ (t.ctx i).transparent = false
          ∧ ((t.ctx i).reservation.map fun r => (r.demand, r.profile)) = some (m.demand, m.profile)
          ∧ t.pool.fifo = s.pool.fifo.drop m.demand
          ∧ (∀ b ∈ s.pool.fifo.take m.demand, (t.tapBlock b).state = .reserved
              ∧ (t.tapBlock b).owner = some ⟨i, slot.toNat⟩)
          ∧ t.lane = s.lane ∧ ∀ n, n ≠ i → t.ctx n = s.ctx n)
    ∧ (∀ i, s.lookup slot.toNat = some i → taker.toNat ≠ s.profile.k → i < s.table.contexts.length →
        (s.ctx i).role = .reserved → (s.ctx i).startAt = none → (s.ctx i).slot = some slot.toNat →
        (s.ctx i).callState = .notServing → s.table.directory.length = 128 →
        ∃ t, exec (.grant slot taker k) s = .next t ∧ t.ctx i = freeGuest ∧ t.lookup slot.toNat = none
          ∧ ∀ e ∈ t.lane.queue, e.isBid slot.toNat = false)

/-- RETURN in CONFIG and RUN (R165, R167): a HANDED home whose server returns, and a RECLAIMING home, take hand-over
frame r+2, and so does a home whose GRANT was carried in an earlier frame; that a second RETURN, while an earlier
start is pending, sets the later frame is the model's choice (log entry 29); a RETURN of the taker in the GRANT's own
frame stops the hand-over; any other role keeps its context, a HOME-SERVING one whose stop is still pending too, by
the model's choice (log entry 40). In RUN a cannot-serve RETURN for a slot homed elsewhere sets the slot's absence
count to 8, whether or not this station holds a context for it; in CONFIG, and with another cause, it changes nothing.
That a message command is a cell with a sound check that this station did not win is the model's reading (log entry
16). -/
def Obligations.ReturnDelivered : Prop :=
  ∀ (s : State) (slot : BitVec 7) (cause : BitVec 3) (k : BitVec 4), s.profile.station.serves = true →
    k.toNat < 8 → k.toNat ≠ s.profile.k →
    (∀ i, s.lookup slot.toNat = some i → s.isHome slot.toNat = true → (s.ctx i).kind = .home →
      (((s.ctx i).role = .handed ∧ (s.ctx i).server = some k.toNat) ∨ (s.ctx i).role = .reclaiming →
        exec (.returnSlot slot cause k) s = .next (s.setCtx i { s.ctx i with startAt := some (s.frame + 2) }))
      ∧ ((s.ctx i).role = .homeOffering → (s.ctx i).grantee = some k.toNat →
          ((s.ctx i).stopAt = some (s.frame + 2) →
            exec (.returnSlot slot cause k) s = .next (s.setCtx i { s.ctx i with
              role := .homeServing, offer := none, stopAt := none, grantee := none }))
          ∧ (∀ f, (s.ctx i).stopAt = some f → f ≠ s.frame + 2 →
            exec (.returnSlot slot cause k) s = .next (s.setCtx i { s.ctx i with startAt := some (s.frame + 2) })))
      ∧ ((s.ctx i).role = .homeServing ∨ ((s.ctx i).role = .handed ∧ (s.ctx i).server ≠ some k.toNat) →
          exec (.returnSlot slot cause k) s = .next s))
    ∧ (s.isHome slot.toNat = false → (∀ i, s.lookup slot.toNat = some i → (s.ctx i).kind = .guest) →
        (s.profile.station = .run → cause = 2 →
          exec (.returnSlot slot cause k) s = .next { s with share := { s.share with
            absence := s.share.absence.set slot.toNat 8 } })
        ∧ (s.profile.station = .config ∨ cause ≠ 2 → exec (.returnSlot slot cause k) s = .next s))

/-- ADOPT, RECLAIM and RECLAIM_AGE_EXPIRY (R167 to R170): another station's ADOPT withdraws this station's own and
clears the slot's absence count, and in LISTEN it enters the LISTEN record of a home slot and does nothing else; a
RECLAIM from the slot's home makes an idle server queue a RETURN with cause reclaimed and any other server remember
it; a RECLAIMING home whose age has reached 8000 queues a new RECLAIM. That a queued RETURN with cause late grant or
cannot serve for the slot does not keep the RECLAIM without effect, where R170 names no cause, is the model's choice
(log entry 38). The message commands and RECLAIM_AGE_EXPIRY are read as log entries 3 and 16 say. -/
def Obligations.AdoptAndReclaim : Prop :=
  ∀ (s : State) (slot : BitVec 7),
    (∀ (k : BitVec 4) (margin : BitVec 8), s.hearsStation k →
      exec (.adopt slot margin k) s = .next { s with
        lane := { s.lane with queue := s.lane.queue.filter fun e => !e.isAdopt slot.toNat }
        share := { s.share with absence := s.share.absence.set slot.toNat 0 } })
    ∧ (∀ (k : BitVec 4) (margin : BitVec 8), s.profile.station = .listen → k.toNat < 8 → k.toNat ≠ s.profile.k →
        ∃ t, exec (.adopt slot margin k) s = .next t
          ∧ t = { s with share := { s.share with listenAdopt := t.share.listenAdopt } }
          ∧ ∀ b < 128, (t.share.listenAdopt.getLsbD b = true ↔
              s.share.listenAdopt.getLsbD b = true ∨ (b = slot.toNat ∧ s.isHome b = true)))
    ∧ (∀ (k : BitVec 4) (i : Nat), s.hearsStation k → slot.toNat % s.profile.n = k.toNat →
        s.lookup slot.toNat = some i → i < s.table.contexts.length → (s.ctx i).slot = some slot.toNat →
        ((s.ctx i).role = .taken ∨ (s.ctx i).role = .actingHome) →
        (∀ e ∈ s.lane.queue, e.isReturn slot.toNat = false) →
        ((s.ctx i).callState ≠ .idle →
          exec (.reclaim slot k) s = .next (s.setCtx i { s.ctx i with pendingReturn := true }))
        ∧ ((s.ctx i).callState = .idle → s.lane.queue.length < 16 →
            ∃ t, exec (.reclaim slot k) s = .next t ∧ t.ctx i = { s.ctx i with pendingReturn := true }
              ∧ (∀ n, n ≠ i → t.ctx n = s.ctx n) ∧ t.pool = s.pool
              ∧ t.lane.queue = insertEntry ⟨.returnSlot slot 3 s.me, s.frame, none⟩ s.lane.queue))
    ∧ ∀ (i : Nat) (r : Reclaim), s.profile.station.serves = true → s.lookup slot.toNat = some i →
        (s.ctx i).slot = some slot.toNat → (s.ctx i).role = .reclaiming → (s.ctx i).reclaim = some r → 8000 ≤ r.age →
        (∀ e ∈ s.lane.queue, e.isReclaim slot.toNat = false) → s.lane.queue.length < 16 →
        ∃ t, exec (.reclaimAgeExpiry slot) s = .next t ∧ t.table = s.table ∧ t.pool = s.pool
          ∧ t.lane.queue = insertEntry ⟨.reclaim slot s.me, s.frame, none⟩ s.lane.queue

/-! ### The supervisory card -/

/-- PROFILE_ACTION, TRANSPARENT_ON, TRANSPARENT_OFF, FREEZE, RESUME and NO_ACTION (R31 to R35): the action is recorded
in the context that holds the slot, whatever its role; one that does not serve records it and nothing else; a serving
context not in BYPASS goes to BYPASS on TRANSPARENT ON and keeps its call-present indicator; one in BYPASS in RUN goes
on TRANSPARENT OFF to IDLE without a call and starts its call with one (R27, R29). A message command is a cell with a
sound check that this station did not win (log entry 16). -/
def Obligations.SlotControls : Prop :=
  ∀ (s : State) (slot : BitVec 7) (k : BitVec 4) (i : Nat), s.hearsCard k → s.lookup slot.toNat = some i →
    (∀ p : BitVec 3, exec (.profileAction slot p k) s = .next (s.setCtx i { s.ctx i with profile := p.toNat }))
    ∧ exec (.freeze slot k) s = .next (s.setCtx i { s.ctx i with frozen := true })
    ∧ exec (.resume slot k) s = .next (s.setCtx i { s.ctx i with frozen := false })
    ∧ exec (.noAction slot k) s = .next s
    ∧ (s.serves i = false ∨ (s.ctx i).callState = .bypass →
        exec (.transparentOn slot k) s = .next (s.setCtx i { s.ctx i with transparent := true }))
    ∧ (∀ sv, (s.ctx i).serving = some sv → s.serves i = true → (s.ctx i).callState ≠ .bypass →
        ∃ t sv', exec (.transparentOn slot k) s = .next t ∧ (t.ctx i).serving = some sv'
          ∧ (t.ctx i).transparent = true ∧ (t.ctx i).callState = .bypass ∧ (t.ctx i).search = none
          ∧ (t.ctx i).toneHold = false ∧ sv'.callPresent = sv.callPresent ∧ t.outside = s.outside
          ∧ ∀ n, n ≠ i → (t.ctx n).steady = (s.ctx n).steady)
    ∧ (s.serves i = false ∨ (s.ctx i).callState ≠ .bypass ∨ s.profile.station ≠ .run →
        exec (.transparentOff slot k) s = .next (s.setCtx i { s.ctx i with transparent := false }))
    ∧ ∀ sv, (s.ctx i).serving = some sv → s.serves i = true → (s.ctx i).callState = .bypass →
        s.profile.station = .run →
        (sv.callPresent = false →
          ∃ t, exec (.transparentOff slot k) s = .next t ∧ (t.ctx i).transparent = false
            ∧ (t.ctx i).callState = .idle ∧ t.outside = s.outside
            ∧ ∀ n, n ≠ i → (t.ctx n).steady = (s.ctx n).steady)
        ∧ (sv.callPresent = true → 1 ≤ (s.profileAt (s.ctx i).profile).reach →
          ∃ t sv', exec (.transparentOff slot k) s = .next t ∧ (t.ctx i).serving = some sv'
            ∧ (t.ctx i).transparent = false
            ∧ (t.ctx i).callState = (if (s.profileAt (s.ctx i).profile).budget = 0 then .track else .search)
            ∧ (t.ctx i).toneHold = false ∧ (t.ctx i).frozen = (s.ctx i).frozen
            ∧ sv'.callPresent = true ∧ sv'.idleRun = sv.idleRun ∧ sv'.phase = sv.phase
            ∧ sv'.profile = (s.ctx i).profile ∧ sv'.history = [] ∧ sv'.power = 0 ∧ sv'.hangover = 0
            ∧ sv'.dtFlag = false ∧ sv'.nlp = .opened ∧ sv'.noise = 64 ∧ sv'.hold = none ∧ sv'.pathRun = 0
            ∧ sv'.receive.gain = (s.profileAt (s.ctx i).profile).receiveG
            ∧ sv'.send.gain = (s.profileAt (s.ctx i).profile).sendG
            ∧ t.outside = s.outside ∧ ∀ n, n ≠ i → (t.ctx n).steady = (s.ctx n).steady)

/-- SETTLE and RESTART (R36, R85, R88 to R90): SETTLE of a search that holds no block, or none on a significant
segment, ends it level-only in TRACK, its blocks given back and SEARCH DONE queued; RESTART in SEARCH or TRACK
searches from pass 1 with nothing retained and the signal state kept: where no other context waits and none of its
blocks bears a mark, on a request of its budget behind its own blocks, and with a budget of 0 level-only at once.
Neither has any effect in another call state or on a context that does not serve. A message command is a cell with a
sound check that this station did not win (log entry 16). -/
def Obligations.SettleAndRestart : Prop :=
  ∀ (s : State) (slot : BitVec 7) (k : BitVec 4) (i : Nat), s.hearsCard k → s.lookup slot.toNat = some i →
    (∀ r, s.serves i = true → (s.ctx i).callState = .search → (s.ctx i).search = some r → r.map = [] → r.spare = [] →
      ∃ t r', exec (.settle slot k) s = .next t ∧ (t.ctx i).callState = .track ∧ (t.ctx i).search = some r'
        ∧ r'.want = 0 ∧ r'.retained = [] ∧ r'.map = [] ∧ r'.spare = [] ∧ t.outside = s.outside
        ∧ ∀ n, n ≠ i → (t.ctx n).steady = (s.ctx n).steady)
    ∧ (∀ r, s.serves i = true → (s.ctx i).callState = .search → (s.ctx i).search = some r → s.poolSound →
      s.significantOrder r [] →
      ∃ t r', exec (.settle slot k) s = .next t ∧ (t.ctx i).callState = .track ∧ (t.ctx i).search = some r'
        ∧ r'.want = 0 ∧ r'.retained = [] ∧ r'.map = [] ∧ r'.spare = [] ∧ r'.pass = r.pass ∧ r'.explored = r.explored
        ∧ t.outside = s.outside ∧ (∀ n, n ≠ i → (t.ctx n).steady = (s.ctx n).steady)
        ∧ ((∀ h ∈ s.pool.shortfall, h = i) → ∀ H, s.holdsUnmarked i H → s.levelOnly i H t))
    ∧ (s.serves i = false ∨ (s.ctx i).callState ≠ .search → exec (.settle slot k) s = .next s)
    ∧ (∀ sv, s.serves i = true → (s.ctx i).serving = some sv → (s.ctx i).callState.processes = true →
        0 < (s.profileOf i).budget → 0 < (s.profileOf i).reach →
        ∃ t sv' r, exec (.restart slot k) s = .next t ∧ (t.ctx i).serving = some sv' ∧ (t.ctx i).search = some r
          ∧ (t.ctx i).callState = .search ∧ r.pass ≤ 1 ∧ r.dwell = 0 ∧ r.retained = []
          ∧ sv'.hold = none ∧ sv'.pathRun = 0 ∧ sv'.history = sv.history ∧ sv'.power = sv.power
          ∧ sv'.noise = sv.noise ∧ sv'.nlp = sv.nlp ∧ sv'.receive.gain = sv.receive.gain
          ∧ sv'.send.gain = sv.send.gain ∧ sv'.toneReceive = sv.toneReceive ∧ sv'.toneSend = sv.toneSend
          ∧ sv'.callPresent = sv.callPresent ∧ t.outside = s.outside
          ∧ (∀ n, n ≠ i → (t.ctx n).steady = (s.ctx n).steady)
          ∧ (s.poolSound → (∀ h ∈ s.pool.shortfall, h = i) → ∀ H X, s.holdsUnmarked i H →
              s.searchesFrom i [] (s.pool.fifo ++ H) X t))
    ∧ (∀ sv, s.serves i = true → (s.ctx i).serving = some sv → (s.ctx i).callState.processes = true →
        (s.profileOf i).budget = 0 →
        ∃ t sv' r, exec (.restart slot k) s = .next t ∧ (t.ctx i).serving = some sv' ∧ (t.ctx i).search = some r
          ∧ (t.ctx i).callState = .track ∧ r.map = [] ∧ r.spare = [] ∧ r.want = 0 ∧ r.retained = [] ∧ r.explored = []
          ∧ sv'.hold = none ∧ sv'.pathRun = 0 ∧ sv'.history = sv.history ∧ t.outside = s.outside
          ∧ (∀ n, n ≠ i → (t.ctx n).steady = (s.ctx n).steady)
          ∧ (s.poolSound → (∀ h ∈ s.pool.shortfall, h = i) → ∀ H, s.holdsUnmarked i H → s.levelOnly i H t))
    ∧ (s.serves i = false ∨ (s.ctx i).callState.processes = false → exec (.restart slot k) s = .next s)

/-- PROFILE_MESSAGE and RUN_MESSAGE (R11, R144, R176 to R178): addressed here in CONFIG they store their fields,
clamped; in RUN they are refused with a CONFIG REFUSED notice and change nothing else. A message command is a cell
with a sound check that this station did not win (log entry 16). -/
def Obligations.ConfigurationMessages : Prop :=
  ∀ (s : State) (target k : BitVec 4), s.hearsCard k → (target.toNat = s.profile.k ∨ target = 15) →
    (∀ (index : BitVec 3) (budget reach : BitVec 5) (stp : BitVec 3) (switches sendT recvT : BitVec 5)
        (sendG recvG : BitVec 7),
      (s.profile.station = .config → s.profile.profiles.length = 8 →
        ∃ t p, exec (.profileMessage target index budget reach stp switches sendT recvT sendG recvG k) s = .next t
          ∧ t = { s with profile := { s.profile with profiles := s.profile.profiles.set index.toNat p } }
          ∧ t.profileAt index.toNat = p
          ∧ p.budget = min 16 budget.toNat ∧ p.reach = max 1 (min 16 reach.toNat) ∧ p.step = max 1 (min 6 stp.toNat)
          ∧ p.nlp = switches.getLsbD 4 ∧ p.comfortNoise = switches.getLsbD 3 ∧ p.sendAlc = switches.getLsbD 2
          ∧ p.receiveAlc = switches.getLsbD 1 ∧ p.tone = switches.getLsbD 0
          ∧ p.sendTarget = -(max 6 (min 24 sendT.toNat : Nat) : Int)
          ∧ p.receiveTarget = -(max 6 (min 24 recvT.toNat : Nat) : Int)
          ∧ p.sendG = max (-36) (min 24 sendG.toInt) ∧ p.receiveG = max (-36) (min 24 recvG.toInt))
      ∧ (s.profile.station = .run → maskBit s.profile.noticeMask 9 = true → s.lane.queue.length < 16 →
          ∃ t, exec (.profileMessage target index budget reach stp switches sendT recvT sendG recvG k) s = .next t
            ∧ t.profile = s.profile ∧ t.highway = s.highway ∧ t.table = s.table ∧ t.pool = s.pool
            ∧ t.lane.queue = insertEntry
                ⟨.notice 9 (BitVec.ofNat 16 ((7 * 8 + index.toNat) * 512)) s.me, s.frame, none⟩ s.lane.queue))
    ∧ ∀ (mask idle : BitVec 12) (count : BitVec 3) (c1 c2 c3 c4 : Byte),
      (s.profile.station = .config →
        ∃ t, exec (.runMessage target mask idle count c1 c2 c3 c4 k) s = .next t
          ∧ t.profile = { s.profile with noticeMask := mask, runAccepted := some s.frame }
          ∧ t.highway = { s.highway with
              idleCodes := [c1, c2, c3, c4].take (max 1 (min 4 count.toNat))
              idleCount := max 64 (min 4095 idle.toNat) }
          ∧ t.table = s.table ∧ t.pool = s.pool ∧ t.lane = s.lane ∧ t.share = s.share)
      ∧ (s.profile.station = .run → maskBit s.profile.noticeMask 9 = true → s.lane.queue.length < 16 →
          ∃ t, exec (.runMessage target mask idle count c1 c2 c3 c4 k) s = .next t
            ∧ t.profile = s.profile ∧ t.highway = s.highway ∧ t.table = s.table ∧ t.pool = s.pool
            ∧ t.lane.queue = insertEntry ⟨.notice 9 (BitVec.ofNat 16 (6 * 8 * 512)) s.me, s.frame, none⟩ s.lane.queue)

/-- The six QUERY commands, REPORT, NOTICE, and every message with a sender that does not fit (R145, R146, R149, R179,
R180, R183): a QUERY addressed here is answered with one REPORT of its page and argument, whose body is the page's
content in the layout of R183 after status 0; it is status 1 for a slot not held, 2 for an unknown page, 3 for an
argument out of range, and zeros. That an absent owner slot or segment of a block shows as 0 is the model's choice
(log entry 36). A REPORT or NOTICE of another station has no effect; a sender that does not fit only raises the
discard count. A message command is a cell with a sound check that this station did not win (log entry 16). -/
def Obligations.QueriesAndReports : Prop :=
  (∀ (s : State) (target k : BitVec 4) (argument : BitVec 9) (c : Instr) (page : BitVec 3),
    s.hearsCard k → (target.toNat = s.profile.k ∨ target = 15) → s.lane.queue.length < 16 →
    ((c = .queryIdentity target argument k ∧ page = 0) ∨ (c = .queryStation target argument k ∧ page = 1)
      ∨ (c = .queryChannelA target argument k ∧ page = 2) ∨ (c = .queryChannelB target argument k ∧ page = 3)
      ∨ (c = .queryBlock target argument k ∧ page = 4)
      ∨ (c = .queryUnknownPage target page argument k ∧ 5 ≤ page.toNat)) →
    ∃ t body, exec c s = .next t
      ∧ t.lane.queue = insertEntry ⟨.report page argument body s.me, s.frame, none⟩ s.lane.queue
      ∧ t.table = s.table ∧ t.pool = s.pool ∧ t.highway = s.highway ∧ t.profile = s.profile ∧ t.share = s.share
      ∧ (page = 0 → body = 0#2 ++ 0x5B3#12 ++ 0x6A4#12 ++ 1#4 ++ BitVec.ofNat 3 s.profile.k
          ++ BitVec.ofNat 4 s.profile.n ++ BitVec.ofBool s.profile.clamped ++ 64#7 ++ 264#9 ++ 0#34)
      ∧ (page = 1 → argument = 0 → body = 0#2
          ++ (match s.profile.station with | .listen => 1#3 | .config => 2#3 | _ => 3#3)
          ++ BitVec.ofNat 9 (s.countBlocks .free) ++ BitVec.ofNat 9 (s.countBlocks .assigned)
          ++ BitVec.ofNat 9 (s.countBlocks .reserved) ++ BitVec.ofNat 4 (s.countBlocks .spare)
          ++ BitVec.ofNat 9 (s.countBlocks .failed) ++ BitVec.ofNat 7 s.pool.shortfall.length ++ 0#36)
      ∧ (page = 1 → argument = 1 → body = 0#2 ++ BitVec.ofNat 16 s.lane.discards ++ BitVec.ofNat 16 s.lane.drops
          ++ BitVec.ofNat 16 s.lane.clashes ++ BitVec.ofNat 16 s.lane.surplus ++ 0#22)
      ∧ (∀ i, s.lookup argument.toNat = some i → argument.toNat < 128 →
          (page = 2 → ∃ bound explored : BitVec 16,
            (∀ j < 16, (bound.getLsbD j = true ↔ j ∈ (s.boundOf i).map (·.1)))
            ∧ (∀ j < 16, (explored.getLsbD j = true ↔ j ∈ (s.ctx i).search.elim [] (·.explored)))
            ∧ body = 0#2
              ++ BitVec.ofNat 4 ([Role.homeServing, .homeOffering, .handed, .reclaiming, .guestFree, .reserved, .taken,
                  .actingHome, .returning].idxOf (s.ctx i).role)
              ++ BitVec.ofNat 3 ([CallState.notServing, .idle, .search, .track, .bypass, .disabled].idxOf
                  (s.ctx i).callState)
              ++ BitVec.ofBool (s.ctx i).frozen ++ BitVec.ofBool (s.ctx i).transparent
              ++ BitVec.ofBool (s.ctx i).toneHold ++ BitVec.ofBool (s.ctx i).pendingReturn
              ++ BitVec.ofNat 3 (s.ctx i).profile ++ BitVec.ofNat 3 ((s.ctx i).serving.elim 0 (·.profile))
              ++ BitVec.ofNat 4 ((s.ctx i).server.getD 15)
              ++ BitVec.ofNat 4 (((s.ctx i).offer.bind (·.best)).elim 15 (·.1))
              ++ BitVec.ofNat 8 (((s.ctx i).offer.bind (·.best)).elim 0 (·.2))
              ++ bound ++ explored
              ++ BitVec.ofNat 8 ((s.ctx i).search.elim 0 (·.pass))
              ++ BitVec.ofNat 7 ((s.ctx i).search.elim 0 (·.dwell))
              ++ BitVec.ofNat 5 ((s.ctx i).reservation.elim ((s.ctx i).search.elim 0 (·.want)) (·.demand)) ++ 0#1)
          ∧ (page = 3 → (s.ctx i).serving = none → body = 0)
          ∧ ∀ sv, (s.ctx i).serving = some sv → page = 3 →
              body = 0#2 ++ BitVec.ofInt 7 sv.send.gain ++ BitVec.ofInt 7 sv.receive.gain
                ++ BitVec.ofNat 2 ([AtLimit.clear, .lower, .upper].idxOf sv.send.limit)
                ++ BitVec.ofNat 2 ([AtLimit.clear, .lower, .upper].idxOf sv.receive.limit)
                ++ BitVec.ofNat 16 (reportNumber (sv.power / 256)) ++ BitVec.ofNat 16 (reportNumber sv.msSin)
                ++ BitVec.ofNat 16 (reportNumber sv.msErr) ++ BitVec.ofNat 16 (reportNumber sv.noise) ++ 0#4)
      ∧ (page = 4 → argument.toNat < 264 →
          body = 0#2
            ++ BitVec.ofNat 3 ([BlockState.free, .assigned, .reserved, .spare, .failed].idxOf
                (s.tapBlock argument.toNat).state)
            ++ BitVec.ofBool (s.tapBlock argument.toNat).owner.isSome
            ++ BitVec.ofNat 7 ((s.tapBlock argument.toNat).owner.elim 0 (·.slot))
            ++ BitVec.ofBool (s.tapBlock argument.toNat).segment.isSome
            ++ BitVec.ofNat 4 ((s.tapBlock argument.toNat).segment.getD 0)
            ++ BitVec.ofNat 8 (s.tapBlock argument.toNat).corrected ++ 0#62)
      ∧ (page = 2 ∨ page = 3 → argument.toNat < 128 → s.lookup argument.toNat = none → body = 1 <<< 86)
      ∧ (5 ≤ page.toNat → body = 2 <<< 86)
      ∧ ((page = 1 ∧ 2 ≤ argument.toNat) ∨ ((page = 2 ∨ page = 3) ∧ 128 ≤ argument.toNat)
          ∨ (page = 4 ∧ 264 ≤ argument.toNat) → body = 3 <<< 86))
  ∧ (∀ (s : State) (page : BitVec 3) (argument : BitVec 9) (body : BitVec 88) (kind : BitVec 4) (arg : BitVec 16)
      (k : BitVec 4), s.hearsStation k →
      exec (.report page argument body k) s = .next s ∧ exec (.notice kind arg k) s = .next s)
  ∧ ∀ (s : State) (c : Instr) (m : Msg), c.message? = some m → s.profile.station.receives = true →
      senderFits m = false →
      exec c s = .next { s with lane := { s.lane with discards := min 65535 (s.lane.discards + 1) } }
end

