-- ==== Sys2Proof/Laws/Delivery.lean ====
section
/-! SUPPORT. What the judgement of a message comes to (R145 to R149), said once for the statements about messages. -/

namespace Sys2Proof.Laws

open Sys2Proof Sys2Proof.Machine

/-- A message with a sender that does not fit is discarded and counted (R145, test 4; R153). -/
theorem receive_unfit (m : Msg) (s : State) (hs : s.profile.station.receives = true) (h : senderFits m = false) :
    receive m s = discard s := by
  simp [receive, judgeMessage, hs, h]

/-- A message of this station's own number that it did not win is a station clash (R147). -/
theorem receive_clash (m : Msg) (s : State) (hs : s.profile.station.receives = true) (h : senderFits m = true)
    (hk : m.sender = s.profile.k) : receive m s = stationClash m s := by
  simp [receive, judgeMessage, hs, h, hk]

/-- Any other message whose sender fits is delivered (R149). -/
theorem receive_delivers (m : Msg) (s : State) (hs : s.profile.station.receives = true) (h : senderFits m = true)
    (hk : m.sender ≠ s.profile.k) : receive m s = deliver m s := by
  simp [receive, judgeMessage, hs, h, hk]

/-- A station in TEST, UNSYNCED or under RESET judges no message. -/
theorem receive_deaf (m : Msg) (s : State) (hs : s.profile.station.receives = false) : receive m s = s := by
  simp [receive, hs]

/-- A station message heard in RUN is delivered. -/
theorem hearsStation_delivers (m : Msg) (s : State) (k : BitVec 4) (h : s.hearsStation k) (hm : m.sender = k.toNat)
    (hf : senderFits m = true) : receive m s = deliver m s :=
  receive_delivers m s (by simp [h.1, StationState.receives]) hf (hm ▸ h.2.2)

/-- A message of the card is delivered. -/
theorem hearsCard_delivers (m : Msg) (s : State) (k : BitVec 4) (h : s.hearsCard k) (hm : m.sender = k.toNat)
    (hf : senderFits m = true) : receive m s = deliver m s := by
  obtain ⟨hr, rfl, hk⟩ := h
  refine receive_delivers m s hr hf ?_
  rw [hm]
  intro hc
  rw [← hc] at hk
  exact absurd hk (by decide)

/-- A slot control acts on the context that holds the slot (R31). -/
theorem slotControl_held (slot : BitVec 7) (action p : BitVec 3) (s : State) (k : BitVec 4) (i : Nat) (h : s.hearsCard k)
    (hl : s.lookup slot.toNat = some i) :
    receive (.slotControl slot action p k) s = controlAction action p i s := by
  have hk : k = 15 := h.2.1
  rw [hearsCard_delivers _ s k h rfl (by subst hk; rfl)]
  simp [deliver, hk, onHeld, hl]

/-- A slot control for a slot that no context holds has no effect (R31). -/
theorem slotControl_unheld (slot : BitVec 7) (action p : BitVec 3) (s : State) (k : BitVec 4) (h : s.hearsCard k)
    (hl : s.lookup slot.toNat = none) : receive (.slotControl slot action p k) s = s := by
  have hk : k = 15 := h.2.1
  rw [hearsCard_delivers _ s k h rfl (by subst hk; rfl)]
  simp [deliver, hk, onHeld, hl]

end Sys2Proof.Laws
end

