-- ==== Sys2Proof/Laws/State.lean ====
section
/-! SUPPORT. What each record update leaves alone: one lemma per field per update, so that no proof unfolds one. -/

namespace Sys2Proof.Machine

/-! ### setCtx -/

@[simp] theorem State.setCtx_pending (s : State) (i : Nat) (c : Context) : (s.setCtx i c).pending = s.pending := rfl
@[simp] theorem State.setCtx_frame (s : State) (i : Nat) (c : Context) : (s.setCtx i c).frame = s.frame := rfl
@[simp] theorem State.setCtx_highway (s : State) (i : Nat) (c : Context) : (s.setCtx i c).highway = s.highway := rfl
@[simp] theorem State.setCtx_profile (s : State) (i : Nat) (c : Context) : (s.setCtx i c).profile = s.profile := rfl
@[simp] theorem State.setCtx_pool (s : State) (i : Nat) (c : Context) : (s.setCtx i c).pool = s.pool := rfl
@[simp] theorem State.setCtx_lane (s : State) (i : Nat) (c : Context) : (s.setCtx i c).lane = s.lane := rfl
@[simp] theorem State.setCtx_share (s : State) (i : Nat) (c : Context) : (s.setCtx i c).share = s.share := rfl
@[simp] theorem State.setCtx_directory (s : State) (i : Nat) (c : Context) : (s.setCtx i c).table.directory = s.table.directory := rfl
@[simp] theorem State.setCtx_lookup (s : State) (i : Nat) (c : Context) (k : Nat) : (s.setCtx i c).lookup k = s.lookup k := rfl
@[simp] theorem State.setCtx_tapBlock (s : State) (i : Nat) (c : Context) (k : Nat) : (s.setCtx i c).tapBlock k = s.tapBlock k := rfl

/-! ### modCtx -/

@[simp] theorem State.modCtx_pending (s : State) (i : Nat) (f : Context → Context) : (s.modCtx i f).pending = s.pending := rfl
@[simp] theorem State.modCtx_frame (s : State) (i : Nat) (f : Context → Context) : (s.modCtx i f).frame = s.frame := rfl
@[simp] theorem State.modCtx_highway (s : State) (i : Nat) (f : Context → Context) : (s.modCtx i f).highway = s.highway := rfl
@[simp] theorem State.modCtx_profile (s : State) (i : Nat) (f : Context → Context) : (s.modCtx i f).profile = s.profile := rfl
@[simp] theorem State.modCtx_pool (s : State) (i : Nat) (f : Context → Context) : (s.modCtx i f).pool = s.pool := rfl
@[simp] theorem State.modCtx_lane (s : State) (i : Nat) (f : Context → Context) : (s.modCtx i f).lane = s.lane := rfl
@[simp] theorem State.modCtx_share (s : State) (i : Nat) (f : Context → Context) : (s.modCtx i f).share = s.share := rfl
@[simp] theorem State.modCtx_directory (s : State) (i : Nat) (f : Context → Context) : (s.modCtx i f).table.directory = s.table.directory := rfl
@[simp] theorem State.modCtx_lookup (s : State) (i : Nat) (f : Context → Context) (k : Nat) : (s.modCtx i f).lookup k = s.lookup k := rfl
@[simp] theorem State.modCtx_tapBlock (s : State) (i : Nat) (f : Context → Context) (k : Nat) : (s.modCtx i f).tapBlock k = s.tapBlock k := rfl

/-! ### modServing -/

@[simp] theorem State.modServing_pending (s : State) (i : Nat) (f : Serving → Serving) : (s.modServing i f).pending = s.pending := rfl
@[simp] theorem State.modServing_frame (s : State) (i : Nat) (f : Serving → Serving) : (s.modServing i f).frame = s.frame := rfl
@[simp] theorem State.modServing_highway (s : State) (i : Nat) (f : Serving → Serving) : (s.modServing i f).highway = s.highway := rfl
@[simp] theorem State.modServing_profile (s : State) (i : Nat) (f : Serving → Serving) : (s.modServing i f).profile = s.profile := rfl
@[simp] theorem State.modServing_pool (s : State) (i : Nat) (f : Serving → Serving) : (s.modServing i f).pool = s.pool := rfl
@[simp] theorem State.modServing_lane (s : State) (i : Nat) (f : Serving → Serving) : (s.modServing i f).lane = s.lane := rfl
@[simp] theorem State.modServing_share (s : State) (i : Nat) (f : Serving → Serving) : (s.modServing i f).share = s.share := rfl
@[simp] theorem State.modServing_directory (s : State) (i : Nat) (f : Serving → Serving) : (s.modServing i f).table.directory = s.table.directory := rfl
@[simp] theorem State.modServing_lookup (s : State) (i : Nat) (f : Serving → Serving) (k : Nat) : (s.modServing i f).lookup k = s.lookup k := rfl
@[simp] theorem State.modServing_tapBlock (s : State) (i : Nat) (f : Serving → Serving) (k : Nat) : (s.modServing i f).tapBlock k = s.tapBlock k := rfl

/-! ### modSearch -/

@[simp] theorem State.modSearch_pending (s : State) (i : Nat) (f : SearchRecord → SearchRecord) : (s.modSearch i f).pending = s.pending := rfl
@[simp] theorem State.modSearch_frame (s : State) (i : Nat) (f : SearchRecord → SearchRecord) : (s.modSearch i f).frame = s.frame := rfl
@[simp] theorem State.modSearch_highway (s : State) (i : Nat) (f : SearchRecord → SearchRecord) : (s.modSearch i f).highway = s.highway := rfl
@[simp] theorem State.modSearch_profile (s : State) (i : Nat) (f : SearchRecord → SearchRecord) : (s.modSearch i f).profile = s.profile := rfl
@[simp] theorem State.modSearch_pool (s : State) (i : Nat) (f : SearchRecord → SearchRecord) : (s.modSearch i f).pool = s.pool := rfl
@[simp] theorem State.modSearch_lane (s : State) (i : Nat) (f : SearchRecord → SearchRecord) : (s.modSearch i f).lane = s.lane := rfl
@[simp] theorem State.modSearch_share (s : State) (i : Nat) (f : SearchRecord → SearchRecord) : (s.modSearch i f).share = s.share := rfl
@[simp] theorem State.modSearch_directory (s : State) (i : Nat) (f : SearchRecord → SearchRecord) : (s.modSearch i f).table.directory = s.table.directory := rfl
@[simp] theorem State.modSearch_lookup (s : State) (i : Nat) (f : SearchRecord → SearchRecord) (k : Nat) : (s.modSearch i f).lookup k = s.lookup k := rfl
@[simp] theorem State.modSearch_tapBlock (s : State) (i : Nat) (f : SearchRecord → SearchRecord) (k : Nat) : (s.modSearch i f).tapBlock k = s.tapBlock k := rfl

/-! ### setDirectory -/

@[simp] theorem State.setDirectory_pending (s : State) (slot : Nat) (e : Option Nat) : (s.setDirectory slot e).pending = s.pending := rfl
@[simp] theorem State.setDirectory_frame (s : State) (slot : Nat) (e : Option Nat) : (s.setDirectory slot e).frame = s.frame := rfl
@[simp] theorem State.setDirectory_highway (s : State) (slot : Nat) (e : Option Nat) : (s.setDirectory slot e).highway = s.highway := rfl
@[simp] theorem State.setDirectory_profile (s : State) (slot : Nat) (e : Option Nat) : (s.setDirectory slot e).profile = s.profile := rfl
@[simp] theorem State.setDirectory_pool (s : State) (slot : Nat) (e : Option Nat) : (s.setDirectory slot e).pool = s.pool := rfl
@[simp] theorem State.setDirectory_lane (s : State) (slot : Nat) (e : Option Nat) : (s.setDirectory slot e).lane = s.lane := rfl
@[simp] theorem State.setDirectory_share (s : State) (slot : Nat) (e : Option Nat) : (s.setDirectory slot e).share = s.share := rfl
@[simp] theorem State.setDirectory_contexts (s : State) (slot : Nat) (e : Option Nat) : (s.setDirectory slot e).table.contexts = s.table.contexts := rfl
@[simp] theorem State.setDirectory_ctx (s : State) (slot : Nat) (e : Option Nat) (k : Nat) : (s.setDirectory slot e).ctx k = s.ctx k := rfl
@[simp] theorem State.setDirectory_tapBlock (s : State) (slot : Nat) (e : Option Nat) (k : Nat) : (s.setDirectory slot e).tapBlock k = s.tapBlock k := rfl

/-! ### clearPipeline -/

@[simp] theorem State.clearPipeline_pending (s : State) (slot : Nat) : (s.clearPipeline slot).pending = s.pending := rfl
@[simp] theorem State.clearPipeline_frame (s : State) (slot : Nat) : (s.clearPipeline slot).frame = s.frame := rfl
@[simp] theorem State.clearPipeline_profile (s : State) (slot : Nat) : (s.clearPipeline slot).profile = s.profile := rfl
@[simp] theorem State.clearPipeline_table (s : State) (slot : Nat) : (s.clearPipeline slot).table = s.table := rfl
@[simp] theorem State.clearPipeline_pool (s : State) (slot : Nat) : (s.clearPipeline slot).pool = s.pool := rfl
@[simp] theorem State.clearPipeline_lane (s : State) (slot : Nat) : (s.clearPipeline slot).lane = s.lane := rfl
@[simp] theorem State.clearPipeline_share (s : State) (slot : Nat) : (s.clearPipeline slot).share = s.share := rfl
@[simp] theorem State.clearPipeline_ctx (s : State) (slot : Nat) (k : Nat) : (s.clearPipeline slot).ctx k = s.ctx k := rfl
@[simp] theorem State.clearPipeline_lookup (s : State) (slot : Nat) (k : Nat) : (s.clearPipeline slot).lookup k = s.lookup k := rfl
@[simp] theorem State.clearPipeline_serves (s : State) (slot : Nat) (k : Nat) : (s.clearPipeline slot).serves k = s.serves k := rfl
@[simp] theorem State.clearPipeline_servedBy (s : State) (slot : Nat) (k : Nat) : (s.clearPipeline slot).servedBy k = s.servedBy k := rfl
@[simp] theorem State.clearPipeline_tapBlock (s : State) (slot : Nat) (k : Nat) : (s.clearPipeline slot).tapBlock k = s.tapBlock k := rfl

/-! ### setBlock -/

@[simp] theorem State.setBlock_pending (s : State) (b : Nat) (t : TapBlock) : (s.setBlock b t).pending = s.pending := rfl
@[simp] theorem State.setBlock_frame (s : State) (b : Nat) (t : TapBlock) : (s.setBlock b t).frame = s.frame := rfl
@[simp] theorem State.setBlock_highway (s : State) (b : Nat) (t : TapBlock) : (s.setBlock b t).highway = s.highway := rfl
@[simp] theorem State.setBlock_profile (s : State) (b : Nat) (t : TapBlock) : (s.setBlock b t).profile = s.profile := rfl
@[simp] theorem State.setBlock_table (s : State) (b : Nat) (t : TapBlock) : (s.setBlock b t).table = s.table := rfl
@[simp] theorem State.setBlock_lane (s : State) (b : Nat) (t : TapBlock) : (s.setBlock b t).lane = s.lane := rfl
@[simp] theorem State.setBlock_share (s : State) (b : Nat) (t : TapBlock) : (s.setBlock b t).share = s.share := rfl
@[simp] theorem State.setBlock_ctx (s : State) (b : Nat) (t : TapBlock) (k : Nat) : (s.setBlock b t).ctx k = s.ctx k := rfl
@[simp] theorem State.setBlock_lookup (s : State) (b : Nat) (t : TapBlock) (k : Nat) : (s.setBlock b t).lookup k = s.lookup k := rfl
@[simp] theorem State.setBlock_serves (s : State) (b : Nat) (t : TapBlock) (k : Nat) : (s.setBlock b t).serves k = s.serves k := rfl
@[simp] theorem State.setBlock_servedBy (s : State) (b : Nat) (t : TapBlock) (k : Nat) : (s.setBlock b t).servedBy k = s.servedBy k := rfl
@[simp] theorem State.setBlock_shortfall (s : State) (b : Nat) (t : TapBlock) : (s.setBlock b t).pool.shortfall = s.pool.shortfall := rfl
@[simp] theorem State.setBlock_faulty (s : State) (b : Nat) (t : TapBlock) : (s.setBlock b t).pool.faulty = s.pool.faulty := rfl
@[simp] theorem State.setBlock_fifo (s : State) (b : Nat) (t : TapBlock) : (s.setBlock b t).pool.fifo = s.pool.fifo := rfl

/-! ### modBlock -/

@[simp] theorem State.modBlock_pending (s : State) (b : Nat) (f : TapBlock → TapBlock) : (s.modBlock b f).pending = s.pending := rfl
@[simp] theorem State.modBlock_frame (s : State) (b : Nat) (f : TapBlock → TapBlock) : (s.modBlock b f).frame = s.frame := rfl
@[simp] theorem State.modBlock_highway (s : State) (b : Nat) (f : TapBlock → TapBlock) : (s.modBlock b f).highway = s.highway := rfl
@[simp] theorem State.modBlock_profile (s : State) (b : Nat) (f : TapBlock → TapBlock) : (s.modBlock b f).profile = s.profile := rfl
@[simp] theorem State.modBlock_table (s : State) (b : Nat) (f : TapBlock → TapBlock) : (s.modBlock b f).table = s.table := rfl
@[simp] theorem State.modBlock_lane (s : State) (b : Nat) (f : TapBlock → TapBlock) : (s.modBlock b f).lane = s.lane := rfl
@[simp] theorem State.modBlock_share (s : State) (b : Nat) (f : TapBlock → TapBlock) : (s.modBlock b f).share = s.share := rfl
@[simp] theorem State.modBlock_ctx (s : State) (b : Nat) (f : TapBlock → TapBlock) (k : Nat) : (s.modBlock b f).ctx k = s.ctx k := rfl
@[simp] theorem State.modBlock_lookup (s : State) (b : Nat) (f : TapBlock → TapBlock) (k : Nat) : (s.modBlock b f).lookup k = s.lookup k := rfl
@[simp] theorem State.modBlock_serves (s : State) (b : Nat) (f : TapBlock → TapBlock) (k : Nat) : (s.modBlock b f).serves k = s.serves k := rfl
@[simp] theorem State.modBlock_servedBy (s : State) (b : Nat) (f : TapBlock → TapBlock) (k : Nat) : (s.modBlock b f).servedBy k = s.servedBy k := rfl
@[simp] theorem State.modBlock_shortfall (s : State) (b : Nat) (f : TapBlock → TapBlock) : (s.modBlock b f).pool.shortfall = s.pool.shortfall := rfl
@[simp] theorem State.modBlock_faulty (s : State) (b : Nat) (f : TapBlock → TapBlock) : (s.modBlock b f).pool.faulty = s.pool.faulty := rfl
@[simp] theorem State.modBlock_fifo (s : State) (b : Nat) (f : TapBlock → TapBlock) : (s.modBlock b f).pool.fifo = s.pool.fifo := rfl

/-! ### reserveBlock -/

@[simp] theorem State.reserveBlock_pending (s : State) (i b : Nat) : (s.reserveBlock i b).pending = s.pending := rfl
@[simp] theorem State.reserveBlock_frame (s : State) (i b : Nat) : (s.reserveBlock i b).frame = s.frame := rfl
@[simp] theorem State.reserveBlock_highway (s : State) (i b : Nat) : (s.reserveBlock i b).highway = s.highway := rfl
@[simp] theorem State.reserveBlock_profile (s : State) (i b : Nat) : (s.reserveBlock i b).profile = s.profile := rfl
@[simp] theorem State.reserveBlock_table (s : State) (i b : Nat) : (s.reserveBlock i b).table = s.table := rfl
@[simp] theorem State.reserveBlock_lane (s : State) (i b : Nat) : (s.reserveBlock i b).lane = s.lane := rfl
@[simp] theorem State.reserveBlock_share (s : State) (i b : Nat) : (s.reserveBlock i b).share = s.share := rfl
@[simp] theorem State.reserveBlock_ctx (s : State) (i b : Nat) (k : Nat) : (s.reserveBlock i b).ctx k = s.ctx k := rfl
@[simp] theorem State.reserveBlock_lookup (s : State) (i b : Nat) (k : Nat) : (s.reserveBlock i b).lookup k = s.lookup k := rfl
@[simp] theorem State.reserveBlock_serves (s : State) (i b : Nat) (k : Nat) : (s.reserveBlock i b).serves k = s.serves k := rfl
@[simp] theorem State.reserveBlock_servedBy (s : State) (i b : Nat) (k : Nat) : (s.reserveBlock i b).servedBy k = s.servedBy k := rfl
@[simp] theorem State.reserveBlock_shortfall (s : State) (i b : Nat) : (s.reserveBlock i b).pool.shortfall = s.pool.shortfall := rfl
@[simp] theorem State.reserveBlock_faulty (s : State) (i b : Nat) : (s.reserveBlock i b).pool.faulty = s.pool.faulty := rfl
@[simp] theorem State.reserveBlock_fifo (s : State) (i b : Nat) : (s.reserveBlock i b).pool.fifo = s.pool.fifo := rfl

/-! ### bindBlock -/

@[simp] theorem State.bindBlock_pending (s : State) (i j b : Nat) : (s.bindBlock i j b).pending = s.pending := rfl
@[simp] theorem State.bindBlock_frame (s : State) (i j b : Nat) : (s.bindBlock i j b).frame = s.frame := rfl
@[simp] theorem State.bindBlock_highway (s : State) (i j b : Nat) : (s.bindBlock i j b).highway = s.highway := rfl
@[simp] theorem State.bindBlock_profile (s : State) (i j b : Nat) : (s.bindBlock i j b).profile = s.profile := rfl
@[simp] theorem State.bindBlock_table (s : State) (i j b : Nat) : (s.bindBlock i j b).table = s.table := rfl
@[simp] theorem State.bindBlock_lane (s : State) (i j b : Nat) : (s.bindBlock i j b).lane = s.lane := rfl
@[simp] theorem State.bindBlock_share (s : State) (i j b : Nat) : (s.bindBlock i j b).share = s.share := rfl
@[simp] theorem State.bindBlock_ctx (s : State) (i j b : Nat) (k : Nat) : (s.bindBlock i j b).ctx k = s.ctx k := rfl
@[simp] theorem State.bindBlock_lookup (s : State) (i j b : Nat) (k : Nat) : (s.bindBlock i j b).lookup k = s.lookup k := rfl
@[simp] theorem State.bindBlock_serves (s : State) (i j b : Nat) (k : Nat) : (s.bindBlock i j b).serves k = s.serves k := rfl
@[simp] theorem State.bindBlock_servedBy (s : State) (i j b : Nat) (k : Nat) : (s.bindBlock i j b).servedBy k = s.servedBy k := rfl
@[simp] theorem State.bindBlock_shortfall (s : State) (i j b : Nat) : (s.bindBlock i j b).pool.shortfall = s.pool.shortfall := rfl
@[simp] theorem State.bindBlock_faulty (s : State) (i j b : Nat) : (s.bindBlock i j b).pool.faulty = s.pool.faulty := rfl
@[simp] theorem State.bindBlock_fifo (s : State) (i j b : Nat) : (s.bindBlock i j b).pool.fifo = s.pool.fifo := rfl

/-! ### freeBlock -/

@[simp] theorem State.freeBlock_pending (s : State) (b : Nat) : (s.freeBlock b).pending = s.pending := rfl
@[simp] theorem State.freeBlock_frame (s : State) (b : Nat) : (s.freeBlock b).frame = s.frame := rfl
@[simp] theorem State.freeBlock_highway (s : State) (b : Nat) : (s.freeBlock b).highway = s.highway := rfl
@[simp] theorem State.freeBlock_profile (s : State) (b : Nat) : (s.freeBlock b).profile = s.profile := rfl
@[simp] theorem State.freeBlock_table (s : State) (b : Nat) : (s.freeBlock b).table = s.table := rfl
@[simp] theorem State.freeBlock_lane (s : State) (b : Nat) : (s.freeBlock b).lane = s.lane := rfl
@[simp] theorem State.freeBlock_share (s : State) (b : Nat) : (s.freeBlock b).share = s.share := rfl
@[simp] theorem State.freeBlock_ctx (s : State) (b : Nat) (k : Nat) : (s.freeBlock b).ctx k = s.ctx k := rfl
@[simp] theorem State.freeBlock_lookup (s : State) (b : Nat) (k : Nat) : (s.freeBlock b).lookup k = s.lookup k := rfl
@[simp] theorem State.freeBlock_serves (s : State) (b : Nat) (k : Nat) : (s.freeBlock b).serves k = s.serves k := rfl
@[simp] theorem State.freeBlock_servedBy (s : State) (b : Nat) (k : Nat) : (s.freeBlock b).servedBy k = s.servedBy k := rfl
@[simp] theorem State.freeBlock_shortfall (s : State) (b : Nat) : (s.freeBlock b).pool.shortfall = s.pool.shortfall := rfl
@[simp] theorem State.freeBlock_faulty (s : State) (b : Nat) : (s.freeBlock b).pool.faulty = s.pool.faulty := rfl

/-! ### failBlock -/

@[simp] theorem State.failBlock_pending (s : State) (b n : Nat) : (s.failBlock b n).pending = s.pending := rfl
@[simp] theorem State.failBlock_frame (s : State) (b n : Nat) : (s.failBlock b n).frame = s.frame := rfl
@[simp] theorem State.failBlock_highway (s : State) (b n : Nat) : (s.failBlock b n).highway = s.highway := rfl
@[simp] theorem State.failBlock_profile (s : State) (b n : Nat) : (s.failBlock b n).profile = s.profile := rfl
@[simp] theorem State.failBlock_table (s : State) (b n : Nat) : (s.failBlock b n).table = s.table := rfl
@[simp] theorem State.failBlock_lane (s : State) (b n : Nat) : (s.failBlock b n).lane = s.lane := rfl
@[simp] theorem State.failBlock_share (s : State) (b n : Nat) : (s.failBlock b n).share = s.share := rfl
@[simp] theorem State.failBlock_ctx (s : State) (b n : Nat) (k : Nat) : (s.failBlock b n).ctx k = s.ctx k := rfl
@[simp] theorem State.failBlock_lookup (s : State) (b n : Nat) (k : Nat) : (s.failBlock b n).lookup k = s.lookup k := rfl
@[simp] theorem State.failBlock_serves (s : State) (b n : Nat) (k : Nat) : (s.failBlock b n).serves k = s.serves k := rfl
@[simp] theorem State.failBlock_servedBy (s : State) (b n : Nat) (k : Nat) : (s.failBlock b n).servedBy k = s.servedBy k := rfl
@[simp] theorem State.failBlock_shortfall (s : State) (b n : Nat) : (s.failBlock b n).pool.shortfall = s.pool.shortfall := rfl
@[simp] theorem State.failBlock_faulty (s : State) (b n : Nat) : (s.failBlock b n).pool.faulty = s.pool.faulty := rfl
@[simp] theorem State.failBlock_fifo (s : State) (b n : Nat) : (s.failBlock b n).pool.fifo = s.pool.fifo := rfl

/-! ### send -/

@[simp] theorem State.send_pending (s : State) (m : Msg) : (s.send m).pending = s.pending := rfl
@[simp] theorem State.send_frame (s : State) (m : Msg) : (s.send m).frame = s.frame := rfl
@[simp] theorem State.send_highway (s : State) (m : Msg) : (s.send m).highway = s.highway := rfl
@[simp] theorem State.send_profile (s : State) (m : Msg) : (s.send m).profile = s.profile := rfl
@[simp] theorem State.send_table (s : State) (m : Msg) : (s.send m).table = s.table := rfl
@[simp] theorem State.send_pool (s : State) (m : Msg) : (s.send m).pool = s.pool := rfl
@[simp] theorem State.send_share (s : State) (m : Msg) : (s.send m).share = s.share := rfl
@[simp] theorem State.send_ctx (s : State) (m : Msg) (k : Nat) : (s.send m).ctx k = s.ctx k := rfl
@[simp] theorem State.send_lookup (s : State) (m : Msg) (k : Nat) : (s.send m).lookup k = s.lookup k := rfl
@[simp] theorem State.send_serves (s : State) (m : Msg) (k : Nat) : (s.send m).serves k = s.serves k := rfl
@[simp] theorem State.send_servedBy (s : State) (m : Msg) (k : Nat) : (s.send m).servedBy k = s.servedBy k := rfl
@[simp] theorem State.send_tapBlock (s : State) (m : Msg) (k : Nat) : (s.send m).tapBlock k = s.tapBlock k := rfl
@[simp] theorem State.send_markRecord (s : State) (m : Msg) : (s.send m).lane.markRecord = s.lane.markRecord := rfl
@[simp] theorem State.send_ownRecord (s : State) (m : Msg) : (s.send m).lane.ownRecord = s.lane.ownRecord := rfl
@[simp] theorem State.send_discards (s : State) (m : Msg) : (s.send m).lane.discards = s.lane.discards := rfl
@[simp] theorem State.send_clashes (s : State) (m : Msg) : (s.send m).lane.clashes = s.lane.clashes := rfl
@[simp] theorem State.send_surplus (s : State) (m : Msg) : (s.send m).lane.surplus = s.lane.surplus := rfl
@[simp] theorem State.send_cell (s : State) (m : Msg) : (s.send m).lane.cell = s.lane.cell := rfl
@[simp] theorem State.send_lastCell (s : State) (m : Msg) : (s.send m).lane.lastCell = s.lane.lastCell := rfl
@[simp] theorem State.send_recalled (s : State) (m : Msg) : (s.send m).lane.recalled = s.lane.recalled := rfl

/-! ### withdraw -/

@[simp] theorem State.withdraw_pending (s : State) (p : Entry → Bool) : (s.withdraw p).pending = s.pending := rfl
@[simp] theorem State.withdraw_frame (s : State) (p : Entry → Bool) : (s.withdraw p).frame = s.frame := rfl
@[simp] theorem State.withdraw_highway (s : State) (p : Entry → Bool) : (s.withdraw p).highway = s.highway := rfl
@[simp] theorem State.withdraw_profile (s : State) (p : Entry → Bool) : (s.withdraw p).profile = s.profile := rfl
@[simp] theorem State.withdraw_table (s : State) (p : Entry → Bool) : (s.withdraw p).table = s.table := rfl
@[simp] theorem State.withdraw_pool (s : State) (p : Entry → Bool) : (s.withdraw p).pool = s.pool := rfl
@[simp] theorem State.withdraw_share (s : State) (p : Entry → Bool) : (s.withdraw p).share = s.share := rfl
@[simp] theorem State.withdraw_ctx (s : State) (p : Entry → Bool) (k : Nat) : (s.withdraw p).ctx k = s.ctx k := rfl
@[simp] theorem State.withdraw_lookup (s : State) (p : Entry → Bool) (k : Nat) : (s.withdraw p).lookup k = s.lookup k := rfl
@[simp] theorem State.withdraw_serves (s : State) (p : Entry → Bool) (k : Nat) : (s.withdraw p).serves k = s.serves k := rfl
@[simp] theorem State.withdraw_servedBy (s : State) (p : Entry → Bool) (k : Nat) : (s.withdraw p).servedBy k = s.servedBy k := rfl
@[simp] theorem State.withdraw_tapBlock (s : State) (p : Entry → Bool) (k : Nat) : (s.withdraw p).tapBlock k = s.tapBlock k := rfl
@[simp] theorem State.withdraw_markRecord (s : State) (p : Entry → Bool) : (s.withdraw p).lane.markRecord = s.lane.markRecord := rfl
@[simp] theorem State.withdraw_ownRecord (s : State) (p : Entry → Bool) : (s.withdraw p).lane.ownRecord = s.lane.ownRecord := rfl
@[simp] theorem State.withdraw_discards (s : State) (p : Entry → Bool) : (s.withdraw p).lane.discards = s.lane.discards := rfl
@[simp] theorem State.withdraw_clashes (s : State) (p : Entry → Bool) : (s.withdraw p).lane.clashes = s.lane.clashes := rfl
@[simp] theorem State.withdraw_surplus (s : State) (p : Entry → Bool) : (s.withdraw p).lane.surplus = s.lane.surplus := rfl
@[simp] theorem State.withdraw_cell (s : State) (p : Entry → Bool) : (s.withdraw p).lane.cell = s.lane.cell := rfl
@[simp] theorem State.withdraw_lastCell (s : State) (p : Entry → Bool) : (s.withdraw p).lane.lastCell = s.lane.lastCell := rfl
@[simp] theorem State.withdraw_drops (s : State) (p : Entry → Bool) : (s.withdraw p).lane.drops = s.lane.drops := rfl
@[simp] theorem State.withdraw_recalled (s : State) (p : Entry → Bool) : (s.withdraw p).lane.recalled = s.lane.recalled := rfl

/-! ### recall -/

@[simp] theorem State.recall_pending (s : State) (p : Entry → Bool) : (s.recall p).pending = s.pending := by unfold State.recall; split <;> rfl
@[simp] theorem State.recall_frame (s : State) (p : Entry → Bool) : (s.recall p).frame = s.frame := by unfold State.recall; split <;> rfl
@[simp] theorem State.recall_highway (s : State) (p : Entry → Bool) : (s.recall p).highway = s.highway := by unfold State.recall; split <;> rfl
@[simp] theorem State.recall_profile (s : State) (p : Entry → Bool) : (s.recall p).profile = s.profile := by unfold State.recall; split <;> rfl
@[simp] theorem State.recall_table (s : State) (p : Entry → Bool) : (s.recall p).table = s.table := by unfold State.recall; split <;> rfl
@[simp] theorem State.recall_pool (s : State) (p : Entry → Bool) : (s.recall p).pool = s.pool := by unfold State.recall; split <;> rfl
@[simp] theorem State.recall_share (s : State) (p : Entry → Bool) : (s.recall p).share = s.share := by unfold State.recall; split <;> rfl
@[simp] theorem State.recall_ctx (s : State) (p : Entry → Bool) (k : Nat) : (s.recall p).ctx k = s.ctx k := by unfold State.recall; split <;> rfl
@[simp] theorem State.recall_lookup (s : State) (p : Entry → Bool) (k : Nat) : (s.recall p).lookup k = s.lookup k := by unfold State.recall; split <;> rfl
@[simp] theorem State.recall_serves (s : State) (p : Entry → Bool) (k : Nat) : (s.recall p).serves k = s.serves k := by unfold State.recall; split <;> rfl
@[simp] theorem State.recall_servedBy (s : State) (p : Entry → Bool) (k : Nat) : (s.recall p).servedBy k = s.servedBy k := by unfold State.recall; split <;> rfl
@[simp] theorem State.recall_tapBlock (s : State) (p : Entry → Bool) (k : Nat) : (s.recall p).tapBlock k = s.tapBlock k := by unfold State.recall; split <;> rfl
@[simp] theorem State.recall_markRecord (s : State) (p : Entry → Bool) : (s.recall p).lane.markRecord = s.lane.markRecord := by unfold State.recall; split <;> rfl
@[simp] theorem State.recall_ownRecord (s : State) (p : Entry → Bool) : (s.recall p).lane.ownRecord = s.lane.ownRecord := by unfold State.recall; split <;> rfl
@[simp] theorem State.recall_discards (s : State) (p : Entry → Bool) : (s.recall p).lane.discards = s.lane.discards := by unfold State.recall; split <;> rfl
@[simp] theorem State.recall_clashes (s : State) (p : Entry → Bool) : (s.recall p).lane.clashes = s.lane.clashes := by unfold State.recall; split <;> rfl
@[simp] theorem State.recall_surplus (s : State) (p : Entry → Bool) : (s.recall p).lane.surplus = s.lane.surplus := by unfold State.recall; split <;> rfl
@[simp] theorem State.recall_cell (s : State) (p : Entry → Bool) : (s.recall p).lane.cell = s.lane.cell := by unfold State.recall; split <;> rfl
@[simp] theorem State.recall_lastCell (s : State) (p : Entry → Bool) : (s.recall p).lane.lastCell = s.lane.lastCell := by unfold State.recall; split <;> rfl
@[simp] theorem State.recall_drops (s : State) (p : Entry → Bool) : (s.recall p).lane.drops = s.lane.drops := by unfold State.recall; split <;> rfl

/-! ### settleRecalled -/

@[simp] theorem State.settleRecalled_pending (s : State) : s.settleRecalled.pending = s.pending := rfl
@[simp] theorem State.settleRecalled_frame (s : State) : s.settleRecalled.frame = s.frame := rfl
@[simp] theorem State.settleRecalled_highway (s : State) : s.settleRecalled.highway = s.highway := rfl
@[simp] theorem State.settleRecalled_profile (s : State) : s.settleRecalled.profile = s.profile := rfl
@[simp] theorem State.settleRecalled_table (s : State) : s.settleRecalled.table = s.table := rfl
@[simp] theorem State.settleRecalled_pool (s : State) : s.settleRecalled.pool = s.pool := rfl
@[simp] theorem State.settleRecalled_share (s : State) : s.settleRecalled.share = s.share := rfl
@[simp] theorem State.settleRecalled_ctx (s : State) (k : Nat) : s.settleRecalled.ctx k = s.ctx k := rfl
@[simp] theorem State.settleRecalled_lookup (s : State) (k : Nat) : s.settleRecalled.lookup k = s.lookup k := rfl
@[simp] theorem State.settleRecalled_serves (s : State) (k : Nat) : s.settleRecalled.serves k = s.serves k := rfl
@[simp] theorem State.settleRecalled_servedBy (s : State) (k : Nat) : s.settleRecalled.servedBy k = s.servedBy k := rfl
@[simp] theorem State.settleRecalled_tapBlock (s : State) (k : Nat) : s.settleRecalled.tapBlock k = s.tapBlock k := rfl
@[simp] theorem State.settleRecalled_markRecord (s : State) : s.settleRecalled.lane.markRecord = s.lane.markRecord := rfl
@[simp] theorem State.settleRecalled_ownRecord (s : State) : s.settleRecalled.lane.ownRecord = s.lane.ownRecord := rfl
@[simp] theorem State.settleRecalled_discards (s : State) : s.settleRecalled.lane.discards = s.lane.discards := rfl
@[simp] theorem State.settleRecalled_clashes (s : State) : s.settleRecalled.lane.clashes = s.lane.clashes := rfl
@[simp] theorem State.settleRecalled_surplus (s : State) : s.settleRecalled.lane.surplus = s.lane.surplus := rfl
@[simp] theorem State.settleRecalled_cell (s : State) : s.settleRecalled.lane.cell = s.lane.cell := rfl
@[simp] theorem State.settleRecalled_lastCell (s : State) : s.settleRecalled.lane.lastCell = s.lane.lastCell := rfl
@[simp] theorem State.settleRecalled_drops (s : State) : s.settleRecalled.lane.drops = s.lane.drops := rfl
@[simp] theorem State.settleRecalled_recalled (s : State) : s.settleRecalled.lane.recalled = [] := rfl

/-! ### setOffer -/

@[simp] theorem State.setOffer_pending (s : State) (slot : Nat) (m : Option OfferMemory) : (s.setOffer slot m).pending = s.pending := rfl
@[simp] theorem State.setOffer_frame (s : State) (slot : Nat) (m : Option OfferMemory) : (s.setOffer slot m).frame = s.frame := rfl
@[simp] theorem State.setOffer_highway (s : State) (slot : Nat) (m : Option OfferMemory) : (s.setOffer slot m).highway = s.highway := rfl
@[simp] theorem State.setOffer_profile (s : State) (slot : Nat) (m : Option OfferMemory) : (s.setOffer slot m).profile = s.profile := rfl
@[simp] theorem State.setOffer_table (s : State) (slot : Nat) (m : Option OfferMemory) : (s.setOffer slot m).table = s.table := rfl
@[simp] theorem State.setOffer_pool (s : State) (slot : Nat) (m : Option OfferMemory) : (s.setOffer slot m).pool = s.pool := rfl
@[simp] theorem State.setOffer_lane (s : State) (slot : Nat) (m : Option OfferMemory) : (s.setOffer slot m).lane = s.lane := rfl
@[simp] theorem State.setOffer_ctx (s : State) (slot : Nat) (m : Option OfferMemory) (k : Nat) : (s.setOffer slot m).ctx k = s.ctx k := rfl
@[simp] theorem State.setOffer_lookup (s : State) (slot : Nat) (m : Option OfferMemory) (k : Nat) : (s.setOffer slot m).lookup k = s.lookup k := rfl
@[simp] theorem State.setOffer_serves (s : State) (slot : Nat) (m : Option OfferMemory) (k : Nat) : (s.setOffer slot m).serves k = s.serves k := rfl
@[simp] theorem State.setOffer_servedBy (s : State) (slot : Nat) (m : Option OfferMemory) (k : Nat) : (s.setOffer slot m).servedBy k = s.servedBy k := rfl
@[simp] theorem State.setOffer_tapBlock (s : State) (slot : Nat) (m : Option OfferMemory) (k : Nat) : (s.setOffer slot m).tapBlock k = s.tapBlock k := rfl

/-! ### setAbsence -/

@[simp] theorem State.setAbsence_pending (s : State) (slot n : Nat) : (s.setAbsence slot n).pending = s.pending := rfl
@[simp] theorem State.setAbsence_frame (s : State) (slot n : Nat) : (s.setAbsence slot n).frame = s.frame := rfl
@[simp] theorem State.setAbsence_highway (s : State) (slot n : Nat) : (s.setAbsence slot n).highway = s.highway := rfl
@[simp] theorem State.setAbsence_profile (s : State) (slot n : Nat) : (s.setAbsence slot n).profile = s.profile := rfl
@[simp] theorem State.setAbsence_table (s : State) (slot n : Nat) : (s.setAbsence slot n).table = s.table := rfl
@[simp] theorem State.setAbsence_pool (s : State) (slot n : Nat) : (s.setAbsence slot n).pool = s.pool := rfl
@[simp] theorem State.setAbsence_lane (s : State) (slot n : Nat) : (s.setAbsence slot n).lane = s.lane := rfl
@[simp] theorem State.setAbsence_ctx (s : State) (slot n : Nat) (k : Nat) : (s.setAbsence slot n).ctx k = s.ctx k := rfl
@[simp] theorem State.setAbsence_lookup (s : State) (slot n : Nat) (k : Nat) : (s.setAbsence slot n).lookup k = s.lookup k := rfl
@[simp] theorem State.setAbsence_serves (s : State) (slot n : Nat) (k : Nat) : (s.setAbsence slot n).serves k = s.serves k := rfl
@[simp] theorem State.setAbsence_servedBy (s : State) (slot n : Nat) (k : Nat) : (s.setAbsence slot n).servedBy k = s.servedBy k := rfl
@[simp] theorem State.setAbsence_tapBlock (s : State) (slot n : Nat) (k : Nat) : (s.setAbsence slot n).tapBlock k = s.tapBlock k := rfl

/-! ### enqueue, takeBlocks and notify -/

@[simp] theorem State.enqueue_pending (s : State) (e : Entry) : (s.enqueue e).1.pending = s.pending := rfl
@[simp] theorem State.takeBlocks_pending (s : State) (n : Nat) : (s.takeBlocks n).2.pending = s.pending := rfl
@[simp] theorem State.enqueue_frame (s : State) (e : Entry) : (s.enqueue e).1.frame = s.frame := rfl
@[simp] theorem State.takeBlocks_frame (s : State) (n : Nat) : (s.takeBlocks n).2.frame = s.frame := rfl
@[simp] theorem State.enqueue_highway (s : State) (e : Entry) : (s.enqueue e).1.highway = s.highway := rfl
@[simp] theorem State.takeBlocks_highway (s : State) (n : Nat) : (s.takeBlocks n).2.highway = s.highway := rfl
@[simp] theorem State.enqueue_profile (s : State) (e : Entry) : (s.enqueue e).1.profile = s.profile := rfl
@[simp] theorem State.takeBlocks_profile (s : State) (n : Nat) : (s.takeBlocks n).2.profile = s.profile := rfl
@[simp] theorem State.enqueue_table (s : State) (e : Entry) : (s.enqueue e).1.table = s.table := rfl
@[simp] theorem State.takeBlocks_table (s : State) (n : Nat) : (s.takeBlocks n).2.table = s.table := rfl
@[simp] theorem State.enqueue_pool (s : State) (e : Entry) : (s.enqueue e).1.pool = s.pool := rfl
@[simp] theorem State.takeBlocks_lane (s : State) (n : Nat) : (s.takeBlocks n).2.lane = s.lane := rfl
@[simp] theorem State.enqueue_share (s : State) (e : Entry) : (s.enqueue e).1.share = s.share := rfl
@[simp] theorem State.takeBlocks_share (s : State) (n : Nat) : (s.takeBlocks n).2.share = s.share := rfl
@[simp] theorem State.enqueue_ctx (s : State) (e : Entry) (k : Nat) : (s.enqueue e).1.ctx k = s.ctx k := rfl
@[simp] theorem State.takeBlocks_ctx (s : State) (n k : Nat) : (s.takeBlocks n).2.ctx k = s.ctx k := rfl
@[simp] theorem State.enqueue_lookup (s : State) (e : Entry) (k : Nat) : (s.enqueue e).1.lookup k = s.lookup k := rfl
@[simp] theorem State.takeBlocks_lookup (s : State) (n k : Nat) : (s.takeBlocks n).2.lookup k = s.lookup k := rfl
@[simp] theorem State.enqueue_serves (s : State) (e : Entry) (k : Nat) : (s.enqueue e).1.serves k = s.serves k := rfl
@[simp] theorem State.takeBlocks_serves (s : State) (n k : Nat) : (s.takeBlocks n).2.serves k = s.serves k := rfl
@[simp] theorem State.enqueue_servedBy (s : State) (e : Entry) (k : Nat) : (s.enqueue e).1.servedBy k = s.servedBy k := rfl
@[simp] theorem State.takeBlocks_servedBy (s : State) (n k : Nat) : (s.takeBlocks n).2.servedBy k = s.servedBy k := rfl
@[simp] theorem State.enqueue_tapBlock (s : State) (e : Entry) (k : Nat) : (s.enqueue e).1.tapBlock k = s.tapBlock k := rfl
@[simp] theorem State.takeBlocks_tapBlock (s : State) (n k : Nat) : (s.takeBlocks n).2.tapBlock k = s.tapBlock k := rfl
@[simp] theorem State.enqueue_markRecord (s : State) (e : Entry) : (s.enqueue e).1.lane.markRecord = s.lane.markRecord := rfl
@[simp] theorem State.enqueue_ownRecord (s : State) (e : Entry) : (s.enqueue e).1.lane.ownRecord = s.lane.ownRecord := rfl
@[simp] theorem State.enqueue_discards (s : State) (e : Entry) : (s.enqueue e).1.lane.discards = s.lane.discards := rfl
@[simp] theorem State.enqueue_clashes (s : State) (e : Entry) : (s.enqueue e).1.lane.clashes = s.lane.clashes := rfl
@[simp] theorem State.enqueue_surplus (s : State) (e : Entry) : (s.enqueue e).1.lane.surplus = s.lane.surplus := rfl
@[simp] theorem State.enqueue_cell (s : State) (e : Entry) : (s.enqueue e).1.lane.cell = s.lane.cell := rfl
@[simp] theorem State.enqueue_lastCell (s : State) (e : Entry) : (s.enqueue e).1.lane.lastCell = s.lane.lastCell := rfl
@[simp] theorem State.enqueue_recalled (s : State) (e : Entry) : (s.enqueue e).1.lane.recalled = s.lane.recalled := rfl
@[simp] theorem State.takeBlocks_shortfall (s : State) (n : Nat) : (s.takeBlocks n).2.pool.shortfall = s.pool.shortfall := rfl
@[simp] theorem State.takeBlocks_faulty (s : State) (n : Nat) : (s.takeBlocks n).2.pool.faulty = s.pool.faulty := rfl
@[simp] theorem State.takeBlocks_fifo (s : State) (n : Nat) : (s.takeBlocks n).2.pool.fifo = s.pool.fifo.drop n := rfl
@[simp] theorem State.takeBlocks_fst (s : State) (n : Nat) : (s.takeBlocks n).1 = s.pool.fifo.take n := rfl

@[simp] theorem State.notify_pending (s : State) (kind : Nat) (fs : List Field) : (s.notify kind fs).pending = s.pending := by
  unfold State.notify; split <;> rfl
@[simp] theorem State.notify_frame (s : State) (kind : Nat) (fs : List Field) : (s.notify kind fs).frame = s.frame := by
  unfold State.notify; split <;> rfl
@[simp] theorem State.notify_highway (s : State) (kind : Nat) (fs : List Field) : (s.notify kind fs).highway = s.highway := by
  unfold State.notify; split <;> rfl
@[simp] theorem State.notify_profile (s : State) (kind : Nat) (fs : List Field) : (s.notify kind fs).profile = s.profile := by
  unfold State.notify; split <;> rfl
@[simp] theorem State.notify_table (s : State) (kind : Nat) (fs : List Field) : (s.notify kind fs).table = s.table := by
  unfold State.notify; split <;> rfl
@[simp] theorem State.notify_pool (s : State) (kind : Nat) (fs : List Field) : (s.notify kind fs).pool = s.pool := by
  unfold State.notify; split <;> rfl
@[simp] theorem State.notify_share (s : State) (kind : Nat) (fs : List Field) : (s.notify kind fs).share = s.share := by
  unfold State.notify; split <;> rfl
@[simp] theorem State.notify_recalled (s : State) (kind : Nat) (fs : List Field) : (s.notify kind fs).lane.recalled = s.lane.recalled := by
  unfold State.notify; split <;> rfl
@[simp] theorem State.notify_markRecord (s : State) (kind : Nat) (fs : List Field) : (s.notify kind fs).lane.markRecord = s.lane.markRecord := by
  unfold State.notify; split <;> rfl
@[simp] theorem State.notify_ownRecord (s : State) (kind : Nat) (fs : List Field) : (s.notify kind fs).lane.ownRecord = s.lane.ownRecord := by
  unfold State.notify; split <;> rfl
@[simp] theorem State.notify_discards (s : State) (kind : Nat) (fs : List Field) : (s.notify kind fs).lane.discards = s.lane.discards := by
  unfold State.notify; split <;> rfl
@[simp] theorem State.notify_clashes (s : State) (kind : Nat) (fs : List Field) : (s.notify kind fs).lane.clashes = s.lane.clashes := by
  unfold State.notify; split <;> rfl
@[simp] theorem State.notify_surplus (s : State) (kind : Nat) (fs : List Field) : (s.notify kind fs).lane.surplus = s.lane.surplus := by
  unfold State.notify; split <;> rfl
@[simp] theorem State.notify_cell (s : State) (kind : Nat) (fs : List Field) : (s.notify kind fs).lane.cell = s.lane.cell := by
  unfold State.notify; split <;> rfl
@[simp] theorem State.notify_lastCell (s : State) (kind : Nat) (fs : List Field) : (s.notify kind fs).lane.lastCell = s.lane.lastCell := by
  unfold State.notify; split <;> rfl
@[simp] theorem State.notify_ctx (s : State) (kind : Nat) (fs : List Field) (k : Nat) : (s.notify kind fs).ctx k = s.ctx k := by
  unfold State.notify; split <;> rfl
@[simp] theorem State.notify_lookup (s : State) (kind : Nat) (fs : List Field) (k : Nat) : (s.notify kind fs).lookup k = s.lookup k := by
  unfold State.notify; split <;> rfl
@[simp] theorem State.notify_serves (s : State) (kind : Nat) (fs : List Field) (k : Nat) : (s.notify kind fs).serves k = s.serves k := by
  unfold State.notify; split <;> rfl
@[simp] theorem State.notify_servedBy (s : State) (kind : Nat) (fs : List Field) (k : Nat) : (s.notify kind fs).servedBy k = s.servedBy k := by
  unfold State.notify; split <;> rfl
@[simp] theorem State.notify_tapBlock (s : State) (kind : Nat) (fs : List Field) (k : Nat) : (s.notify kind fs).tapBlock k = s.tapBlock k := by
  unfold State.notify; split <;> rfl

end Sys2Proof.Machine
end

