-- ==== Sys2Proof/Laws/Records.lean ====
section
/-! SUPPORT. Reading a context, a directory entry or a tap block after it, or another, has been written. -/

namespace Sys2Proof.Machine

/-! ### Contexts -/

@[simp] theorem State.setCtx_contexts_length (s : State) (i : Nat) (c : Context) :
    (s.setCtx i c).table.contexts.length = s.table.contexts.length := by simp [State.setCtx]

@[simp] theorem State.modCtx_contexts_length (s : State) (i : Nat) (f : Context → Context) :
    (s.modCtx i f).table.contexts.length = s.table.contexts.length := by simp [State.modCtx]

@[simp] theorem State.modServing_contexts_length (s : State) (i : Nat) (f : Serving → Serving) :
    (s.modServing i f).table.contexts.length = s.table.contexts.length := by simp [State.modServing]

@[simp] theorem State.modSearch_contexts_length (s : State) (i : Nat) (f : SearchRecord → SearchRecord) :
    (s.modSearch i f).table.contexts.length = s.table.contexts.length := by simp [State.modSearch]

/-- A written context is read back, where it exists. -/
theorem State.ctx_setCtx_self (s : State) (i : Nat) (c : Context) (h : i < s.table.contexts.length) :
    (s.setCtx i c).ctx i = c := by
  simp [State.setCtx, State.ctx, List.getD_eq_getElem?_getD, h]

/-- Writing a context leaves every other one. -/
theorem State.ctx_setCtx_ne (s : State) (i k : Nat) (c : Context) (h : i ≠ k) : (s.setCtx i c).ctx k = s.ctx k := by
  simp [State.setCtx, State.ctx, List.getD_eq_getElem?_getD, List.getElem?_set_ne h]

/-- Writing a context beyond the table has no effect. -/
theorem State.setCtx_ge (s : State) (i : Nat) (c : Context) (h : s.table.contexts.length ≤ i) : s.setCtx i c = s := by
  simp [State.setCtx, List.set_eq_of_length_le h]

/-- A context beyond the table reads as a free guest. -/
theorem State.ctx_ge (s : State) (i : Nat) (h : s.table.contexts.length ≤ i) : s.ctx i = freeGuest := by
  simp [State.ctx, List.getD_eq_getElem?_getD, List.getElem?_eq_none h]

/-- Reading any context after a change of one. -/
theorem State.ctx_modCtx (s : State) (i k : Nat) (f : Context → Context) :
    (s.modCtx i f).ctx k = if i = k ∧ i < s.table.contexts.length then f (s.ctx i) else s.ctx k := by
  unfold State.modCtx
  by_cases hik : i = k
  · subst hik
    by_cases hl : i < s.table.contexts.length
    · simp [hl, State.ctx_setCtx_self]
    · simp [hl, State.setCtx_ge _ _ _ (Nat.not_lt.mp hl)]
  · simp [hik, State.ctx_setCtx_ne _ _ _ _ hik]

theorem State.ctx_modCtx_self (s : State) (i : Nat) (f : Context → Context) (h : i < s.table.contexts.length) :
    (s.modCtx i f).ctx i = f (s.ctx i) := by simp [State.ctx_modCtx, h]

theorem State.ctx_modCtx_ne (s : State) (i k : Nat) (f : Context → Context) (h : i ≠ k) :
    (s.modCtx i f).ctx k = s.ctx k := by simp [State.ctx_modCtx, h]

theorem State.ctx_modServing_self (s : State) (i : Nat) (f : Serving → Serving) (h : i < s.table.contexts.length) :
    (s.modServing i f).ctx i = { s.ctx i with serving := (s.ctx i).serving.map f } := State.ctx_modCtx_self _ _ _ h

theorem State.ctx_modServing_ne (s : State) (i k : Nat) (f : Serving → Serving) (h : i ≠ k) :
    (s.modServing i f).ctx k = s.ctx k := State.ctx_modCtx_ne _ _ _ _ h

theorem State.ctx_modSearch_self (s : State) (i : Nat) (f : SearchRecord → SearchRecord)
    (h : i < s.table.contexts.length) :
    (s.modSearch i f).ctx i = { s.ctx i with search := (s.ctx i).search.map f } := State.ctx_modCtx_self _ _ _ h

theorem State.ctx_modSearch_ne (s : State) (i k : Nat) (f : SearchRecord → SearchRecord) (h : i ≠ k) :
    (s.modSearch i f).ctx k = s.ctx k := State.ctx_modCtx_ne _ _ _ _ h

/-- A change of a context that keeps a projection keeps it for every context. -/
theorem State.ctx_modCtx_proj {α : Type} (p : Context → α) (s : State) (i k : Nat) (f : Context → Context)
    (h : ∀ c, p (f c) = p c) : p ((s.modCtx i f).ctx k) = p (s.ctx k) := by
  rw [State.ctx_modCtx]
  split
  · next hk => rw [h, hk.1]
  · rfl

/-! ### The slot directory -/

@[simp] theorem State.setDirectory_length (s : State) (slot : Nat) (e : Option Nat) :
    (s.setDirectory slot e).table.directory.length = s.table.directory.length := by simp [State.setDirectory]

theorem State.lookup_setDirectory_self (s : State) (slot : Nat) (e : Option Nat)
    (h : slot < s.table.directory.length) : (s.setDirectory slot e).lookup slot = e := by
  simp [State.setDirectory, State.lookup, List.getD_eq_getElem?_getD, h]

theorem State.lookup_setDirectory_ne (s : State) (slot k : Nat) (e : Option Nat) (h : slot ≠ k) :
    (s.setDirectory slot e).lookup k = s.lookup k := by
  simp [State.setDirectory, State.lookup, List.getD_eq_getElem?_getD, List.getElem?_set_ne h]

/-! ### Tap blocks -/

@[simp] theorem State.setBlock_length (s : State) (b : Nat) (t : TapBlock) :
    (s.setBlock b t).pool.blocks.length = s.pool.blocks.length := by simp [State.setBlock]

@[simp] theorem State.modBlock_length (s : State) (b : Nat) (f : TapBlock → TapBlock) :
    (s.modBlock b f).pool.blocks.length = s.pool.blocks.length := by simp [State.modBlock]

@[simp] theorem State.reserveBlock_length (s : State) (i b : Nat) :
    (s.reserveBlock i b).pool.blocks.length = s.pool.blocks.length := by simp [State.reserveBlock]

@[simp] theorem State.bindBlock_length (s : State) (i j b : Nat) :
    (s.bindBlock i j b).pool.blocks.length = s.pool.blocks.length := by simp [State.bindBlock]

@[simp] theorem State.freeBlock_length (s : State) (b : Nat) :
    (s.freeBlock b).pool.blocks.length = s.pool.blocks.length := by
  simp [State.freeBlock]

@[simp] theorem State.failBlock_length (s : State) (b n : Nat) :
    (s.failBlock b n).pool.blocks.length = s.pool.blocks.length := by simp [State.failBlock]

/-- Reading any block after a change of one. -/
theorem State.tapBlock_modBlock (s : State) (b k : Nat) (f : TapBlock → TapBlock) :
    (s.modBlock b f).tapBlock k = if b = k ∧ b < s.pool.blocks.length then f (s.tapBlock b) else s.tapBlock k := by
  unfold State.modBlock State.setBlock State.tapBlock
  simp only [List.getD_eq_getElem?_getD, List.getElem?_set]
  by_cases hbk : b = k
  · subst hbk
    by_cases hl : b < s.pool.blocks.length
    · simp [hl]
    · simp [hl]
  · simp [hbk]

theorem State.tapBlock_modBlock_self (s : State) (b : Nat) (f : TapBlock → TapBlock)
    (h : b < s.pool.blocks.length) : (s.modBlock b f).tapBlock b = f (s.tapBlock b) := by
  simp [State.tapBlock_modBlock, h]

theorem State.tapBlock_modBlock_ne (s : State) (b k : Nat) (f : TapBlock → TapBlock) (h : b ≠ k) :
    (s.modBlock b f).tapBlock k = s.tapBlock k := by simp [State.tapBlock_modBlock, h]

theorem State.tapBlock_freeBlock_ne (s : State) (b k : Nat) (h : b ≠ k) :
    (s.freeBlock b).tapBlock k = s.tapBlock k := by
  exact State.tapBlock_modBlock_ne s b k
    (fun t => { t with state := .free, owner := none, segment := none, lastSegment := none }) h

theorem State.tapBlock_reserveBlock_ne (s : State) (i b k : Nat) (h : b ≠ k) :
    (s.reserveBlock i b).tapBlock k = s.tapBlock k := State.tapBlock_modBlock_ne s b k _ h

theorem State.tapBlock_bindBlock_ne (s : State) (i j b k : Nat) (h : b ≠ k) :
    (s.bindBlock i j b).tapBlock k = s.tapBlock k := State.tapBlock_modBlock_ne s b k _ h

/-- A block newly bound stands on its segment with 64 entries at zero (R48). -/
theorem State.tapBlock_bindBlock_self (s : State) (i j b : Nat) (h : b < s.pool.blocks.length) :
    ((s.bindBlock i j b).tapBlock b).entries = zeroTaps ∧ ((s.bindBlock i j b).tapBlock b).state = .assigned
      ∧ ((s.bindBlock i j b).tapBlock b).segment = some j := by
  unfold State.bindBlock
  rw [State.tapBlock_modBlock_self _ _ _ h]
  exact ⟨rfl, rfl, rfl⟩

/-- A block freed joins the FIFO tail (R103). -/
theorem State.freeBlock_fifo (s : State) (b : Nat) : (s.freeBlock b).pool.fifo = s.pool.fifo ++ [b] := rfl

end Sys2Proof.Machine
end

