-- ==== Sys2Proof/Laws/Queue.lean ====
section
/-! SUPPORT. What joining, withdrawing and dropping do to the send queue (R150 to R152). -/

namespace Sys2Proof.Machine

theorem insertEntry_perm (e : Entry) (q : List Entry) : (insertEntry e q).Perm (e :: q) := by
  induction q with
  | nil => exact .refl _
  | cons x xs ih =>
    unfold insertEntry
    split
    · exact (ih.cons x).trans (.swap e x xs)
    · exact .refl _

@[simp] theorem insertEntry_length (e : Entry) (q : List Entry) : (insertEntry e q).length = q.length + 1 :=
  (insertEntry_perm e q).length_eq

@[simp] theorem mem_insertEntry (e x : Entry) (q : List Entry) : x ∈ insertEntry e q ↔ x = e ∨ x ∈ q := by
  rw [(insertEntry_perm e q).mem_iff, List.mem_cons]

/-- In a rank-ordered queue a message joins behind every entry of its rank or above (R150). -/
theorem insertEntry_of_ordered (e : Entry) (q : List Entry) (h : q.Pairwise fun a b => b.msg.kind ≤ a.msg.kind) :
    insertEntry e q = q.filter (fun x => decide (e.msg.kind ≤ x.msg.kind))
      ++ e :: q.filter fun x => decide (x.msg.kind < e.msg.kind) := by
  induction q with
  | nil => rfl
  | cons x xs ih =>
    rw [List.pairwise_cons] at h
    unfold insertEntry
    split
    · rename_i hx
      simp [hx, Nat.not_lt.mpr hx, ih h.2]
    · rename_i hx
      have low : ∀ y ∈ x :: xs, y.msg.kind < e.msg.kind := fun y hy => by
        rcases List.mem_cons.mp hy with rfl | hy
        · omega
        · have := h.1 y hy; omega
      rw [List.filter_eq_nil_iff.mpr fun y hy => by have := low y hy; simp; omega,
        List.filter_eq_self.mpr fun y hy => by simpa using low y hy]
      rfl

/-- The newest entry of a rank is the last of that rank in the queue (R151). -/
theorem removeNewest_append (rank : Nat) (older : List Entry) (newest : Entry) (younger : List Entry)
    (hn : newest.msg.kind = rank) (hy : ∀ x ∈ younger, x.msg.kind ≠ rank) :
    removeNewest rank (older ++ newest :: younger) = older ++ younger := by
  have h : ∀ x ∈ younger.reverse, ¬(x.msg.kind == rank) = true := fun x hx => by simpa using hy x (by simpa using hx)
  simp [removeNewest, List.eraseP_append_right _ h, hn]

/-- Removing the newest of a rank that the queue holds shortens it by one (R151). -/
theorem removeNewest_length (rank : Nat) (q : List Entry) (h : hasRank rank q = true) :
    (removeNewest rank q).length + 1 = q.length := by
  unfold hasRank at h
  have hr : (q.reverse).any (fun e => e.msg.kind == rank) = true := by simpa using h
  obtain ⟨a, ha, hp⟩ := List.any_eq_true.mp hr
  have hl := List.length_eraseP_of_mem (p := fun e : Entry => e.msg.kind == rank) ha hp
  have hpos : 0 < q.reverse.length := List.length_pos_of_mem ha
  simp only [removeNewest, List.length_reverse] at *
  omega

/-- What can happen when a message is to join the queue (R150, R151). -/
theorem joinQueueWith_cases (e : Entry) (q : List Entry) :
    (q.length < 16 ∧ joinQueueWith e q = (insertEntry e q, true, 0))
    ∨ (16 ≤ q.length ∧ 9 ≤ e.msg.kind ∧ hasRank 3 q = true
        ∧ joinQueueWith e q = (insertEntry e (removeNewest 3 q), true, 1))
    ∨ (16 ≤ q.length ∧ 9 ≤ e.msg.kind ∧ hasRank 3 q = false ∧ hasRank 4 q = true
        ∧ joinQueueWith e q = (insertEntry e (removeNewest 4 q), true, 1))
    ∨ (16 ≤ q.length ∧ joinQueueWith e q = (q, false, 1)) := by
  unfold joinQueueWith
  simp only [Config.queueTop]
  by_cases h : q.length < 16
  · simp [h]
  · have h' : 16 ≤ q.length := Nat.not_lt.mp h
    by_cases hk : 9 ≤ e.msg.kind
    · cases h3 : hasRank 3 q <;> cases h4 : hasRank 4 q <;> simp [h, h', hk]
    · simp [h, h', hk]

/-- The queue never grows past 16 (R150). -/
theorem joinQueueWith_length (e : Entry) (q : List Entry) (h : q.length ≤ 16) : (joinQueueWith e q).1.length ≤ 16 := by
  obtain ⟨hl, hj⟩ | ⟨_, _, h3, hj⟩ | ⟨_, _, _, h4, hj⟩ | ⟨_, hj⟩ := joinQueueWith_cases e q <;> rw [hj] <;> simp
  · omega
  · have := removeNewest_length 3 q h3; omega
  · have := removeNewest_length 4 q h4; omega
  · exact h

/-- A message that joins stands in the queue. -/
theorem mem_joinQueueWith (e : Entry) (q : List Entry) (h : (joinQueueWith e q).2.1 = true) :
    e ∈ (joinQueueWith e q).1 := by
  obtain ⟨_, hj⟩ | ⟨_, _, _, hj⟩ | ⟨_, _, _, _, hj⟩ | ⟨_, hj⟩ := joinQueueWith_cases e q <;> rw [hj] at h ⊢ <;> simp at h ⊢

theorem State.enqueue_queue (s : State) (e : Entry) :
    (s.enqueue e).1.lane.queue = (joinQueueWith e s.lane.queue).1 := rfl

/-- With room in the queue a message joins it and nothing is dropped (R150). -/
theorem State.enqueue_of_room (s : State) (e : Entry) (h : s.lane.queue.length < 16) :
    (s.enqueue e).1.lane.queue = insertEntry e s.lane.queue ∧ (s.enqueue e).2 = true := by
  have : joinQueueWith e s.lane.queue = (insertEntry e s.lane.queue, true, 0) := by
    simp [joinQueueWith, Config.queueTop, h]
  constructor
  · rw [State.enqueue_queue, this]
  · simp [State.enqueue, this]

theorem State.enqueue_queue_le (s : State) (e : Entry) (h : s.lane.queue.length ≤ 16) :
    (s.enqueue e).1.lane.queue.length ≤ 16 := joinQueueWith_length e _ h

theorem State.send_queue_le (s : State) (m : Msg) (h : s.lane.queue.length ≤ 16) :
    (s.send m).lane.queue.length ≤ 16 := joinQueueWith_length _ _ h

theorem State.notify_queue_le (s : State) (kind : Nat) (fs : List Field) (h : s.lane.queue.length ≤ 16) :
    (s.notify kind fs).lane.queue.length ≤ 16 := by
  unfold State.notify
  split
  · exact State.send_queue_le _ _ h
  · exact h

theorem State.withdraw_queue_le (s : State) (p : Entry → Bool) : (s.withdraw p).lane.queue.length ≤ s.lane.queue.length :=
  List.length_filter_le _ _

theorem State.mem_withdraw (s : State) (p : Entry → Bool) (e : Entry) :
    e ∈ (s.withdraw p).lane.queue ↔ e ∈ s.lane.queue ∧ p e = false := by
  simp [State.withdraw]

/-! ### Withdrawals within a frame -/

/-- Between cells a withdrawal takes effect at once (R152). -/
theorem State.recall_between (s : State) (p : Entry → Bool) (h : s.lane.cell = none) : s.recall p = s.withdraw p := by
  simp [State.recall, h]

/-- During a cell no entry leaves the queue: those withdrawn are marked for its end (R152). -/
theorem State.recall_in_cell (s : State) (p : Entry → Bool) (h : s.lane.cell ≠ none) :
    (s.recall p).lane.queue = s.lane.queue
      ∧ (s.recall p).lane.recalled = (s.lane.recalled.filter fun e => !p e) ++ s.lane.queue.filter p := by
  obtain ⟨c, hc⟩ := Option.ne_none_iff_exists'.mp h
  simp [State.recall, hc]

theorem State.recall_queue_le (s : State) (p : Entry → Bool) : (s.recall p).lane.queue.length ≤ s.lane.queue.length := by
  unfold State.recall
  split
  · exact State.withdraw_queue_le s p
  · exact Nat.le_refl _

/-- With nothing withdrawn the end of a cell leaves the queue as it stands. -/
theorem State.settleRecalled_of_nil (s : State) (h : s.lane.recalled = []) : s.settleRecalled = s := by
  cases s with
  | mk _ _ _ _ _ _ lane _ => cases lane; simp_all [State.settleRecalled]

theorem State.settleRecalled_queue (s : State) : s.settleRecalled.lane.queue = s.lane.queue.diff s.lane.recalled := rfl

theorem State.settleRecalled_queue_le (s : State) : s.settleRecalled.lane.queue.length ≤ s.lane.queue.length :=
  (List.diff_sublist _ _).length_le

/-- The drop count after a message is to join stays within 0..65535 (R153). -/
theorem State.enqueue_drops_le (s : State) (e : Entry) : (s.enqueue e).1.lane.drops ≤ 65535 := Nat.min_le_left _ _

end Sys2Proof.Machine
end

