-- ==== Sys2Proof/Laws/Outside.lean ====
section
/-! SUPPORT. What the calls of a station and its tap pool leave alone: everything outside the contexts, the tap blocks,
the free FIFO, the shortfall queue and the send queue with its drop count. -/

namespace Sys2Proof.Machine

/-! ### Reading a part off an unchanged outside -/

section
variable {s t : State}
theorem State.outside_pending (h : t.outside = s.outside) : t.pending = s.pending := congrArg (·.1.pending) h
theorem State.outside_frame (h : t.outside = s.outside) : t.frame = s.frame := congrArg (·.1.frame) h
theorem State.outside_highway (h : t.outside = s.outside) : t.highway = s.highway := congrArg (·.1.highway) h
theorem State.outside_profile (h : t.outside = s.outside) : t.profile = s.profile := congrArg (·.1.profile) h
theorem State.outside_share (h : t.outside = s.outside) : t.share = s.share := congrArg (·.1.share) h
theorem State.outside_directory (h : t.outside = s.outside) : t.table.directory = s.table.directory :=
  congrArg (·.1.table.directory) h
theorem State.outside_faulty (h : t.outside = s.outside) : t.pool.faulty = s.pool.faulty := congrArg (·.1.pool.faulty) h
theorem State.outside_contexts (h : t.outside = s.outside) : t.table.contexts.length = s.table.contexts.length :=
  congrArg (·.2.1) h
theorem State.outside_blocks (h : t.outside = s.outside) : t.pool.blocks.length = s.pool.blocks.length :=
  congrArg (·.2.2) h
theorem State.outside_markRecord (h : t.outside = s.outside) : t.lane.markRecord = s.lane.markRecord :=
  congrArg (·.1.lane.markRecord) h
theorem State.outside_ownRecord (h : t.outside = s.outside) : t.lane.ownRecord = s.lane.ownRecord :=
  congrArg (·.1.lane.ownRecord) h
theorem State.outside_discards (h : t.outside = s.outside) : t.lane.discards = s.lane.discards :=
  congrArg (·.1.lane.discards) h
theorem State.outside_clashes (h : t.outside = s.outside) : t.lane.clashes = s.lane.clashes :=
  congrArg (·.1.lane.clashes) h
theorem State.outside_surplus (h : t.outside = s.outside) : t.lane.surplus = s.lane.surplus :=
  congrArg (·.1.lane.surplus) h
theorem State.outside_cell (h : t.outside = s.outside) : t.lane.cell = s.lane.cell := congrArg (·.1.lane.cell) h
theorem State.outside_lookup (h : t.outside = s.outside) (slot : Nat) : t.lookup slot = s.lookup slot := by
  unfold State.lookup; rw [State.outside_directory h]
end

/-! ### The primitive updates -/

section
variable (s : State) (i b n : Nat)
@[simp] theorem State.outside_setCtx (c : Context) : (s.setCtx i c).outside = s.outside := by
  simp [State.outside, State.setCtx]
@[simp] theorem State.outside_modCtx (f : Context → Context) : (s.modCtx i f).outside = s.outside := by
  simp [State.modCtx]
@[simp] theorem State.outside_modServing (f : Serving → Serving) : (s.modServing i f).outside = s.outside := by
  simp [State.modServing]
@[simp] theorem State.outside_modSearch (f : SearchRecord → SearchRecord) : (s.modSearch i f).outside = s.outside := by
  simp [State.modSearch]
@[simp] theorem State.outside_modBlock (f : TapBlock → TapBlock) : (s.modBlock b f).outside = s.outside := by
  simp [State.outside, State.modBlock, State.setBlock]
@[simp] theorem State.outside_reserveBlock : (s.reserveBlock i b).outside = s.outside := by simp [State.reserveBlock]
@[simp] theorem State.outside_bindBlock (j : Nat) : (s.bindBlock i j b).outside = s.outside := by simp [State.bindBlock]
@[simp] theorem State.outside_failBlock : (s.failBlock b n).outside = s.outside := by simp [State.failBlock]
@[simp] theorem State.outside_freeBlock : (s.freeBlock b).outside = s.outside := by
  simp [State.outside, State.freeBlock, State.modBlock, State.setBlock]
@[simp] theorem State.outside_fifo (q : List Nat) : State.outside { s with pool := { s.pool with fifo := q } } = s.outside :=
  rfl
@[simp] theorem State.outside_shortfall (q : List Nat) :
    State.outside { s with pool := { s.pool with shortfall := q } } = s.outside := rfl
@[simp] theorem State.outside_takeBlocks : (s.takeBlocks n).2.outside = s.outside := rfl
@[simp] theorem State.outside_enqueue (e : Entry) : (s.enqueue e).1.outside = s.outside := rfl
@[simp] theorem State.outside_send (m : Msg) : (s.send m).outside = s.outside := rfl
@[simp] theorem State.outside_withdraw (p : Entry → Bool) : (s.withdraw p).outside = s.outside := rfl
@[simp] theorem State.outside_recall (p : Entry → Bool) : (s.recall p).outside = s.outside := by
  unfold State.recall; split <;> rfl
@[simp] theorem State.outside_settleRecalled : s.settleRecalled.outside = s.outside := rfl
@[simp] theorem State.outside_notify (kind : Nat) (fs : List Field) : (s.notify kind fs).outside = s.outside := by
  unfold State.notify; split <;> rfl
end

/-- A fold of updates that each leave the outside leaves it. -/
theorem State.outside_foldl {α : Type} (f : State → α → State) (hf : ∀ s a, (f s a).outside = s.outside)
    (l : List α) (s : State) : (l.foldl f s).outside = s.outside := by
  induction l generalizing s with
  | nil => rfl
  | cons a l ih => simp [ih, hf]

/-! ### The shortfall queue, notices of the pool, and offers -/

@[simp] theorem State.outside_noticeRetired (s : State) (b n : Nat) : (s.noticeRetired b n).outside = s.outside := by
  simp [State.noticeRetired]

@[simp] theorem State.outside_cancelOffer (s : State) (i : Nat) : (s.cancelOffer i).outside = s.outside := by
  unfold State.cancelOffer; dsimp only; split <;> simp

@[simp] theorem State.outside_leaveShortfall (s : State) (i : Nat) : (s.leaveShortfall i).outside = s.outside := by
  unfold State.leaveShortfall; split <;> simp

@[simp] theorem State.outside_joinShortfall (s : State) (i : Nat) : (s.joinShortfall i).outside = s.outside := by
  unfold State.joinShortfall; split <;> simp

@[simp] theorem State.outside_fillMap (s : State) (i : Nat) (map : List Segment) (bs : List Nat) :
    (s.fillMap i map bs).1.outside = s.outside := by
  simp [State.fillMap, State.outside_foldl]

@[simp] theorem outside_requestForPlan (i : Nat) (s : State) : (requestForPlan i s).outside = s.outside := by
  unfold requestForPlan
  dsimp only
  split
  · rfl
  · split
    · simp
    · split <;> simp

/-! ### Tasks -/

@[simp] theorem State.outside_leaveIfMet (s : State) (i : Nat) : (s.leaveIfMet i).outside = s.outside := by
  unfold State.leaveIfMet; split <;> simp

@[simp] theorem State.outside_toTrack (s : State) (i : Nat) : (s.toTrack i).outside = s.outside := by
  simp [State.toTrack]

@[simp] theorem outside_placeBlock (b : Nat) (s : State) : (placeBlock b s).1.outside = s.outside := by
  unfold placeBlock
  split
  · simp
  · split
    · simp
    · split <;> simp
    · simp

@[simp] theorem outside_promoteTask (s : State) : (promoteTask s).1.outside = s.outside := by
  unfold promoteTask
  split
  · rfl
  · simp only [outside_placeBlock]; split <;> simp

theorem outside_passStartTask (i : Nat) (s : State) : (passStartTask i s).1.outside = s.outside := by
  unfold passStartTask
  split
  · dsimp only
    split
    · rfl
    · split <;> simp [State.outside_foldl]
  · rfl

theorem outside_searchEndTask (i : Nat) (s : State) : (searchEndTask i s).1.outside = s.outside := by
  unfold searchEndTask
  split
  · rfl
  · dsimp only
    split
    · simp
    · split <;> simp

/-- A task leaves the outside. -/
@[simp] theorem outside_doTask (t : Task) (s : State) : (doTask t s).1.outside = s.outside := by
  cases t with
  | release b => simp only [doTask, releaseTask]; split <;> simp
  | promote => exact outside_promoteTask s
  | passStart i => exact outside_passStartTask i s
  | checkMet i => simp [doTask]
  | searchEnd i => exact outside_searchEndTask i s
  | finishSearch i => simp [doTask, finishSearchTask]

theorem outside_runTasks (fuel : Nat) (ts : List Task) (s : State) : (runTasks fuel ts s).outside = s.outside := by
  induction fuel generalizing ts s with
  | zero => rfl
  | succ n ih =>
    cases ts with
    | nil => rfl
    | cons t ts => simp [runTasks, ih]

/-- Tasks leave the outside. -/
@[simp] theorem outside_perform (ts : List Task) (s : State) : (perform ts s).outside = s.outside :=
  outside_runTasks _ _ _

/-! ### Requests, failures and upsets -/

@[simp] theorem outside_requestToSpare (i : Nat) (s : State) : (requestToSpare i s).1.outside = s.outside := by
  unfold requestToSpare
  dsimp only
  split
  · rfl
  · split
    · simp
    · dsimp only; split <;> simp [State.outside_foldl]

@[simp] theorem outside_retire (b : Nat) (s : State) : (retire b s).outside = s.outside := by
  unfold retire
  dsimp only
  split <;> simp

@[simp] theorem outside_retireIfDue (b : Nat) (s : State) : (retireIfDue b s).outside = s.outside := by
  unfold retireIfDue; split <;> simp

@[simp] theorem outside_correctedReads (b n : Nat) (s : State) : (correctedReads b n s).outside = s.outside := by
  simp [correctedReads]

@[simp] theorem outside_loseSegment (i j : Nat) (s : State) : (loseSegment i j s).outside = s.outside := by
  unfold loseSegment
  dsimp only
  split
  · simp
  · split
    · simp
    · split
      · simp
      · split
        · simp
        · split <;> simp

@[simp] theorem outside_restIfUnbound (i : Nat) (s : State) : (restIfUnbound i s).outside = s.outside := by
  unfold restIfUnbound; split <;> simp

@[simp] theorem outside_uncorrectable (i j b : Nat) (s : State) : (uncorrectable i j b s).outside = s.outside := by
  unfold uncorrectable
  dsimp only
  split
  · simp
  · split <;> simp

@[simp] theorem outside_strike (upsets : List TapUpset) (s : State) : (strike upsets s).outside = s.outside := by
  unfold strike
  exact State.outside_foldl _ (by simp) _ _

@[simp] theorem outside_readBlock (i : Nat) (s : State) (jb : Nat × Nat) :
    (readBlock i s jb).outside = s.outside := by
  unfold readBlock
  dsimp only
  split
  · simp
  · split <;> simp

@[simp] theorem outside_readBlocks (i : Nat) (bound : List (Nat × Nat)) (s : State) :
    (readBlocks i bound s).outside = s.outside := by
  unfold readBlocks
  apply State.outside_foldl
  intro s b
  split <;> simp

/-! ### The life of a call -/

@[simp] theorem outside_makeOffer (i : Nat) (s : State) : (makeOffer i s).outside = s.outside := by
  unfold makeOffer
  dsimp only
  split <;> simp

@[simp] theorem outside_offerIfShort (i n : Nat) (s : State) : (offerIfShort i n s).outside = s.outside := by
  unfold offerIfShort; split <;> simp

@[simp] theorem outside_startSearch (i : Nat) (s : State) : (startSearch i s).outside = s.outside := by
  unfold startSearch; dsimp only; split <;> simp

@[simp] theorem outside_callStart (i : Nat) (s : State) : (callStart i s).outside = s.outside := by
  unfold callStart; dsimp only; split <;> simp

@[simp] theorem outside_releaseHeld (i : Nat) (s : State) : (releaseHeld i s).outside = s.outside := by
  simp [releaseHeld]

@[simp] theorem outside_clearTone (i : Nat) (s : State) : (clearTone i s).outside = s.outside := by simp [clearTone]

@[simp] theorem outside_enterPassing (i : Nat) (st : CallState) (s : State) :
    (enterPassing i st s).outside = s.outside := by
  unfold enterPassing; dsimp only; split <;> simp

@[simp] theorem outside_callEnded (i : Nat) (s : State) : (callEnded i s).outside = s.outside := by
  unfold callEnded; split <;> simp

@[simp] theorem outside_endCall (i : Nat) (s : State) : (endCall i s).outside = s.outside := by simp [endCall]

@[simp] theorem outside_searchAgain (i : Nat) (s : State) : (searchAgain i s).outside = s.outside := by
  unfold searchAgain
  dsimp only
  split
  · simp
  · split <;> simp

@[simp] theorem outside_startTaker (i : Nat) (bypass : Bool) (s : State) : (startTaker i bypass s).outside = s.outside := by
  unfold startTaker
  dsimp only
  split <;> simp

/-! ### Block ends and the events they make due -/

@[simp] theorem State.outside_mapBound (s : State) (i : Nat) (f : List TapEntry → List TapEntry) :
    (s.mapBound i f).outside = s.outside := by
  unfold State.mapBound
  exact State.outside_foldl _ (by simp) _ _

@[simp] theorem outside_unbind (i : Nat) (gone : List (Nat × Nat)) (s : State) : (unbind i gone s).outside = s.outside := by
  simp [unbind, State.outside_foldl]

@[simp] theorem outside_nextStep (i : Nat) (failed : List Nat) (r : SearchRecord) (s : State) :
    (nextStep i failed r s).outside = s.outside := by
  unfold nextStep
  dsimp only
  split
  · simp
  · split
    · simp
    · split <;> simp

@[simp] theorem outside_evaluate (i : Nat) (s : State) : (evaluate i s).outside = s.outside := by
  unfold evaluate
  split <;> simp

@[simp] theorem outside_settleSearch (i : Nat) (s : State) : (settleSearch i s).outside = s.outside := by
  simp [settleSearch]

@[simp] theorem outside_pathChanged (i : Nat) (s : State) : (pathChanged i s).outside = s.outside := by
  simp [pathChanged]

@[simp] theorem outside_setToneHold (i : Nat) (s : State) : (setToneHold i s).outside = s.outside := by
  simp [setToneHold]

@[simp] theorem outside_releaseToneHold (i : Nat) (s : State) : (releaseToneHold i s).outside = s.outside := by
  simp [releaseToneHold]

@[simp] theorem outside_releaseDisabled (i : Nat) (s : State) : (releaseDisabled i s).outside = s.outside := by
  simp [releaseDisabled]

@[simp] theorem outside_disableOnReversal (i : Nat) (s : State) : (disableOnReversal i s).outside = s.outside := by
  unfold disableOnReversal
  split
  · rfl
  · split <;> simp

/-- An event taken when it is due leaves the outside when its act does. -/
theorem outside_whenDue (due : Context → Serving → Bool) (act : Nat → State → State)
    (h : ∀ i s, (act i s).outside = s.outside) (i : Nat) (s : State) : (whenDue due act i s).outside = s.outside := by
  unfold whenDue
  split
  · split
    · exact h i s
    · rfl
  · rfl

@[simp] theorem outside_evaluateIfDue (i : Nat) (s : State) : (evaluateIfDue i s).outside = s.outside :=
  outside_whenDue _ _ outside_evaluate i s

@[simp] theorem outside_pathChangeIfDue (i : Nat) (s : State) : (pathChangeIfDue i s).outside = s.outside :=
  outside_whenDue _ _ outside_pathChanged i s

@[simp] theorem outside_toneHoldIfDue (i : Nat) (s : State) : (toneHoldIfDue i s).outside = s.outside :=
  outside_whenDue _ _ outside_setToneHold i s

@[simp] theorem outside_toneHoldReleaseIfDue (i : Nat) (s : State) : (toneHoldReleaseIfDue i s).outside = s.outside :=
  outside_whenDue _ _ outside_releaseToneHold i s

@[simp] theorem outside_disabledReleaseIfDue (i : Nat) (s : State) : (disabledReleaseIfDue i s).outside = s.outside :=
  outside_whenDue _ _ outside_releaseDisabled i s

@[simp] theorem outside_fullBlockEnd (i : Nat) (sv : Serving) (s : State) :
    (fullBlockEnd i sv s).outside = s.outside := by simp [fullBlockEnd]

@[simp] theorem outside_leadInBlockEnd (i : Nat) (s : State) : (leadInBlockEnd i s).outside = s.outside := by
  simp [leadInBlockEnd]

@[simp] theorem outside_disabledBlockEnd (i : Nat) (s : State) : (disabledBlockEnd i s).outside = s.outside := by
  unfold disabledBlockEnd; split <;> simp

@[simp] theorem outside_blockEnded (i : Nat) (s : State) : (blockEnded i s).outside = s.outside := by
  unfold blockEnded
  simp only [State.outside_modServing]
  split
  · rfl
  · split
    · split <;> simp
    · split <;> simp
    · simp
    · rfl
    · rfl
    · rfl

@[simp] theorem outside_blockEndIfDue (i : Nat) (s : State) : (blockEndIfDue i s).outside = s.outside :=
  outside_whenDue _ _ outside_blockEnded i s

/-! ### Samples -/

@[simp] theorem outside_callStarted (i : Nat) (s : State) : (callStarted i s).outside = s.outside := by
  unfold callStarted
  dsimp only
  split <;> split <;> simp

@[simp] theorem outside_recognise (i : Nat) (rin sin : Byte) (s : State) : (recognise i rin sin s).outside = s.outside := by
  unfold recognise
  split
  · rfl
  · dsimp only
    split
    · split <;> simp
    · split <;> simp

@[simp] theorem outside_gatherGradients (parts : List (Nat × Nat)) (e : Int) (window : List Int) (s : State) :
    (gatherGradients parts e window s).outside = s.outside := by
  unfold gatherGradients
  exact State.outside_foldl _ (by simp) _ _

@[simp] theorem outside_processByState (i : Nat) (rin sin : Byte) (upsets : List TapUpset) (s : State) :
    (processByState i rin sin upsets s).1.outside = s.outside := by
  have hp : (processSample i rin sin upsets s).1.outside = s.outside := by
    unfold processSample
    dsimp only
    split
    · simp
    · dsimp only; split <;> simp
  have hd : (disabledSample i rin sin s).outside = s.outside := by
    unfold disabledSample; split <;> simp
  unfold processByState
  split <;> first | exact hp | exact hd | rfl

/-! ### Slot controls -/

@[simp] theorem outside_rejudge (s : State) (i : Nat) : (rejudge s i).outside = s.outside := by
  unfold rejudge
  split
  · rfl
  · split
    · split <;> simp
    · rfl

@[simp] theorem outside_controlAction (action profile : BitVec 3) (i : Nat) (s : State) :
    (controlAction action profile i s).outside = s.outside := by
  unfold controlAction
  split
  · simp
  · simp only [transparentOn]; split <;> simp
  · simp only [transparentOff, transparentOff.rejudgeIfRun]; split <;> simp
  · simp
  · simp
  · simp only [settleSlot]; split <;> simp
  · simp only [restartSearch]; split <;> simp
  · rfl

end Sys2Proof.Machine
end

