-- ==== Sys2Proof/Laws/PerInstr.lean ====
section
/-! SUPPORT. One family of statements per command: the message a command stands for fits a cell. Its kind code and
fields take at most the 112 bits before the check, and every field's value fits its width, so a cell carries the message
whole (R139, R143). -/

namespace Sys2Proof.Laws.MessageFits

open Sys2Proof Sys2Proof.Machine

/-- Kind and fields fit in cell bits 0 to 111, and each field in its width. -/
def Fits (m : Msg) : Prop := 4 + widthOf m.fields ≤ 112 ∧ ∀ f ∈ m.fields, f.2 < 2 ^ f.1

/-- What the family says of a command. -/
def Statement (i : Instr) : Prop := ∀ m, i.message? = some m → Fits m

/-- Every message fits. -/
theorem fits (m : Msg) : Fits m := by
  refine ⟨by cases m <;> simp [Msg.fields, widthOf], ?_⟩
  intro f hf
  cases m <;> simp only [Msg.fields, List.mem_cons, List.not_mem_nil, or_false] at hf <;>
    (repeat' (first | (rcases hf with rfl | hf) | subst hf)) <;> exact BitVec.isLt _

theorem resetAssertion : Statement (.resetAssertion) := fun m _ => fits m
theorem resetRelease station population tested : Statement (.resetRelease station population tested) := fun m _ => fits m
theorem testEnd : Statement (.testEnd) := fun m _ => fits m
theorem frameSyncPulse clock : Statement (.frameSyncPulse clock) := fun m _ => fits m
theorem syncLock : Statement (.syncLock) := fun m _ => fits m
theorem syncRegain : Statement (.syncRegain) := fun m _ => fits m
theorem expectedPositionCheck pulse : Statement (.expectedPositionCheck pulse) := fun m _ => fits m
theorem syncLoss : Statement (.syncLoss) := fun m _ => fits m
theorem huntPeriod : Statement (.huntPeriod) := fun m _ => fits m
theorem sample slot rin sin upsets : Statement (.sample slot rin sin upsets) := fun m _ => fits m
theorem callEnd slot : Statement (.callEnd slot) := fun m _ => fits m
theorem retirement block : Statement (.retirement block) := fun m _ => fits m
theorem dtHangoverEnd slot : Statement (.dtHangoverEnd slot) := fun m _ => fits m
theorem nlpHangoverExpiry slot : Statement (.nlpHangoverExpiry slot) := fun m _ => fits m
theorem blockEnd slot : Statement (.blockEnd slot) := fun m _ => fits m
theorem pathChange slot : Statement (.pathChange slot) := fun m _ => fits m
theorem evaluation slot : Statement (.evaluation slot) := fun m _ => fits m
theorem toneHold slot : Statement (.toneHold slot) := fun m _ => fits m
theorem toneHoldRelease slot : Statement (.toneHoldRelease slot) := fun m _ => fits m
theorem disabledRelease slot : Statement (.disabledRelease slot) := fun m _ => fits m
theorem frameBoundary others : Statement (.frameBoundary others) := fun m _ => fits m
theorem orphan slot : Statement (.orphan slot) := fun m _ => fits m
theorem adoptJudgement slot : Statement (.adoptJudgement slot) := fun m _ => fits m
theorem offerWindowEnd slot : Statement (.offerWindowEnd slot) := fun m _ => fits m
theorem bidWindowExpiry slot : Statement (.bidWindowExpiry slot) := fun m _ => fits m
theorem grantStale slot : Statement (.grantStale slot) := fun m _ => fits m
theorem bidTimeout slot : Statement (.bidTimeout slot) := fun m _ => fits m
theorem offerMemoryExpiry slot : Statement (.offerMemoryExpiry slot) := fun m _ => fits m
theorem handOver slot : Statement (.handOver slot) := fun m _ => fits m
theorem reclaimAgeExpiry slot : Statement (.reclaimAgeExpiry slot) := fun m _ => fits m
theorem listenEnd : Statement (.listenEnd) := fun m _ => fits m
theorem configTimeout : Statement (.configTimeout) := fun m _ => fits m
theorem runEntry : Statement (.runEntry) := fun m _ => fits m
theorem cellStart cell line : Statement (.cellStart cell line) := fun m _ => fits m
theorem cellEnd : Statement (.cellEnd) := fun m _ => fits m
theorem offer slot demand profile frozen sender : Statement (.offer slot demand profile frozen sender) := fun m _ => fits m
theorem bid slot margin sender : Statement (.bid slot margin sender) := fun m _ => fits m
theorem grant slot taker sender : Statement (.grant slot taker sender) := fun m _ => fits m
theorem returnSlot slot cause sender : Statement (.returnSlot slot cause sender) := fun m _ => fits m
theorem adopt slot margin sender : Statement (.adopt slot margin sender) := fun m _ => fits m
theorem reclaim slot sender : Statement (.reclaim slot sender) := fun m _ => fits m
theorem profileAction slot profile sender : Statement (.profileAction slot profile sender) := fun m _ => fits m
theorem transparentOn slot sender : Statement (.transparentOn slot sender) := fun m _ => fits m
theorem transparentOff slot sender : Statement (.transparentOff slot sender) := fun m _ => fits m
theorem freeze slot sender : Statement (.freeze slot sender) := fun m _ => fits m
theorem resume slot sender : Statement (.resume slot sender) := fun m _ => fits m
theorem settle slot sender : Statement (.settle slot sender) := fun m _ => fits m
theorem restart slot sender : Statement (.restart slot sender) := fun m _ => fits m
theorem noAction slot sender : Statement (.noAction slot sender) := fun m _ => fits m
theorem profileMessage target index budget reach step switches sendTarget receiveTarget sendG receiveG sender : Statement (.profileMessage target index budget reach step switches sendTarget receiveTarget sendG receiveG sender) := fun m _ => fits m
theorem runMessage target mask idleCount codeCount code1 code2 code3 code4 sender : Statement (.runMessage target mask idleCount codeCount code1 code2 code3 code4 sender) := fun m _ => fits m
theorem queryIdentity target argument sender : Statement (.queryIdentity target argument sender) := fun m _ => fits m
theorem queryStation target argument sender : Statement (.queryStation target argument sender) := fun m _ => fits m
theorem queryChannelA target argument sender : Statement (.queryChannelA target argument sender) := fun m _ => fits m
theorem queryChannelB target argument sender : Statement (.queryChannelB target argument sender) := fun m _ => fits m
theorem queryBlock target argument sender : Statement (.queryBlock target argument sender) := fun m _ => fits m
theorem queryUnknownPage target page argument sender : Statement (.queryUnknownPage target page argument sender) := fun m _ => fits m
theorem report page argument body sender : Statement (.report page argument body sender) := fun m _ => fits m
theorem notice kind argument sender : Statement (.notice kind argument sender) := fun m _ => fits m

end Sys2Proof.Laws.MessageFits
end

