-- ==== Sys2Proof/Laws/PoolLaws.lean ====
section
/-! SUPPORT. The tap pool's laws as a check over the 64 contexts and the 264 blocks of the part. -/

namespace Sys2Proof.Machine

/-- The record of one search, checked (R77, R78, R82, R84, R87, R93). -/
def SearchRecord.laidCheck (st : CallState) (reach : Nat) (r : SearchRecord) : Bool :=
  decide (r.map.map (·.number)).Nodup && (r.map.all fun e => decide (e.number < reach))
    && decide r.retained.Nodup && (r.retained.all fun j => decide (j < reach)) && decide (r.spare.Pairwise (· < ·))
    && (st != .search || ((r.map.all fun e => decide (e.number ∈ r.explored) && e.block?.isSome)
        && (r.status != .waiting || r.unexplored reach != [])))
    && (st != .track || (r.spare == [] && r.want == r.map.length && r.map.all fun e => e.fill != .lost))

/-- What one context holds, checked (R78, R96). -/
def State.holdsCheck (s : State) (i : Nat) : Bool :=
  (s.ctx i).search.elim true fun r => r.laidCheck (s.ctx i).callState (s.profileOf i).reach
    && decide (s.heldBlocks i).Nodup
    && (r.bound.all fun jb => (s.tapBlock jb.2).state == .assigned && (s.tapBlock jb.2).segment == some jb.1
        && (s.tapBlock jb.2).owner.map (·.context) == some i)
    && r.spare.all fun b => (s.tapBlock b).state == .reserved && (s.tapBlock b).owner.map (·.context) == some i

/-- Whether a context can take a block, checked (R91). -/
def State.takesCheck (s : State) (h : Nat) : Bool :=
  ((s.ctx h).callState == .search && (s.ctx h).search.isSome)
    || ((s.ctx h).callState == .track && (s.ctx h).search.elim false fun r => r.map.any fun e => e.fill == .unfilled)

/-- Where a context's role, offer and search may stand, checked (R20, R25, R26, R158, R161). -/
def State.contextCheck (s : State) (i : Nat) : Bool :=
  ((s.ctx i).role.serves || (s.ctx i).callState == .notServing)
    && ((s.ctx i).role != .homeOffering || (s.ctx i).stopAt.isSome || s.pool.shortfall.contains i)
    && ((s.ctx i).search.isNone
      || (s.profile.station == .run && (s.ctx i).callState.processes && (s.ctx i).serving.isSome))

/-- The laws of the pool in a station that serves, checked. -/
def State.poolCheck (s : State) : Bool :=
  decide (s.table.contexts.length = 64) && decide (s.pool.blocks.length = 264) && s.profile.station.serves
    && decide s.pool.fifo.Nodup && (s.pool.fifo.all fun b => decide (b < 264))
    && (s.pool.blocks.zipIdx.all fun p => s.pool.fifo.contains p.2 == (p.1.state == .free))
    && s.countBlocks .spare == 8 - s.countBlocks .failed
    && (s.pool.blocks.all fun t => !t.retirePending || t.state == .assigned || t.state == .reserved)
    && ((List.range 64).all s.holdsCheck)
    && decide s.pool.shortfall.Nodup && (s.pool.shortfall == [] || s.pool.fifo == [])
    && (s.pool.shortfall.all s.takesCheck)
    && (s.profile.profiles.all fun p => decide (1 ≤ p.reach))
    && (List.range 64).all s.contextCheck

theorem SearchRecord.laid_of_check {st : CallState} {reach : Nat} {r : SearchRecord}
    (h : r.laidCheck st reach = true) : r.laid st reach := by
  simp only [SearchRecord.laidCheck, Bool.and_eq_true, decide_eq_true_eq, Bool.or_eq_true, bne_iff_ne, ne_eq,
    List.all_eq_true, beq_iff_eq] at h
  obtain ⟨⟨⟨⟨⟨⟨h1, h2⟩, h3⟩, h4⟩, h5⟩, h6⟩, h7⟩ := h
  exact ⟨⟨h1, h2⟩, ⟨h3, h4⟩, h5, fun hs =>
    have := h6.resolve_left fun n => n hs
    ⟨this.1, fun hw => this.2.resolve_left fun n => n hw⟩, fun ht =>
    have := h7.resolve_left fun n => n ht
    ⟨this.1.1, this.1.2, this.2⟩⟩

theorem State.holds_of_check {s : State} {i : Nat} (h : s.holdsCheck i = true) : s.holds i := by
  intro r hr
  simp only [State.holdsCheck, hr, Option.elim_some, Bool.and_eq_true, decide_eq_true_eq, List.all_eq_true,
    beq_iff_eq] at h
  obtain ⟨⟨⟨h1, h2⟩, h3⟩, h4⟩ := h
  exact ⟨SearchRecord.laid_of_check h1, h2, fun jb hjb => ⟨(h3 jb hjb).1.1, (h3 jb hjb).1.2, (h3 jb hjb).2⟩, h4⟩

theorem State.canTake_of_check {s : State} {k : Nat} (h : s.takesCheck k = true) : s.canTake k := by
  simp only [State.takesCheck, Bool.or_eq_true, Bool.and_eq_true, beq_iff_eq] at h
  rcases h with h | ⟨h1, h2⟩
  · exact .inl h
  · refine .inr ⟨h1, ?_⟩
    cases hr : (s.ctx k).search with
    | none => simp [hr] at h2
    | some r =>
      simp only [hr, Option.elim_some, List.any_eq_true, beq_iff_eq] at h2
      exact ⟨r, rfl, h2⟩

/-- A station in CONFIG or RUN whose 64 contexts and 264 blocks pass the check keeps the laws of the pool. -/
theorem State.poolSound_of_check {s : State} (h : s.poolCheck = true) : s.poolSound := by
  simp only [State.poolCheck, Bool.and_eq_true, decide_eq_true_eq, List.all_eq_true, List.mem_range, beq_iff_eq,
    Bool.or_eq_true, Bool.not_eq_true'] at h
  obtain ⟨⟨⟨⟨⟨⟨⟨⟨⟨⟨⟨⟨⟨h1, h2⟩, hs⟩, h3⟩, h4⟩, h5⟩, h6⟩, h7⟩, h8⟩, h9⟩, h10⟩, h11⟩, h12⟩, h13⟩ := h
  have within : ∀ b < 264, (s.tapBlock b, b) ∈ s.pool.blocks.zipIdx := fun b hb => by
    rw [List.mk_mem_zipIdx_iff_getElem?]
    simp [State.tapBlock, List.getD_eq_getElem?_getD, h2 ▸ hb]
  have beyond : ∀ b, 264 ≤ b → s.tapBlock b = idleBlock .failed := fun b hb => by
    simp [State.tapBlock, List.getD_eq_getElem?_getD, List.getElem?_eq_none (h2 ▸ hb)]
  have context : ∀ i, s.contextCheck i = true := fun i => by
    by_cases hlt : i < 64
    · exact h13 i hlt
    · rw [State.contextCheck, State.ctx_ge s i (h1 ▸ Nat.not_lt.mp hlt)]; rfl
  simp only [State.contextCheck, Bool.and_eq_true, Bool.or_eq_true, beq_iff_eq, bne_iff_ne, ne_eq,
    List.contains_iff_mem, Option.isNone_iff_eq_none] at context
  refine ⟨h1, h2, h3, fun b => ⟨fun hb => ⟨h4 b hb, ?_⟩, fun hb => ?_⟩, h6, fun b hb => ?_, fun i => ?_, h9, ?_, ?_,
    fun i hr hn => ?_, h12, fun i hi => ?_, fun i hi => ?_, fun n => absurd hs (by simp [n])⟩
  · have := h5 _ (within b (h4 b hb))
    rw [List.contains_iff_mem.mpr hb] at this
    simpa using this.symm
  · have := h5 _ (within b hb.1)
    rw [beq_iff_eq.mpr hb.2] at this
    exact List.contains_iff_mem.mp this
  · by_cases hlt : b < 264
    · rcases h7 _ (List.fst_mem_of_mem_zipIdx (within b hlt)) with (n | n) | n
      · rw [n] at hb; cases hb
      · exact .inl n
      · exact .inr n
    · rw [beyond b (Nat.not_lt.mp hlt)] at hb; cases hb
  · by_cases hlt : i < 64
    · exact State.holds_of_check (h8 i hlt)
    · intro r hr
      rw [State.ctx_ge s i (h1 ▸ Nat.not_lt.mp hlt)] at hr
      cases hr
  · exact fun n => h10.resolve_left n
  · exact fun k hk => State.canTake_of_check (h11 k hk)
  · exact (context i).1.2.resolve_left fun n => n.elim (fun n => n hr) fun n => by simp [hn] at n
  · have := (context i).2.resolve_left fun n => by simp [n] at hi
    exact ⟨this.1.1, this.1.2, this.2⟩
  · exact (context i).1.1.resolve_left fun n => by simp [n] at hi

end Sys2Proof.Machine
end

