-- ==== Sys2Proof/Laws/Tasks.lean ====
section
/-! SUPPORT. What the tasks of the tap pool and of the searches do to the contexts: they move tap blocks, search records
and open offers, end searches, and leave the rest of every context as it was; a context that neither searches nor
tracks keeps everything. -/

namespace Sys2Proof.Machine

section
variable {c d : Context}
theorem Context.steady_kind (h : d.steady = c.steady) : d.kind = c.kind := congrArg (·.kind) h
theorem Context.steady_slot (h : d.steady = c.steady) : d.slot = c.slot := congrArg (·.slot) h
theorem Context.steady_server (h : d.steady = c.steady) : d.server = c.server := congrArg (·.server) h
theorem Context.steady_profile (h : d.steady = c.steady) : d.profile = c.profile := congrArg (·.profile) h
theorem Context.steady_frozen (h : d.steady = c.steady) : d.frozen = c.frozen := congrArg (·.frozen) h
theorem Context.steady_transparent (h : d.steady = c.steady) : d.transparent = c.transparent := congrArg (·.transparent) h
theorem Context.steady_toneHold (h : d.steady = c.steady) : d.toneHold = c.toneHold := congrArg (·.toneHold) h
theorem Context.steady_pendingReturn (h : d.steady = c.steady) : d.pendingReturn = c.pendingReturn :=
  congrArg (·.pendingReturn) h
theorem Context.steady_reservation (h : d.steady = c.steady) : d.reservation = c.reservation := congrArg (·.reservation) h
theorem Context.steady_reclaim (h : d.steady = c.steady) : d.reclaim = c.reclaim := congrArg (·.reclaim) h
theorem Context.steady_stopAt (h : d.steady = c.steady) : d.stopAt = c.stopAt := congrArg (·.stopAt) h
theorem Context.steady_grantee (h : d.steady = c.steady) : d.grantee = c.grantee := congrArg (·.grantee) h
theorem Context.steady_startAt (h : d.steady = c.steady) : d.startAt = c.startAt := congrArg (·.startAt) h
theorem Context.steady_serving (h : d.steady = c.steady) :
    (d.serving.map fun sv => { sv with pathRun := 0 }) = c.serving.map fun sv => { sv with pathRun := 0 } :=
  congrArg (·.serving) h

/-- Serving parts that keep a reading the path-change run count has no part in. -/
theorem Context.steady_read {α : Type} (p : Serving → α) (hp : ∀ sv n, p { sv with pathRun := n } = p sv)
    (h : d.steady = c.steady) : d.serving.map p = c.serving.map p := by
  have h' := congrArg (Option.map p) (Context.steady_serving h)
  simpa [Option.map_map, Function.comp_def, hp] using h'

theorem Context.steady_isSome (h : d.steady = c.steady) : d.serving.isSome = c.serving.isSome := by
  simpa using congrArg Option.isSome (Context.steady_serving h)

theorem Context.steady_role (h : d.steady = c.steady) :
    d.role = c.role ∨ (c.role = .homeOffering ∧ d.role = .homeServing) ∨ (c.role = .homeServing ∧ d.role = .homeOffering) := by
  have h' := congrArg (·.role) h
  simp only [Context.steady] at h'
  split at h' <;> split at h' <;> simp_all

/-- The tasks never change whether a role serves. -/
theorem Context.steady_serves (h : d.steady = c.steady) : d.role.serves = c.role.serves := by
  obtain h | ⟨h, h'⟩ | ⟨h, h'⟩ := Context.steady_role h
  · rw [h]
  · rw [h, h']; rfl
  · rw [h, h']; rfl
end

@[simp] theorem Context.steady_map_search (c : Context) (f : SearchRecord → SearchRecord) :
    Context.steady { c with search := c.search.map f } = c.steady := rfl
@[simp] theorem Context.steady_set_search (c : Context) (r : Option SearchRecord) :
    Context.steady { c with search := r } = c.steady := rfl
@[simp] theorem Context.steady_set_callState (c : Context) (st : CallState) :
    Context.steady { c with callState := st } = c.steady := rfl

@[simp] theorem State.steady_modSearch (s : State) (i k : Nat) (f : SearchRecord → SearchRecord) :
    ((s.modSearch i f).ctx k).steady = (s.ctx k).steady := State.ctx_modCtx_proj Context.steady _ _ _ _ fun _ => rfl

theorem State.ctx_foldl {α : Type} (f : State → α → State) (hf : ∀ s a k, (f s a).ctx k = s.ctx k) (l : List α)
    (s : State) (k : Nat) : (l.foldl f s).ctx k = s.ctx k := by
  induction l generalizing s with
  | nil => rfl
  | cons a l ih => simp [ih, hf]

@[simp] theorem State.noticeRetired_ctx (s : State) (b n k : Nat) : (s.noticeRetired b n).ctx k = s.ctx k := by
  simp [State.noticeRetired]

@[simp] theorem State.joinShortfall_ctx (s : State) (i k : Nat) : (s.joinShortfall i).ctx k = s.ctx k := by
  unfold State.joinShortfall; split <;> simp [State.ctx]

@[simp] theorem State.steady_cancelOffer (s : State) (i k : Nat) : ((s.cancelOffer i).ctx k).steady = (s.ctx k).steady := by
  unfold State.cancelOffer
  dsimp only
  split
  · next h =>
    rw [State.ctx_modCtx]
    split
    · next hk =>
      obtain ⟨rfl, -⟩ := hk
      simp [Context.steady, h.1]
    · simp
  · rfl

@[simp] theorem State.steady_leaveShortfall (s : State) (i k : Nat) :
    ((s.leaveShortfall i).ctx k).steady = (s.ctx k).steady := by
  unfold State.leaveShortfall
  split
  · rw [State.steady_cancelOffer]; rfl
  · rfl

@[simp] theorem State.ctx_cancelOffer_ne (s : State) (i k : Nat) (h : i ≠ k) : (s.cancelOffer i).ctx k = s.ctx k := by
  unfold State.cancelOffer
  dsimp only
  split
  · rw [State.ctx_modCtx_ne _ _ _ _ h]; simp
  · rfl

@[simp] theorem State.ctx_leaveShortfall_ne (s : State) (i k : Nat) (h : i ≠ k) :
    (s.leaveShortfall i).ctx k = s.ctx k := by
  unfold State.leaveShortfall
  split
  · rw [State.ctx_cancelOffer_ne _ _ _ h]; rfl
  · rfl

@[simp] theorem State.steady_leaveIfMet (s : State) (i k : Nat) : ((s.leaveIfMet i).ctx k).steady = (s.ctx k).steady := by
  unfold State.leaveIfMet; split <;> simp

@[simp] theorem State.ctx_leaveIfMet_ne (s : State) (i k : Nat) (h : i ≠ k) : (s.leaveIfMet i).ctx k = s.ctx k := by
  unfold State.leaveIfMet; split <;> simp [h]

@[simp] theorem State.steady_toTrack (s : State) (i k : Nat) : ((s.toTrack i).ctx k).steady = (s.ctx k).steady :=
  State.ctx_modCtx_proj Context.steady _ _ _ _ fun _ => rfl

@[simp] theorem State.ctx_toTrack_ne (s : State) (i k : Nat) (h : i ≠ k) : (s.toTrack i).ctx k = s.ctx k :=
  State.ctx_modCtx_ne _ _ _ _ h

@[simp] theorem State.steady_fillMap (s : State) (i k : Nat) (map : List Segment) (bs : List Nat) :
    ((s.fillMap i map bs).1.ctx k).steady = (s.ctx k).steady := by
  simp only [State.fillMap, State.steady_modSearch]
  rw [State.ctx_foldl _ (by simp)]

theorem State.ctx_fillMap_ne (s : State) (i k : Nat) (map : List Segment) (bs : List Nat) (h : i ≠ k) :
    (s.fillMap i map bs).1.ctx k = s.ctx k := by
  simp only [State.fillMap]
  rw [State.ctx_modSearch_ne _ _ _ _ h, State.ctx_foldl _ (by simp)]

@[simp] theorem steady_requestForPlan (i k : Nat) (s : State) :
    ((requestForPlan i s).ctx k).steady = (s.ctx k).steady := by
  unfold requestForPlan
  dsimp only
  split
  · rfl
  · split
    · simp
    · split <;> simp

theorem ctx_requestForPlan_ne (i k : Nat) (s : State) (h : i ≠ k) : (requestForPlan i s).ctx k = s.ctx k := by
  unfold requestForPlan
  dsimp only
  split
  · rfl
  · split
    · simp
    · split <;> simp [State.ctx_fillMap_ne, h]

/-! ### One task -/

/-- The context a task is about, when it names one. -/
def Task.subject : Task → Option Nat
  | .release _ | .promote => none
  | .passStart i | .checkMet i | .searchEnd i | .finishSearch i => some i

theorem subject_map_release (bs : List Nat) (k : Nat) : ∀ u ∈ bs.map Task.release, u.subject ≠ some k := by
  intro u hu
  obtain ⟨b, -, rfl⟩ := List.mem_map.mp hu
  simp [Task.subject]

theorem subject_append {us vs : List Task} {k : Nat} (hu : ∀ u ∈ us, u.subject ≠ some k)
    (hv : ∀ u ∈ vs, u.subject ≠ some k) : ∀ u ∈ us ++ vs, u.subject ≠ some k := by
  intro u h
  rcases List.mem_append.mp h with h | h
  · exact hu u h
  · exact hv u h

@[simp] theorem steady_placeBlock (b k : Nat) (s : State) : ((placeBlock b s).1.ctx k).steady = (s.ctx k).steady := by
  unfold placeBlock
  split
  · simp
  · split
    · simp
    · split <;> simp
    · simp

@[simp] theorem steady_promoteTask (k : Nat) (s : State) : ((promoteTask s).1.ctx k).steady = (s.ctx k).steady := by
  unfold promoteTask
  split
  · rfl
  · simp only [steady_placeBlock]; split <;> simp

theorem steady_passStartTask (i k : Nat) (s : State) : ((passStartTask i s).1.ctx k).steady = (s.ctx k).steady := by
  unfold passStartTask
  split
  · dsimp only
    split
    · rfl
    · split <;> simp only [State.steady_leaveShortfall, State.steady_modSearch] <;> rw [State.ctx_foldl _ (by simp)]
  · rfl

theorem steady_searchEndTask (i k : Nat) (s : State) : ((searchEndTask i s).1.ctx k).steady = (s.ctx k).steady := by
  unfold searchEndTask
  split
  · rfl
  · dsimp only
    split
    · simp
    · split <;> simp

theorem steady_finishSearchTask (i k : Nat) (s : State) : ((finishSearchTask i s).1.ctx k).steady = (s.ctx k).steady := by
  simp only [finishSearchTask, State.notify_ctx]
  have h1 : ∀ (u : State), ((u.modServing i fun sv => { sv with pathRun := 0 }).ctx k).steady = (u.ctx k).steady :=
    fun u => State.ctx_modCtx_proj Context.steady _ _ _ _ fun c => by
      simp [Context.steady, Option.map_map, Function.comp_def]
  rw [h1]
  simp

/-- A task keeps what is steady of every context. -/
theorem steady_doTask (t : Task) (s : State) (k : Nat) : ((doTask t s).1.ctx k).steady = (s.ctx k).steady := by
  cases t with
  | release b => simp only [doTask, releaseTask]; split <;> simp [State.failBlock]
  | promote => exact steady_promoteTask k s
  | passStart i => exact steady_passStartTask i k s
  | checkMet i => simp [doTask]
  | searchEnd i => exact steady_searchEndTask i k s
  | finishSearch i => exact steady_finishSearchTask i k s

/-- Tasks keep what is steady of every context. -/
@[simp] theorem steady_perform (ts : List Task) (s : State) (k : Nat) :
    ((perform ts s).ctx k).steady = (s.ctx k).steady := by
  unfold perform
  generalize 4096 = fuel
  induction fuel generalizing ts s with
  | zero => rfl
  | succ n ih =>
    cases ts with
    | nil => rfl
    | cons t ts => rw [runTasks, ih, steady_doTask]

/-! ### Contexts that neither search nor track -/

/-- A block placed leaves such a context, and sets off no task about it. -/
theorem placeBlock_passive (b : Nat) (s : State) (k : Nat) (hk : (s.ctx k).callState.processes = false) :
    (placeBlock b s).1.ctx k = s.ctx k ∧ ∀ u ∈ (placeBlock b s).2, u.subject ≠ some k := by
  unfold placeBlock
  split
  · simp
  · next h _ hs =>
    split
    · next hc _ =>
      have hne : h ≠ k := by rintro rfl; rw [hc] at hk; cases hk
      refine ⟨by rw [State.ctx_modSearch_ne _ _ _ _ hne]; simp, ?_⟩
      dsimp only
      split <;> simp [Task.subject, hne]
    · next hc _ =>
      have hne : h ≠ k := by rintro rfl; rw [hc] at hk; cases hk
      split
      · refine ⟨?_, by simp⟩
        rw [State.ctx_leaveIfMet_ne _ _ _ hne, State.ctx_modSearch_ne _ _ _ _ hne]
        simp
      · simp
    · simp

/-- A promotion leaves such a context, and sets off no task about it. -/
theorem promoteTask_passive (s : State) (k : Nat) (hk : (s.ctx k).callState.processes = false) :
    (promoteTask s).1.ctx k = s.ctx k ∧ ∀ u ∈ (promoteTask s).2, u.subject ≠ some k := by
  unfold promoteTask
  split
  · simp
  · next b rest _ =>
    have hc : ∀ u : State, u.ctx k = s.ctx k → (placeBlock b u).1.ctx k = s.ctx k
        ∧ ∀ t ∈ (placeBlock b u).2, t.subject ≠ some k := fun u hu => by
      have h := placeBlock_passive b u k (by rw [hu]; exact hk)
      exact ⟨h.1.trans hu, h.2⟩
    split
    · exact hc _ (by simp)
    · exact hc _ rfl

/-- A task that is not about such a context leaves it, and sets off no task about it. -/
theorem doTask_passive (t : Task) (s : State) (k : Nat) (hk : (s.ctx k).callState.processes = false)
    (ht : t.subject ≠ some k) :
    (doTask t s).1.ctx k = s.ctx k ∧ ∀ u ∈ (doTask t s).2, u.subject ≠ some k := by
  cases t with
  | release b =>
    simp only [doTask, releaseTask]
    split
    · have h := promoteTask_passive ((s.failBlock b (s.tapBlock b).corrected).noticeRetired b 2) k
        (by simpa [State.failBlock] using hk)
      simpa [State.failBlock] using h
    · exact placeBlock_passive b s k hk
  | promote => exact promoteTask_passive s k hk
  | passStart i =>
    have hne : i ≠ k := by simpa [Task.subject] using ht
    simp only [doTask, passStartTask]
    split
    · split
      · simp [Task.subject, hne]
      · split
        · refine ⟨?_, by simp⟩
          rw [State.ctx_modSearch_ne _ _ _ _ hne, State.ctx_foldl _ (by simp)]
        · refine ⟨?_, subject_map_release _ _⟩
          rw [State.ctx_leaveShortfall_ne _ _ _ hne, State.ctx_modSearch_ne _ _ _ _ hne, State.ctx_foldl _ (by simp)]
    · simp
  | checkMet i =>
    have hne : i ≠ k := by simpa [Task.subject] using ht
    simp [doTask, hne]
  | searchEnd i =>
    have hne : i ≠ k := by simpa [Task.subject] using ht
    simp only [doTask, searchEndTask]
    split
    · simp
    · split
      · refine ⟨?_, subject_append (subject_map_release _ _) (by simp [Task.subject, hne])⟩
        rw [State.ctx_toTrack_ne _ _ _ hne, State.ctx_modSearch_ne _ _ _ _ hne, State.ctx_leaveShortfall_ne _ _ _ hne,
          State.ctx_modSearch_ne _ _ _ _ hne]
      · refine ⟨?_, subject_append (subject_map_release _ _) (by simp [Task.subject, hne])⟩
        dsimp only
        rw [State.ctx_toTrack_ne _ _ _ hne]
        split
        · rw [State.ctx_leaveShortfall_ne _ _ _ hne, State.ctx_fillMap_ne _ _ _ _ _ hne,
            State.ctx_modSearch_ne _ _ _ _ hne]
        · rw [State.ctx_fillMap_ne _ _ _ _ _ hne, State.ctx_modSearch_ne _ _ _ _ hne]
  | finishSearch i =>
    have hne : i ≠ k := by simpa [Task.subject] using ht
    simp only [doTask, finishSearchTask, State.notify_ctx]
    refine ⟨?_, by simp⟩
    rw [State.ctx_modServing_ne _ _ _ _ hne, State.ctx_modSearch_ne _ _ _ _ hne, ctx_requestForPlan_ne _ _ _ hne]

/-- Tasks that are not about a context that neither searches nor tracks leave it untouched. -/
theorem perform_passive (ts : List Task) (s : State) (k : Nat) (hk : (s.ctx k).callState.processes = false)
    (ht : ∀ t ∈ ts, t.subject ≠ some k) : (perform ts s).ctx k = s.ctx k := by
  unfold perform
  generalize 4096 = fuel
  induction fuel generalizing ts s with
  | zero => rfl
  | succ n ih =>
    cases ts with
    | nil => rfl
    | cons t ts =>
      have h := doTask_passive t s k hk (ht t (by simp))
      rw [runTasks, ih _ _ (by rw [h.1]; exact hk) ?_, h.1]
      intro u hu
      exact subject_append h.2 (fun u hu => ht u (by simp [hu])) u hu

/-- Blocks that pass the release path leave a context that neither searches nor tracks untouched (R103). -/
theorem perform_release_passive (bs : List Nat) (s : State) (k : Nat)
    (hk : (s.ctx k).callState.processes = false) : (perform (bs.map .release) s).ctx k = s.ctx k :=
  perform_passive _ _ _ hk (subject_map_release _ _)

/-! ### Contexts in a pass -/

/-- A context in SEARCH whose pass runs. -/
def Context.inPassOf (r : SearchRecord) (c : Context) : Prop :=
  c.callState = .search ∧ ∃ sp, c.search = some { r with spare := sp, status := .inPass }

theorem Context.inPassOf_cancel (r : SearchRecord) (s : State) (i k : Nat) (h : (s.ctx k).inPassOf r) :
    ((s.cancelOffer i).ctx k).inPassOf r := by
  unfold State.cancelOffer
  dsimp only
  split
  · rw [State.ctx_modCtx]
    split
    · next hk =>
      obtain ⟨rfl, -⟩ := hk
      simpa [Context.inPassOf] using h
    · simpa using h
  · exact h

theorem Context.inPassOf_leave (r : SearchRecord) (s : State) (i k : Nat) (h : (s.ctx k).inPassOf r) :
    ((s.leaveShortfall i).ctx k).inPassOf r := by
  unfold State.leaveShortfall
  split
  · exact Context.inPassOf_cancel r _ i k h
  · exact h

/-- A block placed leaves a running pass alone but for arriving in its spare hand (R91). -/
theorem placeBlock_inPass (r : SearchRecord) (b : Nat) (s : State) (k : Nat) (hk : (s.ctx k).inPassOf r) :
    ((placeBlock b s).1.ctx k).inPassOf r ∧ ∀ u ∈ (placeBlock b s).2, u.subject = some k → u = .checkMet k := by
  have keep : ∀ {u : State}, u.ctx k = s.ctx k → (u.ctx k).inPassOf r := fun h => by rw [h]; exact hk
  unfold placeBlock
  split
  · exact ⟨keep (by simp), by simp⟩
  · next h _ hs =>
    by_cases hne : h = k
    · subst hne
      obtain ⟨hc, sp, hsp⟩ := hk
      rw [hc, hsp]
      dsimp only
      refine ⟨?_, by simp [Task.subject]⟩
      by_cases hl : h < s.table.contexts.length
      · rw [State.ctx_modSearch_self _ _ _ (by simpa using hl)]
        exact ⟨by simpa using hc, insertNum b sp, by simp [hsp]⟩
      · rw [State.ctx_ge _ _ (Nat.not_lt.mp hl)] at hc; cases hc
    · split
      · refine ⟨keep (by rw [State.ctx_modSearch_ne _ _ _ _ hne]; simp), ?_⟩
        dsimp only
        split <;> simp [Task.subject, hne]
      · split
        · refine ⟨keep ?_, by simp⟩
          rw [State.ctx_leaveIfMet_ne _ _ _ hne, State.ctx_modSearch_ne _ _ _ _ hne]
          simp
        · exact ⟨keep (by simp), by simp⟩
      · exact ⟨keep (by simp), by simp⟩

/-- A promotion leaves a running pass alone but for arriving in its spare hand (R91, R111). -/
theorem promoteTask_inPass (r : SearchRecord) (s : State) (k : Nat) (hk : (s.ctx k).inPassOf r) :
    ((promoteTask s).1.ctx k).inPassOf r ∧ ∀ u ∈ (promoteTask s).2, u.subject = some k → u = .checkMet k := by
  unfold promoteTask
  split
  · exact ⟨hk, by simp⟩
  · refine placeBlock_inPass r _ _ k ?_
    split
    · simpa using hk
    · exact hk

/-- While a pass runs, tasks that only check whether the context's want is met leave its search alone but for blocks
that arrive in its spare hand (R91). -/
theorem doTask_inPass (r : SearchRecord) (t : Task) (s : State) (k : Nat) (hk : (s.ctx k).inPassOf r)
    (ht : t.subject = some k → t = .checkMet k) :
    ((doTask t s).1.ctx k).inPassOf r ∧ ∀ u ∈ (doTask t s).2, u.subject = some k → u = .checkMet k := by
  have keep : ∀ {u : State}, u.ctx k = s.ctx k → (u.ctx k).inPassOf r := fun h => by rw [h]; exact hk
  have rel : ∀ bs : List Nat, ∀ u ∈ bs.map Task.release, u.subject = some k → u = .checkMet k :=
    fun bs u hu h => absurd h (subject_map_release bs k u hu)
  cases t with
  | release b =>
    simp only [doTask, releaseTask]
    split
    · exact promoteTask_inPass r _ k (by simpa [State.failBlock] using hk)
    · exact placeBlock_inPass r b s k hk
  | promote => exact promoteTask_inPass r s k hk
  | passStart i =>
    have hne : i ≠ k := by rintro rfl; simpa [Task.subject] using ht rfl
    simp only [doTask, passStartTask]
    split
    · split
      · exact ⟨keep rfl, by simp [Task.subject, hne]⟩
      · split
        · refine ⟨keep ?_, by simp⟩
          rw [State.ctx_modSearch_ne _ _ _ _ hne, State.ctx_foldl _ (by simp)]
        · refine ⟨keep ?_, rel _⟩
          rw [State.ctx_leaveShortfall_ne _ _ _ hne, State.ctx_modSearch_ne _ _ _ _ hne, State.ctx_foldl _ (by simp)]
    · exact ⟨keep rfl, by simp⟩
  | checkMet i =>
    simp only [doTask, State.leaveIfMet]
    split
    · exact ⟨Context.inPassOf_leave r s i k hk, by simp⟩
    · exact ⟨hk, by simp⟩
  | searchEnd i =>
    have hne : i ≠ k := by rintro rfl; simpa [Task.subject] using ht rfl
    have fin : ∀ u ∈ [Task.finishSearch i], u.subject = some k → u = .checkMet k := by simp [Task.subject, hne]
    have app : ∀ bs : List Nat, ∀ u ∈ bs.map Task.release ++ [Task.finishSearch i], u.subject = some k → u = .checkMet k := by
      intro bs u hu
      rcases List.mem_append.mp hu with hu | hu
      · exact rel bs u hu
      · exact fin u hu
    simp only [doTask, searchEndTask]
    split
    · exact ⟨keep rfl, by simp⟩
    · split
      · refine ⟨keep ?_, app _⟩
        rw [State.ctx_toTrack_ne _ _ _ hne, State.ctx_modSearch_ne _ _ _ _ hne, State.ctx_leaveShortfall_ne _ _ _ hne,
          State.ctx_modSearch_ne _ _ _ _ hne]
      · refine ⟨keep ?_, app _⟩
        dsimp only
        rw [State.ctx_toTrack_ne _ _ _ hne]
        split
        · rw [State.ctx_leaveShortfall_ne _ _ _ hne, State.ctx_fillMap_ne _ _ _ _ _ hne,
            State.ctx_modSearch_ne _ _ _ _ hne]
        · rw [State.ctx_fillMap_ne _ _ _ _ _ hne, State.ctx_modSearch_ne _ _ _ _ hne]
  | finishSearch i =>
    have hne : i ≠ k := by rintro rfl; simpa [Task.subject] using ht rfl
    simp only [doTask, finishSearchTask, State.notify_ctx]
    refine ⟨keep ?_, by simp⟩
    rw [State.ctx_modServing_ne _ _ _ _ hne, State.ctx_modSearch_ne _ _ _ _ hne, ctx_requestForPlan_ne _ _ _ hne]

/-- Tasks leave a running pass alone but for blocks that arrive in the spare hand. -/
theorem runTasks_inPass (r : SearchRecord) (fuel : Nat) (ts : List Task) (s : State) (k : Nat)
    (hk : (s.ctx k).inPassOf r) (ht : ∀ t ∈ ts, t.subject = some k → t = .checkMet k) :
    ((runTasks fuel ts s).ctx k).inPassOf r := by
  induction fuel generalizing ts s with
  | zero => exact hk
  | succ n ih =>
    cases ts with
    | nil => exact hk
    | cons t ts =>
      have h := doTask_inPass r t s k hk (ht t (by simp))
      rw [runTasks]
      refine ih _ _ h.1 fun u hu => ?_
      rcases List.mem_append.mp hu with hu | hu
      · exact h.2 u hu
      · exact ht u (by simp [hu])

/-- A pass start that finds an unexplored segment begins a pass, and its tasks leave that pass running (R82). -/
theorem perform_passStart (s : State) (i : Nat) (r : SearchRecord) (hi : i < s.table.contexts.length)
    (hc : (s.ctx i).callState = .search) (hr : (s.ctx i).search = some r) (hu : r.unexplored (s.reachOf i) ≠ []) :
    ∃ r', ((perform [.passStart i] s).ctx i).inPassOf r' ∧ r'.pass = countUp 255 r.pass ∧ r'.dwell = 0
      ∧ r'.retained = r.retained := by
  have start : perform [.passStart i] s = runTasks 4095 (passStartTask i s).2 (passStartTask i s).1 := by
    simp [perform, runTasks, doTask]
  rw [start]
  unfold passStartTask
  rw [hc, hr]
  simp only [hu, if_false]
  have len : ∀ l : List (Nat × Nat), i < (l.foldl (fun s jb => s.bindBlock i jb.1 jb.2) s).table.contexts.length :=
    fun l => by rw [State.outside_contexts (State.outside_foldl _ (by simp) _ _)]; exact hi
  let bound : SearchRecord → SearchRecord := fun r =>
    let pairs := (r.unexplored (s.reachOf i)).zip r.spare
    { r with map := pairs.foldl (fun m jb => insertSegment ⟨jb.1, .block jb.2⟩ m) r.map
             explored := pairs.foldl (fun e jb => insertNum jb.1 e) r.explored
             spare := [], pass := countUp 255 r.pass, dwell := 0, status := .inPass }
  split
  · refine ⟨_, runTasks_inPass (bound r) _ _ _ _ ?_ (by simp), rfl, rfl, rfl⟩
    rw [State.ctx_modSearch_self _ _ _ (len _), State.ctx_foldl _ (by simp)]
    exact ⟨hc, [], by rw [hr]; rfl⟩
  · refine ⟨{ bound r with want := (bound r).bound.length }, runTasks_inPass _ _ _ _ _
      (Context.inPassOf_leave _ _ _ _ ?_) (fun u hu h => absurd h (subject_map_release _ i u hu)), rfl, rfl, rfl⟩
    rw [State.ctx_modSearch_self _ _ _ (len _), State.ctx_foldl _ (by simp)]
    exact ⟨hc, [], by rw [hr]; rfl⟩

end Sys2Proof.Machine
end

