-- ==== Sys2Proof/Laws/Reads.lean ====
section
/-! SUPPORT. What the checked reads of a sample do (R106, R107, R110): sound blocks are read and left alone, one wrong
bit is corrected, two fail the block. -/

namespace Sys2Proof.Machine

/-! ### One entry -/

@[simp] theorem checkedRead_zero (t : TapEntry) : checkedRead t 0 = .exact t := rfl
@[simp] theorem checkedRead_one (t : TapEntry) : checkedRead t 1 = .corrected t := rfl
@[simp] theorem checkedRead_two (t : TapEntry) : checkedRead t 2 = .uncorrectable := rfl

/-! ### One block -/

@[simp] theorem TapBlock.fails_clean {t : TapBlock} (h : t.wrong = []) : t.fails = false := by
  simp [TapBlock.fails, TapBlock.findings, h]

@[simp] theorem TapBlock.corrections_clean {t : TapBlock} (h : t.wrong = []) : t.corrections = 0 := by
  simp [TapBlock.corrections, TapBlock.findings, h]

/-- Two wrong bits in one entry fail the block, whatever the others hold (R110). -/
theorem TapBlock.fails_of_two {t : TapBlock} {k : Nat} (h : (k, 2) ∈ t.wrong) : t.fails = true :=
  List.any_eq_true.mpr ⟨(k, .uncorrectable), List.mem_map.mpr ⟨(k, 2), h, rfl⟩, rfl⟩

/-- One wrong bit in each of some entries: the block serves on, and each counts once (R107). -/
theorem TapBlock.corrections_of_ones {t : TapBlock} (h : ∀ w ∈ t.wrong, w.2 = 1) :
    t.fails = false ∧ t.corrections = t.wrong.length := by
  unfold TapBlock.fails TapBlock.corrections TapBlock.findings
  generalize t.wrong = l at h
  induction l with
  | nil => exact ⟨rfl, rfl⟩
  | cons w l ih =>
    have hw := h w (by simp)
    have := ih fun v hv => h v (by simp [hv])
    refine ⟨?_, ?_⟩
    · simpa [hw] using this.1
    · simpa [hw, Finding.isCorrected] using this.2

/-- A corrected entry is rewritten with the value it held (R107). -/
theorem TapBlock.rewritten_of_one {t : TapBlock} {k : Nat} (h : t.wrong = [(k, 1)]) :
    t.rewritten = { t with wrong := [] } := by
  have : t.entries.set k (t.entries.getD k ⟨0, 0, 0⟩) = t.entries := by
    by_cases hk : k < t.entries.length
    · simp [List.getD_eq_getElem?_getD, hk]
    · exact List.set_eq_of_length_le (Nat.not_lt.mp hk)
  simpa [TapBlock.rewritten, TapBlock.findings, h, Finding.entry?] using this

/-! ### The reads of a sample -/

@[simp] theorem strike_nil (s : State) : strike [] s = s := rfl

/-- A sound block is read and left alone (R106). -/
theorem readBlock_clean (i : Nat) (s : State) (jb : Nat × Nat) (h : (s.tapBlock jb.2).wrong = []) :
    readBlock i s jb = s := by
  simp [readBlock, h]

/-- A sample that finds every bound block sound changes nothing by its reads (R106). -/
theorem readBlocks_clean (i : Nat) (s : State) (bound : List (Nat × Nat))
    (h : ∀ jb ∈ s.boundOf i, (s.tapBlock jb.2).wrong = []) : readBlocks i bound s = s := by
  unfold readBlocks
  generalize sortNums (bound.map (·.2)) = bs
  induction bs with
  | nil => rfl
  | cons b bs ih =>
    rw [List.foldl_cons]
    split
    · next jb hf => rw [readBlock_clean i s jb (h jb (List.mem_of_find?_eq_some hf))]; exact ih
    · exact ih

theorem failedSegments_clean (s : State) (bound : List (Nat × Nat)) (h : ∀ jb ∈ bound, (s.tapBlock jb.2).wrong = []) :
    failedSegments s bound = [] := by
  simp only [failedSegments, List.map_eq_nil_iff, List.filter_eq_nil_iff]
  intro jb hjb
  simp [TapBlock.fails_clean (h jb hjb)]

end Sys2Proof.Machine
end

