-- ==== Sys2Proof/Laws/SlotLaws.lean ====
section
/-! SUPPORT. The slots of the contexts and the slot directory as a check over the 64 contexts and the 128 slots. -/

namespace Sys2Proof.Machine

/-- One context's kind, role and slot, and its directory entry, checked (R17, R18, R37). -/
def State.slotCheck (s : State) (i : Nat) : Bool :=
  (s.ctx i).kind.admits (s.ctx i).role
    && (if i < homeCount s.profile.k s.profile.n then
        (s.ctx i).kind == .home && (s.ctx i).slot == some (s.profile.k + i * s.profile.n)
      else (s.ctx i).kind == .guest && (s.ctx i).slot.isNone == ((s.ctx i).role == .guestFree)
        && ((s.ctx i).role != .guestFree || decide (s.ctx i = freeGuest)))
    && (s.ctx i).slot.elim true fun slot => s.lookup slot == some i

/-- The contexts and the directory, checked. -/
def State.slotsCheck (s : State) : Bool :=
  decide (2 ≤ s.profile.n) && decide (s.table.contexts.length = 64) && decide (s.table.directory.length = 128)
    && (List.range 64).all s.slotCheck
    && (List.range 128).all fun slot => (s.lookup slot).elim true fun i => (s.ctx i).slot == some slot

/-- A station whose contexts and directory pass the check holds its slots as the manual says. -/
theorem State.slotsSound_of_check {s : State} (h : s.slotsCheck = true) : s.slotsSound := by
  simp only [State.slotsCheck, State.slotCheck, Bool.and_eq_true, decide_eq_true_eq, List.all_eq_true,
    List.mem_range] at h
  obtain ⟨⟨⟨⟨h1, h2⟩, h3⟩, h4⟩, h5⟩ := h
  refine ⟨h1, h2, h3, fun i hi => ⟨(h4 i hi).1.1, ?_⟩, fun slot i => ⟨fun hl => ?_, fun hc => ?_⟩⟩
  · have := (h4 i hi).1.2
    split at this
    · rename_i hlt
      rw [if_pos hlt]
      simpa using this
    · rename_i hlt
      rw [if_neg hlt]
      rw [Bool.and_eq_true, Bool.and_eq_true, beq_iff_eq, beq_iff_eq, Bool.eq_iff_iff, Option.isNone_iff_eq_none,
        beq_iff_eq, Bool.or_eq_true, bne_iff_ne, decide_eq_true_eq] at this
      exact ⟨this.1.1, this.1.2, fun hr => this.2.resolve_left fun n => n hr⟩
  · have hlt : slot < 128 := Nat.lt_of_not_le fun n => by
      simp [State.lookup, List.getD_eq_getElem?_getD, List.getElem?_eq_none (h3 ▸ n)] at hl
    simpa [hl] using h5 slot hlt
  · have hlt : i < 64 := Nat.lt_of_not_le fun n => by
      rw [State.ctx_ge s i (h2 ▸ n)] at hc
      cases hc
    simpa [hc] using (h4 i hlt).2

end Sys2Proof.Machine
end

