-- ==== Sys2Proof/Laws/Tables.lean ====
section
/-! SUPPORT. The tables of Config hold the roundings the manual asks for, shown on integer powers. -/

namespace Sys2Proof.Laws

open Sys2Proof Sys2Proof.Machine

/-- Entry i of the gain table is the integer nearest to 4096 · 10^((i − 36)/40): its distance is below a half, since
(g ± ½)^40 · 10^36 lie on either side of 4096^40 · 10^i (R115). -/
theorem gainTable_nearest : ∀ i < 61,
    (2 * Config.gainTable.getD i 0 - 1) ^ 40 * 10 ^ 36 < 8192 ^ 40 * 10 ^ i
      ∧ 8192 ^ 40 * 10 ^ i < (2 * Config.gainTable.getD i 0 + 1) ^ 40 * 10 ^ 36 := by decide +kernel

/-- The linear gain of an index is its table entry. -/
theorem linearGain_eq (i : Nat) (h : i < 61) : linearGain ((i : Int) - 36) = Config.gainTable.getD i 4096 := by
  unfold linearGain
  congr 1
  omega

/-- MS_T of entry i is the integer nearest to 4,070,000 · 10^(−(i + 6)/10) (R119). -/
theorem targetTable_nearest : ∀ i < 19,
    (2 * (Config.targetTable.getD i (0, 0, 0)).1 - 1) ^ 10 * 10 ^ (i + 6) < 8140000 ^ 10
      ∧ 8140000 ^ 10 < (2 * (Config.targetTable.getD i (0, 0, 0)).1 + 1) ^ 10 * 10 ^ (i + 6) := by decide +kernel

/-- MS_lo and MS_hi of entry i are the integers nearest to MS_T · 10^(∓0.15) (R119). -/
theorem targetTable_band : ∀ i < 19,
    (let r := Config.targetTable.getD i (0, 0, 0)
     (2 * r.2.1 - 1) ^ 20 * 10 ^ 3 < (2 * r.1) ^ 20 ∧ (2 * r.1) ^ 20 < (2 * r.2.1 + 1) ^ 20 * 10 ^ 3
       ∧ (2 * r.2.2 - 1) ^ 20 < (2 * r.1) ^ 20 * 10 ^ 3 ∧ (2 * r.1) ^ 20 * 10 ^ 3 < (2 * r.2.2 + 1) ^ 20) := by
  decide +kernel

/-- The tone reference of R129: 20 samples of 2100 Hz are 5¼ turns, so c_n = s_(n+20) and s_n = −c_(n+20), and every
(c_n, s_n) lies on the circle of radius 16384 but for rounding. -/
theorem tone_reference_quarter :
    (∀ n < 12, Config.cosTable.getD n 0 = Config.sinTable.getD (n + 20) 0
      ∧ Config.sinTable.getD n 0 = -Config.cosTable.getD (n + 20) 0)
    ∧ ∀ n < 32, (Config.cosTable.getD n 0 ^ 2 + Config.sinTable.getD n 0 ^ 2 - 268435456).natAbs ≤ 32768 := by
  decide +kernel

end Sys2Proof.Laws
end

