-- ==== Sys2Proof/Laws/Values.lean ====
section
/-! SUPPORT. What the value operations give: ranges, and the entry, bit or number each answer stands for. -/

namespace Sys2Proof.Laws

open Sys2Proof Sys2Proof.Machine

/-! ### Samples -/

/-- An expansion has a magnitude of 1 to 4032 (R8). -/
theorem expand_range : ∀ code : Byte, 1 ≤ (expand code).natAbs ∧ (expand code).natAbs ≤ 4032 := by decide +kernel

theorem saturate_range (m : Nat) (v : Int) : (saturate m v).natAbs ≤ m := by
  unfold saturate
  split
  · omega
  · split <;> omega

theorem foldl_max_lt (xs : List Int) (m n : Nat) :
    xs.foldl (fun m x => max m x.natAbs) m < n ↔ m < n ∧ ∀ x ∈ xs, x.natAbs < n := by
  induction xs generalizing m with
  | nil => simp
  | cons x xs ih => simp [ih, and_assoc]

/-- The peak of a history stays below n exactly when n is positive and every magnitude does (R60). -/
theorem peakOf_lt (history : List Int) (n : Nat) : peakOf history < n ↔ 0 < n ∧ ∀ x ∈ history, x.natAbs < n :=
  foldl_max_lt history 0 n

theorem nextHangover_le (hangover peak : Nat) (y : Int) (h : hangover ≤ 240) : nextHangover hangover peak y ≤ 240 := by
  unfold nextHangover
  split
  · exact Nat.le_refl _
  · omega

theorem nextNoise_range (noise ms : Nat) (h : 1 ≤ noise ∧ noise ≤ 16384) :
    1 ≤ nextNoise noise ms ∧ nextNoise noise ms ≤ 16384 := by
  unfold nextNoise Config.noiseTop
  split <;> omega

theorem foldl_max_le (js : List Nat) (m n : Nat) : js.foldl max m ≤ n ↔ m ≤ n ∧ ∀ j ∈ js, j ≤ n := by
  induction js generalizing m with
  | nil => simp
  | cons j js ih => simp [ih, and_assoc]

/-- The NLP hangover has been reached when 64 samples have passed, and 64 · (j + 1) for every bound segment j (R64). -/
theorem nlpHangover_le (bound : List Nat) (n : Nat) :
    nlpHangover bound ≤ n ↔ 64 ≤ n ∧ ∀ j ∈ bound, 64 * (j + 1) ≤ n := by
  unfold nlpHangover
  constructor
  · intro h
    have := (foldl_max_le bound 0 (n / 64 - 1)).1 (by omega)
    exact ⟨by omega, fun j hj => by have := this.2 j hj; omega⟩
  · intro ⟨h, hj⟩
    have := (foldl_max_le bound 0 (n / 64 - 1)).2 ⟨by omega, fun j hm => by have := hj j hm; omega⟩
    omega

theorem clampInt_range (a b v : Int) (h : a ≤ b) : a ≤ clampInt a b v ∧ clampInt a b v ≤ b := by
  unfold clampInt
  split
  · omega
  · split <;> omega

/-- A changed gain index stays in its range (R125). -/
theorem changeGain_range (l : Level) (delta : Int) : -36 ≤ (changeGain l delta).gain ∧ (changeGain l delta).gain ≤ 24 :=
  clampInt_range _ _ _ (by decide)

theorem evaluateLevel_range (target : Int) (l : Level) (h : -36 ≤ l.gain ∧ l.gain ≤ 24) :
    -36 ≤ (evaluateLevel target l).gain ∧ (evaluateLevel target l).gain ≤ 24 := by
  unfold evaluateLevel
  simp only
  split
  · split
    · exact changeGain_range l _
    · exact h
  · split
    · split
      · exact changeGain_range l _
      · exact h
    · exact h

/-- A block end keeps the gain index in its range (R121, R125). -/
theorem levelBlockEnd_range (alc hold allowed : Bool) (target : Int) (l : Level) (h : -36 ≤ l.gain ∧ l.gain ≤ 24) :
    -36 ≤ (levelBlockEnd alc hold allowed target l).gain ∧ (levelBlockEnd alc hold allowed target l).gain ≤ 24 := by
  unfold levelBlockEnd
  simp only
  split
  · exact h
  · split
    · exact changeGain_range _ _
    · split
      · exact evaluateLevel_range target _ h
      · exact h

/-! ### Tap entries -/

theorem addGradient_length (e : Int) (ts : List TapEntry) (xs : List Int) : (addGradient e ts xs).length = ts.length := by
  induction ts generalizing xs with
  | nil => cases xs <;> simp [addGradient]
  | cons t ts ih => cases xs <;> simp [addGradient, ih]

/-- Entry k of a block gathers e times the window value it faces, 0 beyond the window (R47). -/
theorem addGradient_getD (e : Int) (ts : List TapEntry) (xs : List Int) (k : Nat) (h : k < ts.length) (d : TapEntry) :
    (addGradient e ts xs).getD k d = { ts.getD k d with gc := (ts.getD k d).gc + e * xs.getD k 0 } := by
  induction ts generalizing xs k with
  | nil => simp at h
  | cons t ts ih =>
    cases xs with
    | nil => simp [addGradient]
    | cons x xs =>
      cases k with
      | zero => simp [addGradient]
      | succ k => simpa [addGradient] using ih xs k (by simpa using h)

theorem windowOf_getD (window : List Int) (j k : Nat) (h : k < 64) :
    (windowOf window j).getD k 0 = window.getD (64 * j + k) 0 := by
  simp [windowOf, List.getD_eq_getElem?_getD, h]

/-! ### Numbers in order -/

theorem mem_indicesFrom {α : Type} (p : α → Bool) (i n : Nat) (xs : List α) :
    n ∈ indicesFrom p i xs ↔ i ≤ n ∧ ∃ x, xs[n - i]? = some x ∧ p x = true := by
  induction xs generalizing i with
  | nil => simp [indicesFrom]
  | cons x xs ih =>
    have step : (i ≤ n ∧ ∃ y, (x :: xs)[n - i]? = some y ∧ p y = true)
        ↔ (n = i ∧ p x = true) ∨ (i + 1 ≤ n ∧ ∃ y, xs[n - (i + 1)]? = some y ∧ p y = true) := by
      rcases Nat.lt_trichotomy n i with h | rfl | h
      · constructor
        · intro ⟨h', _⟩; omega
        · rintro (⟨h', _⟩ | ⟨h', _⟩) <;> omega
      · simp
      · obtain ⟨m, rfl⟩ : ∃ m, n = i + 1 + m := ⟨n - (i + 1), by omega⟩
        have h1 : i + 1 + m - i = m + 1 := by omega
        have h2 : i + 1 + m - (i + 1) = m := by omega
        have h3 : ¬ i + 1 + m = i := by omega
        rw [h1, h2]
        simp [h3]
        omega
    rw [step, indicesFrom]
    split
    · rename_i hp
      simp [ih, hp]
    · rename_i hp
      simp [ih, hp]

theorem mem_insertNum (x y : Nat) (xs : List Nat) : y ∈ insertNum x xs ↔ y = x ∨ y ∈ xs := by
  induction xs with
  | nil => simp [insertNum]
  | cons z zs ih =>
    unfold insertNum
    split
    · simp
    · split
      · rename_i h; subst h; simp
      · simp only [List.mem_cons, ih]; tauto

theorem mem_sortNums (y : Nat) (xs : List Nat) : y ∈ sortNums xs ↔ y ∈ xs := by
  induction xs with
  | nil => simp [sortNums]
  | cons x xs ih =>
    simp only [sortNums, List.foldr_cons, mem_insertNum, List.mem_cons]
    simpa [sortNums] using or_congr_right ih

/-! ### Cells -/

/-- No difference is found exactly when the bits from i on agree (R141). -/
theorem firstDifference_none (sent line : BitVec 128) (n i : Nat) :
    firstDifference sent line n i = none ↔ ∀ b, i ≤ b → b < i + n → sent.getMsbD b = line.getMsbD b := by
  induction n generalizing i with
  | zero => simp [firstDifference]; intro b h h'; omega
  | succ n ih =>
    unfold firstDifference
    split
    · rename_i h
      simp only [bne_iff_ne, ne_eq] at h
      simp only [reduceCtorEq, false_iff]
      intro hall
      exact h (hall i (Nat.le_refl i) (by omega))
    · rename_i h
      simp only [bne_iff_ne, ne_eq, Decidable.not_not] at h
      rw [ih]
      constructor
      · intro hall b hb hn
        rcases Nat.eq_or_lt_of_le hb with rfl | hlt
        · exact h
        · exact hall b hlt (by omega)
      · intro hall b hb hn
        exact hall b (by omega) (by omega)

/-- A difference found lies in range, is one, and is the first (R141). -/
theorem firstDifference_some (sent line : BitVec 128) (n i p : Nat) (h : firstDifference sent line n i = some p) :
    i ≤ p ∧ p < i + n ∧ sent.getMsbD p ≠ line.getMsbD p ∧ ∀ b, i ≤ b → b < p → sent.getMsbD b = line.getMsbD b := by
  induction n generalizing i with
  | zero => simp [firstDifference] at h
  | succ n ih =>
    unfold firstDifference at h
    split at h
    · rename_i hd
      simp only [bne_iff_ne, ne_eq] at hd
      cases h
      exact ⟨Nat.le_refl _, by omega, hd, fun b hb hp => by omega⟩
    · rename_i hd
      simp only [bne_iff_ne, ne_eq, Decidable.not_not] at hd
      obtain ⟨h1, h2, h3, h4⟩ := ih (i + 1) h
      refine ⟨by omega, by omega, h3, fun b hb hp => ?_⟩
      rcases Nat.eq_or_lt_of_le hb with rfl | hlt
      · exact hd
      · exact h4 b hlt hp

/-- The bits asserted up to a loss at bit p are the sent 1 bits from 0 to p (R141). -/
theorem assertedUpTo_bit (sent : BitVec 128) (p b : Nat) (hp : p < 128) (_ : b < 128) :
    (assertedUpTo sent p).getMsbD b = (sent.getMsbD b && decide (b ≤ p)) := by
  simp only [assertedUpTo, BitVec.getMsbD_and, BitVec.getMsbD_shiftLeft, BitVec.getMsbD_allOnes]
  congr 1
  simp only [decide_eq_decide]
  omega

end Sys2Proof.Laws
end

