-- ==== Sys2Proof/WellFormed.lean ====
section
/-! DEFINITION. Which commands are well formed: the operands lie in the ranges the manual gives. A command that is
not well formed still runs: a message with a sender that does not fit its kind is discarded and counted (R145, R146),
and a tap block or page that does not exist has no event. -/

namespace Sys2Proof

/-- A station number as a sender (R144, R146). -/
abbrev isStation (sender : BitVec 4) : Bool := sender.toNat < 8

/-- The supervisory card as a sender (R146). -/
abbrev isCard (sender : BitVec 4) : Bool := sender.toNat == 15

/-- A block number 0..263 (R96). -/
abbrev isBlock (b : BitVec 9) : Bool := b.toNat < 264

/-- The range checks on a command's operands. -/
def Instr.wellFormed : Instr → Bool
  | .sample _ _ _ upsets | .resetRelease _ _ upsets => upsets.all fun u => isBlock u.block
  | .retirement b => isBlock b
  | .offer _ _ _ _ k | .bid _ _ k | .adopt _ _ k | .reclaim _ k | .report _ _ _ k | .notice _ _ k => isStation k
  | .grant _ taker k => isStation k && isStation taker
  | .returnSlot _ cause k => isStation k && decide (cause.toNat < 4)
  | .profileAction _ _ k | .transparentOn _ k | .transparentOff _ k | .freeze _ k | .resume _ k | .settle _ k
  | .restart _ k | .noAction _ k => isCard k
  | .profileMessage _ _ _ _ _ _ _ _ _ _ k | .runMessage _ _ _ _ _ _ _ _ k => isCard k
  | .queryIdentity _ _ k | .queryStation _ _ k | .queryChannelA _ _ k | .queryChannelB _ _ k
  | .queryBlock _ _ k => isCard k
  | .queryUnknownPage _ page _ k => isCard k && decide (5 ≤ page.toNat)
  | .resetAssertion | .testEnd | .frameSyncPulse .. | .syncLock | .syncRegain
  | .expectedPositionCheck .. | .syncLoss | .huntPeriod | .callEnd .. | .dtHangoverEnd .. | .nlpHangoverExpiry ..
  | .blockEnd .. | .pathChange .. | .evaluation .. | .toneHold .. | .toneHoldRelease .. | .disabledRelease ..
  | .frameBoundary .. | .orphan .. | .adoptJudgement .. | .offerWindowEnd .. | .bidWindowExpiry .. | .grantStale ..
  | .bidTimeout .. | .offerMemoryExpiry .. | .handOver .. | .reclaimAgeExpiry .. | .listenEnd | .configTimeout
  | .runEntry | .cellStart .. | .cellEnd => true

end Sys2Proof
end

