-- ==== Sys2Proof/Tests/Slice0.lean ====
section
/-! SUPPORT. Tests: the checks of WellFormed, the manual's worked values, one small step of most commands, and for each
statement of Certificates/Slice0 that has hypotheses a state and operands that meet them (theorems `witness_…`). The
expected values come from the worked examples and tables named in the comments. -/

namespace Sys2Proof.Tests

open Sys2Proof Sys2Proof.Machine

set_option Elab.async false

/-! ### Small states -/

/-- The state a command leaves. -/
def ran (c : Instr) (s : State) : State :=
  match exec c s with
  | .next t => t
  | .fault r => nomatch r
  | .refused _ => s

/-- Station 1 of a shelf of 4, LOCKED in frame 100: contexts 0..31 are the homes of slots 1, 5, .., 125. -/
def station (st : StationState) : State :=
  { State.resetWith 1 4 false with
    frame := 100
    highway := { highwayReset with sync := .locked, lastPulse := some 8192, lockClock := some 8192 }
    profile := { profileReset 1 4 false with station := st } }

/-- Slot 5's context, number 1, in a role. -/
def withHome (c : Context) (s : State) : State := s.setCtx 1 c

/-- Slot 6's context, guest number 32. -/
def withGuest (c : Context) (s : State) : State := (s.setCtx 32 c).setDirectory 6 (some 32)

/-- The serving parts of slot 5 just after a call start. -/
def fresh : Serving := newServing 0 (defaultProfile 0) 5 true

/-- A search in pass 1 with block 40 on segment 0. -/
def searching : SearchRecord :=
  { newSearch 8 with map := [⟨0, .block 40⟩], explored := [0], pass := 1, status := .inPass }

/-- Slot 5 serves in a call state. -/
def onSlot5 (st : CallState) (sv : Serving) (r : Option SearchRecord) : Context :=
  { homeContext 5 with callState := st, serving := some sv, search := r }

/-- A station in RUN whose slot 5 serves, with block 40 bound to its segment 0. -/
def calling (st : CallState) (sv : Serving) (r : Option SearchRecord) : State :=
  (withHome (onSlot5 st sv r) (station .run)).bindBlock 1 0 40

/-- The pool with the free FIFO `fifo`; the other free blocks are reserved for slot 127. -/
def stocked (fifo : List Nat) (s : State) : State :=
  { s with pool.fifo := fifo
           pool.blocks := s.pool.blocks.zipIdx.map fun (t, b) =>
             if t.state == .free && !fifo.contains b then { t with state := .reserved, owner := some ⟨63, 127⟩ } else t }

/-- Slot 9's context, number 2, waits in the shortfall queue with a search. -/
def queued (st : CallState) (r : SearchRecord) (s : State) : State :=
  { s.setCtx 2 { homeContext 9 with callState := st, serving := some fresh, search := some r } with
    pool.shortfall := [2] }

/-- Coefficients of energy 2^20, which is just significant (R79). -/
def echoing : List TapEntry := ⟨1024, 0, 0⟩ :: List.replicate 63 ⟨0, 0, 0⟩

/-- The cell of a message under way, sent by this station and read back whole. -/
def sending (m : Msg) (s : State) : State :=
  { s with lane := { s.lane with queue := [⟨m, 100, none⟩]
                                 cell := some ⟨.a, some ⟨m, 100, none⟩, cellOf m, none, cellOf m⟩ } }

/-- Slot 6 TAKEN, in a call state. -/
def taken (st : CallState) (present : Bool) : Context :=
  { freeGuest with slot := some 6, role := .taken, callState := st, serving := some { fresh with callPresent := present } }

/-- A queue of one entry. -/
def queueing (e : Entry) (s : State) : State := { s with lane.queue := [e] }

/-! ### WellFormed refuses -/

theorem test_wf_sample_block : (Instr.sample 5 0xD5 0xD5 [⟨264, 0, 1⟩]).wellFormed = false := by decide
theorem test_wf_retirement_block : (Instr.retirement 264).wellFormed = false := by decide
theorem test_wf_station_sender : (Instr.offer 5 8 0 0 8).wellFormed = false ∧ (Instr.bid 5 8 8).wellFormed = false
    ∧ (Instr.adopt 5 8 15).wellFormed = false ∧ (Instr.reclaim 5 8).wellFormed = false
    ∧ (Instr.report 0 0 0 15).wellFormed = false ∧ (Instr.notice 3 0 9).wellFormed = false
    ∧ (Instr.grant 5 2 8).wellFormed = false ∧ (Instr.returnSlot 5 0 8).wellFormed = false := by decide
theorem test_wf_grant_taker : (Instr.grant 5 8 1).wellFormed = false := by decide
theorem test_wf_return_cause : (Instr.returnSlot 5 4 1).wellFormed = false := by decide
theorem test_wf_card_sender : (Instr.profileAction 5 1 3).wellFormed = false ∧ (Instr.freeze 5 3).wellFormed = false
    ∧ (Instr.profileMessage 15 0 8 16 2 31 16 16 0 0 3).wellFormed = false
    ∧ (Instr.runMessage 15 0 800 2 0xD5 0x55 0 0 3).wellFormed = false
    ∧ (Instr.queryStation 15 0 7).wellFormed = false ∧ (Instr.queryUnknownPage 15 5 0 7).wellFormed = false := by decide
theorem test_wf_unknown_page : (Instr.queryUnknownPage 15 4 0 15).wellFormed = false := by decide
theorem test_wf_tested_block : (Instr.resetRelease 1 3 [⟨264, 0, 1⟩]).wellFormed = false := by decide
theorem test_wf_accepts : (Instr.sample 127 0xD5 0xD5 [⟨263, 63, 2⟩]).wellFormed = true := by decide

/-! ### Worked values -/

/-- Worked conversion (1.3): 1000 is sent as 8Ah, −1000 as 0Ah; they are heard as ±1008; all of 992..1023 share 8Ah. -/
theorem test_worked_conversion :
    compress 1000 = 0x8A ∧ expand 0x8A = 1008 ∧ compress (-1000) = 0x0A ∧ expand 0x0A = -1008
      ∧ (∀ v < 32, compress (992 + (v : Nat)) = 0x8A) := by decide

/-- Saturation of R9: 4095 and beyond share the top code, whose expansion is 4032 (R8). -/
theorem test_conversion_limits : compress 9999 = compress 4095 ∧ expand (compress 4095) = 4032
    ∧ compress (-9999) = compress (-4095) ∧ expand (compress (-4095)) = -4032 := by decide

/-- Worked update arithmetic (3.5): Gh = 16,257,024, s = 1 and D_h = 65,032,192 give Δh = 4096; the sign follows Gh, and
a Gh of 0 changes nothing. -/
theorem test_worked_commit :
    commitEntry true 1 65032192 ⟨0, 7, 16257024⟩ = ⟨4096, 0, 7⟩
      ∧ commitEntry true 1 65032192 ⟨0, 7, -16257024⟩ = ⟨-4096, 0, 7⟩
      ∧ commitEntry true 1 65032192 ⟨5, 7, 0⟩ = ⟨5, 0, 7⟩ ∧ commitEntry false 1 65032192 ⟨5, 7, 9⟩ = ⟨5, 0, 7⟩
      ∧ commitEntry true 1 65032192 ⟨32000, 0, 16257024⟩ = ⟨32767, 0, 0⟩ := by decide

/-- Worked noise estimate (4.3). -/
theorem test_worked_noise : nextNoise 64 5000 = 65 ∧ nextNoise 65 12000 = 66 ∧ nextNoise 66 30 = 30
    ∧ nextNoise 30 30 = 31 ∧ nextNoise 31 40 = 32 ∧ nextNoise 32 18 = 18 ∧ nextNoise 18 260000 = 19
    ∧ nextNoise 1 0 = 1 ∧ nextNoise 16384 260000 = 16384 := by decide

/-- Worked generator start (4.4): slot 5 gives u = 0 and then u = 12; the noise table at N_noise = 31, and A at both ends
of the range (R75). -/
theorem test_worked_generator :
    (let a := generatorRun 12 0 (generatorSeed 5)
     noiseValue a.1 = 0 ∧ noiseValue (generatorRun 12 0 a.2).1 = 12)
      ∧ comfortNoise (-2048) 31 = -9 ∧ comfortNoise (-1500) 31 = -7 ∧ comfortNoise 1000 31 = 4
      ∧ comfortNoise 2047 31 = 9 ∧ noiseAmplitude 1 = 1 ∧ noiseAmplitude 16384 = 221 ∧ noiseValue 2048 = -2048 := by
  decide +kernel

/-- Worked search, pass 2 evaluation: E_9 = 3·2^24 and E_10 = 2^23 are significant beside E_max, 2^19 is not, and the plan
of 9, 10 with B = 6 and R = 16 is 9, 10, 8, 11. -/
theorem test_worked_plan : significant (3 * 2 ^ 24) 50331648 = true ∧ significant (2 ^ 23) 50331648 = true
    ∧ significant (2 ^ 19) 50331648 = false ∧ buildPlan 6 16 [9, 10] = [9, 10, 8, 11]
    ∧ buildPlan 3 16 [0, 15] = [0, 15, 1] ∧ nlpHangover [9, 10, 8, 11] = 768 ∧ nlpHangover [] = 64 := by decide

/-- Worked send-direction adjustment (7): MS_out at G = 0, 1, 8, 9, 10, and a rise at spacing 32 but not at 31. -/
theorem test_worked_levels : msOut 25000 0 = 25000 ∧ msOut 25000 1 = 28054 ∧ msOut 25000 8 = 62802
    ∧ msOut 25000 9 = 70451 ∧ msOut 25000 10 = 79060 ∧ msOut 160000 (-1) = 142609
    ∧ targetBand (-16) = (102234, 72376, 144409)
    ∧ (levelBlockEnd true false true (-16) { Level.start 0 with power := 25000 * 256, spacing := 31 }).gain = 1
    ∧ (levelBlockEnd true false true (-16) { Level.start 0 with power := 25000 * 256, spacing := 30 }).gain = 0 := by
  decide

/-- Worked peak guard and clamp (7): +2 falls to 0; a refused rise at +24 sets UPPER and keeps the spacing count. -/
theorem test_worked_peak_guard :
    (levelBlockEnd true false true (-16) { Level.start 2 with peak := true }).gain = 0
      ∧ (let l := levelBlockEnd true false true (-16) { Level.start 24 with power := 407 * 256, spacing := 31 }
         l.gain = 24 ∧ l.limit = .upper ∧ l.spacing = 32) := by decide

/-- The phase test at block end 153 of the worked answer tone (8). -/
theorem test_worked_phase_dot :
    phaseDot (-212079000) (-154084000) 262144000 0 = 1125891719823360000000
      ∧ phaseDot 212079000 154084000 262144000 0 = -1125891719823360000000
      ∧ toneBlock 212079000 154084000 16000000 = true ∧ toneBlock 212079000 154084000 99999 = false := by decide

/-- The report numbers of R156. -/
theorem test_report_numbers : reportNumber 0 = 0 ∧ reportNumber 4095 = 4095 ∧ reportNumber 4096 = 4096 + 2048
    ∧ reportNumber 79060 = 5 * 4096 + 2470 ∧ reportNumber 1016064 = 8 * 4096 + 3969
    ∧ reportNumber 16769025 = 12 * 4096 + 4094 ∧ reportNumber 134217727 = 65535 ∧ reportNumber 134217728 = 65535 := by
  decide +kernel

/-- Worked contention (9.6): the first 23 bits of station 2's BID for slot 5 with margin 32 are 1100 0000101 00100000
0010, and the cells of stations 2 and 3 part at cell bit 13. -/
theorem test_worked_contention :
    (cellOf (.bid 5 32 2)).extractLsb' 105 23 = 0b11000000101001000000010#23
      ∧ firstDifference (cellOf (.bid 5 4 3)) (cellOf (.bid 5 32 2)) 128 0 = some 13
      ∧ firstDifference (cellOf (.notice 3 0 0)) (cellOf (.bid 5 32 2)) 128 0 = some 0
      ∧ firstDifference (cellOf (.bid 5 32 2)) (cellOf (.bid 5 32 2)) 128 0 = none := by decide +kernel

/-- The check register of R140: x^16 + x^12 + x^5 + 1 over an all-zero body, from the preset of all ones, is not 0, so an
idle line is no sound cell; a flipped bit fails the check. -/
theorem test_check : checkPasses 0 = false ∧ checkPasses (cellOf (.bid 5 32 2)) = true
    ∧ checkPasses (cellOf (.bid 5 32 2) ^^^ 1) = false ∧ parseCell (cellOf (.bid 5 32 2)) = some (.bid 5 32 2) := by
  decide +kernel

/-- Worked start-up placement (6.2): with blocks 7 and 200 failing, 0..257 less those are FREE and 258..263 SPARE. -/
theorem test_worked_placement :
    (let p := placement (BitVec.ofNat 264 (2 ^ 7 + 2 ^ 200))
     p.fifo = (List.range 258).filter (fun b => b != 7 && b != 200)
       ∧ p.blocks.map (·.state == .spare) = (List.range 264).map fun b => decide (258 ≤ b)) := by decide +kernel

/-- Worked queue pressure (9.7): with 16 entries a BID displaces the newest NOTICE, and a NOTICE is refused. -/
theorem test_worked_queue_pressure :
    (let q := List.replicate 7 (⟨.report 1 0 0 1, 0, none⟩ : Entry) ++ [⟨.notice 1 1 1, 0, none⟩]
       ++ List.replicate 8 ⟨.notice 1 2 1, 0, none⟩
     joinQueueWith ⟨.bid 22 4 1, 0, none⟩ q
         = (⟨.bid 22 4 1, 0, none⟩ :: q.take 15, true, 1)
       ∧ joinQueueWith ⟨.notice 3 0 1, 0, none⟩ q = (q, false, 1)) := by decide +kernel

/-! ### RESET, TEST and sync -/

/-- A station that has been released from RESET by straps 1 and v = 3 (N = 4), with blocks 7 and 200 failing. -/
def released : State := ran (.resetRelease 1 3 [⟨7, 0, 1⟩, ⟨200, 63, 2⟩]) State.reset

/-- In the last frame of TEST. -/
def lastTestFrame (sync : SyncState) : State :=
  { released with highway := { released.highway with sync }, profile := { released.profile with testFrames := 32 } }

/-- In HUNT after a loss, the spacing count at `n`, the last pulse at bit clock 8192. -/
def hunting (n lost : Nat) : State :=
  { station .unsynced with highway := { highwayReset with spacing := n, lastPulse := some 8192, framesLost := lost } }

/-- Miss count 1 in RUN (R15). -/
def missing (n : Nat) : State :=
  let s := calling .search fresh (some searching)
  { s with highway := { s.highway with miss := n } }

theorem test_resetAssertion : (ran .resetAssertion (calling .search fresh (some searching))).profile.station = .held
    ∧ (ran .resetAssertion (calling .search fresh (some searching))).ctx 1 = homeContext 5 := by decide +kernel

/-- R17, R173: N = 4 gives station 1 the 32 home slots 1, 5, .., 125; v = 0 gives N = 2 with the clamp record, so station 7
has no home slot. -/
theorem test_resetRelease : released.profile.n = 4 ∧ released.lookup 125 = some 31 ∧ released.lookup 126 = none
    ∧ (released.ctx 32).kind = .guest
    ∧ (ran (.resetRelease 7 0 []) State.reset).profile.clamped = true
    ∧ (ran (.resetRelease 7 0 []) State.reset).lookup 127 = none
    ∧ (ran (.resetRelease 7 0 []) State.reset).ctx 0 = freeGuest := by decide +kernel

theorem test_testEnd : (ran .testEnd (lastTestFrame .locked)).profile.station = .listen
    ∧ (ran .testEnd (lastTestFrame .hunt)).profile.station = .unsynced
    ∧ (ran .testEnd (lastTestFrame .hunt)).free = 256
    ∧ ((ran .testEnd (lastTestFrame .hunt)).tapBlock 200).state = .failed := by decide +kernel

theorem test_frameSyncPulse : (ran (.frameSyncPulse 9216) (hunting 6 0)).highway.spacing = 7
    ∧ (ran (.frameSyncPulse 9217) (hunting 6 0)).highway.spacing = 1
    ∧ (ran (.frameSyncPulse 9216) (hunting 7 0)).highway.sync = .locked
    ∧ (ran (.frameSyncPulse 9216) (hunting 7 0)).profile.station = .listen := by decide +kernel

theorem test_syncLock : (ran .syncLock (hunting 8 0)).highway.sync = .locked
    ∧ (ran .syncLock (hunting 8 0)).lane.queue = [] := by decide +kernel

/-- SYNC REGAINED carries the frames-lost count (R16). -/
theorem test_syncRegain : ((ran .syncRegain (hunting 8 10)).lane.queue.map (·.msg)) = [.notice 8 10 1]
    ∧ (ran .syncRegain (hunting 8 10)).highway.framesLost = 0 := by decide +kernel

/-- Worked sync loss and regain (1.5): the first missing pulse gives miss 1, the second HUNT with 2 frames lost. -/
theorem test_expectedPositionCheck : (ran (.expectedPositionCheck false) (missing 0)).highway.miss = 1
    ∧ (ran (.expectedPositionCheck false) (missing 1)).highway.framesLost = 2
    ∧ (ran (.expectedPositionCheck false) (missing 1)).highway.sync = .hunt
    ∧ (ran (.expectedPositionCheck true) (missing 1)).highway.miss = 0 := by decide +kernel

theorem test_syncLoss : ((ran .syncLoss (missing 2)).ctx 1).callState = .notServing
    ∧ ((ran .syncLoss (missing 2)).tapBlock 40).state = .free := by decide +kernel

theorem test_huntPeriod : (ran .huntPeriod (hunting 1 2)).highway.framesLost = 3
    ∧ (ran .huntPeriod (hunting 1 65535)).highway.framesLost = 65535
    ∧ (ran .huntPeriod (hunting 1 0)).highway.framesLost = 0 := by decide +kernel

theorem witness_StepTakesFrontCommand : ((station .run).withCommand .syncLoss).pending = .syncLoss :: [] ∧
    (station .run).pending = [] := by decide +kernel
theorem witness_QueueStrapsAndConfigurationStand :
    (State.reset.profile.station = .held ∧ State.reset.heldQuiet ∧ Instr.listenEnd ≠ .resetAssertion
      ∧ ∀ station population tested, Instr.listenEnd ≠ .resetRelease station population tested)
    ∧ (∀ station population tested, Instr.resetAssertion ≠ .resetRelease station population tested)
    ∧ (missing 2).profile.station ≠ .config ∧ Instr.syncLoss ≠ .resetAssertion
    ∧ exec .syncLoss (missing 2) = .next (ran .syncLoss (missing 2)) :=
  ⟨⟨by decide, fun _ => ⟨rfl, rfl⟩, by decide, fun _ _ _ h => nomatch h⟩, fun _ _ _ h => (nomatch h), by decide, by decide, rfl⟩

/-- The premises of the step invariants hold in a state with a call and a command waiting, which steps on. -/
def waiting : State :=
  (stocked [12] (calling .search { fresh with hangover := 240, dtFlag := true } (some searching))).withCommand
    (.sample 5 0x8A 0x8A [⟨40, 3, 2⟩])

theorem witness_StepKeepsSizes : waiting.sized ∧ ∃ t, step waiting = .next t :=
  ⟨by unfold State.sized; decide +kernel, _, rfl⟩
theorem witness_StepKeepsQueueAndCounts : waiting.lane.queue.length ≤ 16 ∧ waiting.countsSound
    ∧ rankOrdered waiting.lane.queue :=
  ⟨by decide +kernel, by unfold State.countsSound; decide +kernel, by unfold rankOrdered; decide +kernel⟩
theorem witness_StepKeepsPoolSound : waiting.poolSound ∧ ∃ t, step waiting = .next t :=
  ⟨State.poolSound_of_check (by decide +kernel), _, rfl⟩
theorem witness_StepKeepsSlotsSound : waiting.slotsSound ∧ (∃ t, step waiting = .next t)
    ∧ State.reset.profile.station = .held ∧ State.reset.heldQuiet :=
  ⟨State.slotsSound_of_check (by decide +kernel), ⟨_, rfl⟩, by decide, fun _ => ⟨rfl, rfl⟩⟩
theorem witness_StepKeepsSignalStateSound : waiting.eachServing Serving.dtSound := by
  show ∀ c ∈ waiting.table.contexts, ∀ sv ∈ c.serving, sv.hangover ≤ 240 ∧ (sv.dtFlag = true ↔ 0 < sv.hangover)
  decide +kernel
theorem witness_StepKeepsSignalStateSound_noise : waiting.eachServing Serving.noiseSound := by
  show ∀ c ∈ waiting.table.contexts, ∀ sv ∈ c.serving, 1 ≤ sv.noise ∧ sv.noise ≤ 16384
  decide +kernel
theorem witness_StepKeepsGainsInRange : waiting.gainsSound := by
  refine ⟨?_, ?_⟩
  · unfold Profile.sound gainSound; decide +kernel
  · show ∀ c ∈ waiting.table.contexts, ∀ sv ∈ c.serving, (-36 ≤ sv.send.gain ∧ sv.send.gain ≤ 24) ∧
      (-36 ≤ sv.receive.gain ∧ sv.receive.gain ≤ 24)
    decide +kernel

theorem witness_CellsReadBackAndRank : (Msg.notice 15 0xFFFF 15).kind < (Msg.report 0 0 0 0).kind := by decide
theorem witness_GainOfEveryIndex : linearGain (-36) = 516 ∧ linearGain 24 = 16306 ∧ linearGain 0 = 4096 := by decide
theorem witness_ResetAssertion : 2 ≤ (missing 2).profile.n ∧ (missing 2).profile.k < (missing 2).profile.n ∧
    125 % (missing 2).profile.n = (missing 2).profile.k ∧ 126 % (missing 2).profile.n ≠ (missing 2).profile.k := by
  decide +kernel
/-- The memory test's verdict: one wrong bit of a block fails it, a finding of none does not (R98). -/
theorem witness_ResetReleaseFixesContexts : State.reset.profile.station = .held
    ∧ (let t := ran (.resetRelease 1 3 [⟨7, 0, 1⟩, ⟨200, 63, 2⟩, ⟨263, 0, 0⟩]) State.reset
       t.pool.faulty.getLsbD 7 = true ∧ t.pool.faulty.getLsbD 200 = true ∧ t.pool.faulty.getLsbD 263 = false) := by
  decide +kernel
theorem witness_TestEndPlacesBlocks : (lastTestFrame .locked).profile.station = .test ∧
    32 ≤ (lastTestFrame .locked).profile.testFrames ∧ (lastTestFrame .locked).highway.sync = .locked ∧
    (lastTestFrame .hunt).highway.sync = .hunt := by decide +kernel
theorem witness_FrameSyncAndTiming :
    ((hunting 6 0).profile.station ≠ .held ∧ (hunting 6 0).highway.sync = .hunt
      ∧ (hunting 6 0).highway.lastPulse = some (9216 - 1024) ∧ (hunting 6 0).highway.spacing < 7
      ∧ (hunting 6 0).highway.lastPulse ≠ some (9217 - 1024))
    ∧ ((hunting 7 0).highway.lastPulse = some (9216 - 1024) ∧ 7 ≤ (hunting 7 0).highway.spacing
      ∧ (hunting 7 0).profile.station = .unsynced)
    ∧ ((missing 0).profile.station ≠ .held ∧ (missing 0).highway.sync = .locked)
    ∧ ((hunting 8 0).highway.sync = .hunt ∧ (hunting 8 0).highway.spacing = 8
      ∧ (hunting 8 0).profile.station = .unsynced ∧ (hunting 8 0).highway.framesLost = 0)
    ∧ (hunting 8 2).highway.framesLost ≠ 0 ∧ maskBit (hunting 8 2).profile.noticeMask 8 = true
      ∧ (hunting 8 2).lane.queue.length < 16 := by decide +kernel
theorem witness_FrameSyncAndTiming_timing :
    ((missing 0).profile.station ≠ .held ∧ (missing 0).highway.sync = .locked ∧ (missing 0).highway.miss = 0)
    ∧ 1 ≤ (missing 1).highway.miss
    ∧ (hunting 1 65535).highway.sync = .hunt ∧ (hunting 1 65535).highway.framesLost ≠ 0
    ∧ (hunting 1 65535).profile.station ≠ .test := by decide +kernel
theorem witness_SyncLossClearsStation : (missing 2).highway.sync = .locked ∧ 2 ≤ (missing 2).highway.miss ∧
    (missing 2).profile.station ≠ .held ∧ ((missing 2).ctx 1).kind = .home ∧ ((missing 2).ctx 32).kind = .guest := by
  decide +kernel
/-- Block 40 bears a mark: it fails, and the lowest SPARE block follows the FIFO's own (R113). -/
theorem witness_SyncLossClearsStation_pool :
    (let s := (stocked [12] (missing 2)).modBlock 40 fun t => { t with retirePending := true }
     s.highway.sync = .locked ∧ 2 ≤ s.highway.miss ∧ s.poolCheck = true ∧ (s.tapBlock 40).retirePending = true
       ∧ (s.tapBlock 0).state = .reserved ∧ ((ran .syncLoss s).tapBlock 40).state = .failed
       ∧ (ran .syncLoss s).pool.fifo.take 4 = [12, 256, 0, 1]) := by decide +kernel

/-! ### LISTEN, CONFIG and RUN -/

/-- LISTEN after its 16th frame; the mark of slot 5 was read, and an ADOPT for slot 9 delivered. -/
def listened : State :=
  let s := station .listen
  { s with profile := { s.profile with listenFrames := 16 }
           share := { s.share with listenMarks := 32, listenAdopt := 512 } }

/-- CONFIG with a RUN accepted in the frame before, or at the end of its time; slot 5 serves in BYPASS. -/
def configured (accepted : Option Nat) (frames : Nat) : State :=
  let s := withHome (onSlot5 .bypass { fresh with callPresent := false } none) (station .config)
  { s with profile := { s.profile with runAccepted := accepted, configFrames := frames } }

theorem test_listenEnd : ((ran .listenEnd listened).ctx 1).role = .reclaiming
    ∧ ((ran .listenEnd listened).ctx 2).role = .reclaiming ∧ ((ran .listenEnd listened).ctx 0).callState = .bypass
    ∧ (ran .listenEnd listened).profile.station = .config := by decide +kernel
theorem test_configTimeout : (ran .configTimeout (configured none 8000)).profile.station = .run
    ∧ (ran .configTimeout (configured none 7999)).profile.station = .config
    ∧ ((ran .configTimeout (configured none 8000)).ctx 1).callState = .idle := by decide +kernel
theorem test_runEntry : (ran .runEntry (configured (some 99) 0)).profile.station = .run
    ∧ (ran .runEntry (configured (some 100) 0)).profile.station = .config := by decide +kernel

theorem witness_ListenEndJudgesHomes : listened.profile.station = .listen ∧ 16 ≤ listened.profile.listenFrames ∧
    listened.table.contexts.length = 64 ∧ (listened.ctx 1).kind = .home ∧ (listened.ctx 1).slot = some 5 ∧
    listened.lane.queue.length + ((List.range 64).filter fun i => decide ((listened.ctx i).kind = .home)
      && (listened.ctx i).slot.elim false fun slot => listened.share.listenMarks.getLsbD slot
        || listened.share.listenAdopt.getLsbD slot || listened.share.listenAdopt'.getLsbD slot).length = 2 ∧
    listened.share.listenMarks.getLsbD 5 = true ∧ listened.share.listenAdopt.getLsbD 9 = true ∧
    (listened.ctx 31).slot = some 125 ∧ listened.share.listenMarks.getLsbD 125 = false ∧
    listened.share.listenAdopt.getLsbD 125 = false ∧ listened.share.listenAdopt'.getLsbD 125 = false := by decide +kernel
theorem witness_RunEntryRejudges :
    ((configured (some 99) 0).profile.station = .config ∧ (configured (some 99) 0).profile.runAccepted = some 99
      ∧ 99 < (configured (some 99) 0).frame)
    ∧ ((configured none 8000).profile.station = .config ∧ (configured none 8000).profile.runAccepted = none
      ∧ 8000 ≤ (configured none 8000).profile.configFrames)
    ∧ ((configured none 8000).ctx 1).role.serves = true
    ∧ ((configured none 8000).ctx 1).serving = some { fresh with callPresent := false }
    ∧ ((configured none 8000).ctx 1).callState = .bypass ∧ ((configured none 8000).ctx 1).transparent = false
    ∧ (let s := { configured (some 99) 0 with table := (withHome (onSlot5 .bypass fresh none) (station .config)).table }
       s.profile.station = .config ∧ s.profile.runAccepted = some 99 ∧ (s.ctx 1).serving = some fresh
         ∧ fresh.callPresent = true ∧ 1 ≤ (s.profileAt (s.ctx 1).profile).reach) := by
  decide +kernel
/-- Slots 5 and 9 start their calls on 12 FREE blocks: the second obtains 4 of its 8. -/
theorem witness_RunEntryRejudges_calls :
    (let s := stocked (List.range 12) ((configured (some 99) 0).setCtx 2 { homeContext 9 with
       callState := .bypass, serving := some fresh } |>.setCtx 1 (onSlot5 .bypass fresh none))
     s.profile.station = .config ∧ s.profile.runAccepted = some 99 ∧ 99 < s.frame ∧ s.poolCheck = true
       ∧ (List.range 64).filter s.startsAtRun = [1, 2]
       ∧ (∀ k < 64, s.startsAtRun k = true →
           (s.profileAt (s.ctx k).profile).budget ≤ (s.profileAt (s.ctx k).profile).reach)
       ∧ s.lane.queue.length + 2 * 2 ≤ 16 ∧ s.requestedBefore 2 = 8 ∧ s.requestedBefore 64 = 16
       ∧ ((ran .runEntry s).boundOf 2).length = 4 ∧ (ran .runEntry s).pool.shortfall = [2]) := by decide +kernel
/-- The last sample of a block, the silent sample that completes an idle run of 800, and the boundaries that end TEST,
LISTEN and CONFIG. -/
theorem witness_EventsInTheirCommand :
    (let s := calling .track { fresh with phase := 31 } (some searching)
     s.soundSample 5 1 { fresh with phase := 31 } 0x8A 0x8A)
    ∧ (let sv := { fresh with idleRun := 799 }
       let s := calling .track sv (some searching)
       s.servesWith 5 1 sv ∧ 1 < s.table.contexts.length ∧ s.highway.sync = .locked ∧ sv.callPresent = true
         ∧ silent s.highway.idleCodes 0xD5 0x55 = true ∧ s.highway.idleCount ≤ min 4095 (sv.idleRun + 1))
    ∧ ((missing 1).profile.station ≠ .held ∧ (missing 1).highway.sync = .locked ∧ 1 ≤ (missing 1).highway.miss)
    ∧ ((hunting 7 2).profile.station ≠ .held ∧ (hunting 7 2).highway.sync = .hunt ∧ 7 ≤ (hunting 7 2).highway.spacing
      ∧ (hunting 7 2).highway.lastPulse = some 8192)
    ∧ ((lastTestFrame .locked).highway.sync = .locked ∧ (lastTestFrame .locked).profile.station = .test
      ∧ 31 ≤ (lastTestFrame .locked).profile.testFrames ∧ (lastTestFrame .locked).lane.recalled = []
      ∧ (lastTestFrame .hunt).highway.sync = .hunt ∧ (lastTestFrame .hunt).highway.framesLost = 0)
    ∧ (listened.highway.sync = .locked ∧ listened.profile.station = .listen ∧ 15 ≤ listened.profile.listenFrames
      ∧ listened.lane.recalled = [])
    ∧ (configured (some 100) 0).highway.sync = .locked ∧ (configured (some 100) 0).profile.runAccepted = some 100
    ∧ 100 ≤ (configured (some 100) 0).frame ∧ 7999 ≤ (configured none 7999).profile.configFrames := by decide +kernel

/-! ### Samples and block ends -/

/-- A call in TRACK after its hangover, reference and P standing, at block phase `n`. -/
def talking (n : Nat) : Serving :=
  { fresh with history := List.replicate 300 1008, power := 256 * 1016064, phase := n }

/-- A call's first sample (R10, R41, R60), and (worked update arithmetic, 3.5) a SIN of 504 against a reference of 1008,
which raises no hangover and adds 504 · 1008 = 508,032 to Gc. -/
theorem test_sample :
    (let t := ran (.sample 5 0x8A 0x8A []) (calling .search fresh (some searching))
     (t.ctx 1).serving.map (fun v => (v.history, v.power, v.hangover, v.dtFlag, v.phase))
         = some ([1008], 1016064, 240, true, 1)
       ∧ t.highway.pipeline.getD 5 [] = [⟨102, 0x8A, 0x8A⟩] ∧ t.highway.lines = ⟨some 5, some ⟨0xD5, 0xD5⟩⟩)
    ∧ (let t := ran (.sample 5 0x8A (compress 504) []) (calling .track (talking 0) (some searching))
       ((t.tapBlock 40).entries.getD 3 ⟨0, 0, 0⟩).gc = 508032 ∧ (t.ctx 1).serving.map (·.hangover) = some 0
         ∧ (t.ctx 1).serving.map (·.nlp) = some .closed) := by decide +kernel

theorem test_callEnd : (let s := calling .search { fresh with idleRun := 800, ending := true } (some searching)
    ((ran (.callEnd 5) s).ctx 1).callState = .idle ∧ ((ran (.callEnd 5) s).tapBlock 40).state = .free
      ∧ (ran (.callEnd 5) s).pool.fifo.getLast? = some 40) := by decide +kernel

/-- A station whose block 40 has reached the retirement count, with a FIFO. -/
def worn (fifo : List Nat) : State :=
  let s := (calling .search fresh (some searching)).modBlock 40 fun t => { t with corrected := 16 }
  { s with pool := { s.pool with fifo } }

/-- R108: with no FREE block the mark, else migration to the FIFO head; the lowest spare follows (R111). -/
theorem test_retirement : ((ran (.retirement 40) (worn [])).tapBlock 40).retirePending = true
    ∧ ((ran (.retirement 40) (worn [12])).tapBlock 12).segment = some 0
    ∧ ((ran (.retirement 40) (worn [12])).tapBlock 40).state = .failed
    ∧ (ran (.retirement 40) (worn [12])).pool.fifo = [256] := by decide +kernel

theorem test_dtHangoverEnd : ((ran (.dtHangoverEnd 5) (calling .search { fresh with dtFlag := true } none)).ctx 1).serving
    = some { fresh with dtFlag := false } := by decide +kernel

/-- R64: with segment 0 alone bound the NLP hangover is 64 samples. -/
theorem test_nlpHangoverExpiry :
    (let s := fun n => calling .search { fresh with nlp := .closed, inactive := n } (some searching)
     ((ran (.nlpHangoverExpiry 5) (s 64)).ctx 1).serving.map (·.nlp) = some .opened
       ∧ ((ran (.nlpHangoverExpiry 5) (s 63)).ctx 1).serving.map (·.nlp) = some .closed) := by decide +kernel

/-- The measures of a block whose SIN and error squares sum to 32 · 504² (R55), and its hold (R50). -/
theorem test_blockEnd :
    (let sv := { talking 32 with block := ⟨true, 32, 32 * 254016, 32 * 254016, true, false⟩ }
     ((ran (.blockEnd 5) (calling .track sv (some searching))).ctx 1).serving.map
         (fun v => (v.msSin, v.msErr, v.noise, v.phase, v.hold))
       = some (254016, 254016, 65, 0, some ⟨true, 32, 65032192⟩)) := by decide +kernel

theorem test_pathChange : (let s := calling .track { fresh with pathRun := 32 } (some searching)
    ((ran (.pathChange 5) s).ctx 1).callState = .search
      ∧ ((ran (.pathChange 5) s).ctx 1).search.map (fun r => (r.pass, r.bound.length)) = some (1, 8)
      ∧ (ran (.pathChange 5) s).lane.queue.map (·.msg.kind) = [3]) := by decide +kernel

/-- A pass whose one segment is empty, at dwell 64. -/
def dwelt (explored : List Nat) : SearchRecord := { searching with explored, dwell := 64 }

/-- R84: with segments left the block is bound to the lowest of them, with none left the call goes level-only. -/
theorem test_evaluation :
    ((ran (.evaluation 5) (calling .search fresh (some (dwelt [0])))).ctx 1).search.map (fun r => (r.bound, r.pass))
        = some ([(1, 40)], 2)
      ∧ ((ran (.evaluation 5) (calling .search fresh (some (dwelt (List.range 16))))).ctx 1).callState = .track := by
  decide +kernel

theorem test_toneHold :
    (let s := calling .track { fresh with nlp := .closed, toneSend := { Tone.cleared with qualified := true } } none
     ((ran (.toneHold 5) s).ctx 1).toneHold = true
       ∧ ((ran (.toneHold 5) s).ctx 1).serving.map (·.nlp) = some .opened) := by decide +kernel

/-- Both directions' release run counts at 63 (R133). -/
def quietTones : Serving :=
  { fresh with toneReceive := { Tone.cleared with release := 63 }, toneSend := { Tone.cleared with release := 63 } }

theorem test_toneHoldRelease :
    ((ran (.toneHoldRelease 5) (withHome { onSlot5 .track quietTones none with toneHold := true } (station .run))).ctx
      1).toneHold = false := by decide +kernel

theorem test_disabledRelease : ((ran (.disabledRelease 5) (calling .disabled quietTones none)).ctx 1).callState = .search
    ∧ ((ran (.disabledRelease 5) (calling .disabled quietTones none)).ctx 1).search.map (·.pass) = some 1 := by
  decide +kernel

/-- The premises on samples: slot 6 unserved; slot 5 in its call states, with the two pairs of steady serving in its
pipeline (R3). -/
theorem witness_PassingSlotsAndPipeline :
    ((station .run).profile.station ≠ .held ∧ (station .run).highway.sync = .locked ∧ (station .run).servedBy 6 = none)
    ∧ (let s := calling .bypass fresh none
       let pair : Placed := ⟨100, 0x8A, 0x0A⟩
       let s := { s with highway.pipeline := s.highway.pipeline.set 5 [pair, ⟨101, 0x11, 0x12⟩] }
       s.servesWith 5 1 fresh ∧ s.highway.sync = .locked ∧ s.highway.pipeline.length = 128
         ∧ (s.ctx 1).callState = .bypass
         ∧ (s.highway.pipeline.getD 5 []).find? (fun q => decide (q.frame = s.frame)) = some pair
         ∧ (ran (.sample 5 0xD5 0x55 []) s).highway.lines = ⟨some 5, some ⟨0x8A, 0x0A⟩⟩)
    ∧ ((calling .disabled fresh none).servesWith 5 1 fresh ∧ ((calling .disabled fresh none).ctx 1).callState = .disabled
      ∧ ∀ q ∈ (calling .disabled fresh none).highway.pipeline.getD 5 [], q.frame ≠ 100)
    ∧ (calling .idle fresh none).servesWith 5 1 fresh ∧ ((calling .idle fresh none).ctx 1).callState = .idle
      ∧ silent (calling .idle fresh none).highway.idleCodes 0xD5 0x55 = true := by decide +kernel
/-- The highest idle run and the last block phase at which a silent sample is still a plain one. -/
theorem witness_plainSample :
    (calling .track { talking 30 with idleRun := 798 } (some searching)).plainSample 5 1
        { talking 30 with idleRun := 798 } 0xD5 0x55
      ∧ (calling .search (talking 0) (some searching)).plainSample 5 1 (talking 0) 0x8A 0x8A
      ∧ (calling .search (talking 0) (some searching)).highway.pipeline.length = 128
      ∧ (calling .search (talking 0) (some searching)).boundDistinct 1
      ∧ ((calling .search (talking 0) (some searching)).tapBlock 40).entries.length = 64 := by decide +kernel
/-- In DISABLED a sound and a silent sample, the tone switch on, within a block. -/
theorem witness_SampleSendPath :
    (talking 0).noise ≤ 16384
    ∧ (let s := calling .disabled fresh none
       s.servesWith 5 1 fresh ∧ s.highway.sync = .locked ∧ (s.ctx 1).callState = .disabled ∧ fresh.callPresent = true
         ∧ silent s.highway.idleCodes 0x8A 0xD5 = false ∧ silent s.highway.idleCodes 0xD5 0x55 = true
         ∧ fresh.idleRun + 1 < s.highway.idleCount ∧ fresh.phase + 1 < 32 ∧ (s.profileOf 1).tone = true) := by
  decide +kernel

/-! ### Blocks and block ends -/

/-- Slot 5 in a call, the FIFO at `fifo`. -/
def reading (st : CallState) (r : SearchRecord) (fifo : List Nat) : State :=
  stocked fifo (calling st (talking 0) (some r))

/-- A call in SEARCH, its one or two bound segments and its spare hand, where no block is FREE. -/
def scarce (two : Bool) (spare : List Nat) : State :=
  let r := { searching with spare, map := if two then [⟨0, .block 40⟩, ⟨1, .block 41⟩] else [⟨0, .block 40⟩],
                            explored := [0, 1] }
  let s := calling .search (talking 0) (some r)
  let s := if two then s.bindBlock 1 1 41 else s
  stocked [] (spare.foldl (fun s b => s.reserveBlock 1 b) s)

theorem witness_SampleFindsMemoryErrors :
    ((reading .search searching [12]).plainSample 5 1 (talking 0) 0x8A 0x8A
      ∧ ((reading .search searching [12]).ctx 1).search = some searching ∧ (0, 40) ∈ searching.bound
      ∧ ((reading .search searching [12]).tapBlock 40).corrected + 1 < 16
      ∧ (reading .search searching [12]).pool.fifo.head? = some 12
      ∧ (reading .search searching [12]).lane.queue = [])
    ∧ (let worn := fun fifo =>
         (reading .track { searching with want := 1 } fifo).modBlock 40 fun t => { t with corrected := 15 }
       16 ≤ ((worn []).tapBlock 40).corrected + 1 ∧ ((worn []).tapBlock 40).retirePending = false
         ∧ (worn []).pool.fifo = [] ∧ (worn [12]).pool.fifo.head? = some 12
         ∧ (worn [12]).plainSample 5 1 (talking 0) 0x8A 0x8A ∧ (worn []).poolCheck = true ∧ (worn [12]).poolCheck = true)
    ∧ ((scarce true []).plainSample 5 1 (talking 0) 0x8A 0x8A ∧ (scarce true []).pool.fifo = []
      ∧ (scarce true []).poolCheck = true ∧ (scarce false [50]).poolCheck = true ∧ (scarce false []).poolCheck = true
      ∧ ((scarce false [50]).ctx 1).search.map (·.bound.length) = some 1 ∧ 0 < searching.want) := by decide +kernel
theorem witness_SampleFindsMemoryErrors_sound : (reading .search searching [12]).poolSound :=
  State.poolSound_of_check (by decide +kernel)
/-- Every SPARE block has been placed and has failed. -/
def spareless (s : State) : State :=
  { s with pool.blocks := s.pool.blocks.map fun (t : TapBlock) =>
      if t.state == .spare then { t with state := .failed } else t }

/-- With no SPARE block left the last loss in TRACK leaves its segment unfilled (R93). -/
theorem witness_SampleFindsMemoryErrors_last :
    (let s := spareless (reading .track { searching with want := 1 } [])
     s.plainSample 5 1 (talking 0) 0x8A 0x8A ∧ s.poolCheck = true ∧ s.pool.fifo = [] ∧ s.countBlocks .spare = 0
       ∧ (s.ctx 1).callState = .track ∧ 1 ∉ s.pool.shortfall) := by decide +kernel
/-- With no SPARE block left the loss in SEARCH of one of two bound segments, of the only one beside a spare hand, and of
the only one without (R92). -/
theorem witness_SampleFindsMemoryErrors_search :
    (let s := spareless (scarce true [])
     s.plainSample 5 1 (talking 0) 0x8A 0x8A ∧ s.poolCheck = true ∧ s.pool.fifo = [] ∧ s.countBlocks .spare = 0
       ∧ (s.ctx 1).callState = .search ∧ s.pool.shortfall = [] ∧ (s.ctx 1).search.map (·.bound.length) = some 2)
    ∧ (let s := spareless (scarce false [50])
       s.poolCheck = true ∧ s.countBlocks .spare = 0
         ∧ (s.ctx 1).search.map (fun r => (r.bound.length, r.spare)) = some (1, [50]))
    ∧ (let s := spareless (scarce false [])
       s.poolCheck = true ∧ s.countBlocks .spare = 0
         ∧ (s.ctx 1).search.map (fun r => (r.bound.length, r.spare, decide (0 < r.want))) = some (1, [], true)) := by
  decide +kernel

/-- Slot 5 idle with the FIFO at `fifo`. -/
def resting (fifo : List Nat) : State := stocked fifo (withHome (onSlot5 .idle { fresh with callPresent := false } none)
  (station .run))

/-- R106, R107, R110: one wrong bit is corrected and counted, two fail the block, whose segment the FIFO head takes.
R81, R101, R158: a call start that obtains one block of eight starts pass 1, is short by 7 and is offered. R152: the RETURN
that a call start withdraws stays in the queue until the cell under way has ended. -/
theorem test_sample_pool :
    (let s := reading .track searching [12]
     let one := ran (.sample 5 0x8A 0x8A [⟨40, 3, 1⟩]) s
     let two := ran (.sample 5 0x8A 0x8A [⟨40, 3, 2⟩]) s
     (one.tapBlock 40).corrected = 1 ∧ (one.tapBlock 40).state = .assigned
       ∧ (two.tapBlock 40).state = .failed ∧ two.boundOf 1 = [(0, 12)] ∧ two.pool.fifo = [256]
       ∧ two.lane.queue.map (·.msg) = [.notice 5 (40 * 128 + 3 * 32) 1])
    ∧ (let t := ran (.sample 5 0x8A 0x8A []) (resting [12])
       (t.ctx 1).search.map (fun r => (r.bound, r.pass, r.want)) = some ([(0, 12)], 1, 8) ∧ t.pool.shortfall = [1]
         ∧ (t.ctx 1).role = .homeOffering
         ∧ t.lane.queue.map (·.msg) = [.offer 5 8 0 0 1, .notice 3 (5 * 512 + 7 * 16) 1])
    ∧ (let s := withGuest { freeGuest with slot := some 6, role := .taken, callState := .idle,
                                           serving := some { fresh with callPresent := false } } (station .run)
       let e : Entry := ⟨.returnSlot 6 0 1, 100, none⟩
       let s := { s with lane := { s.lane with queue := [e], cell := some ⟨.a, none, 0, none, 0⟩ } }
       (ran (.sample 6 0x8A 0x8A []) s).lane.queue = [e]
         ∧ (ran (.sample 6 0x8A 0x8A []) s).lane.recalled = [e]) := by decide +kernel

theorem witness_CallStartRequestsBlocks :
    (let s := resting [12]
     s.servesWith 5 1 { fresh with callPresent := false } ∧ s.highway.sync = .locked ∧ s.profile.station = .run
       ∧ (s.ctx 1).callState = .idle ∧ silent s.highway.idleCodes 0x8A 0xD5 = false ∧ s.poolCheck = true
       ∧ (s.ctx 1).slot = some 5 ∧ s.lane.queue.length ≤ 13 ∧ (s.ctx 1).role = .homeServing
       ∧ (s.profileAt (s.ctx 1).profile).budget = 8 ∧ (s.profileAt (s.ctx 1).profile).reach = 16
       ∧ min 8 s.pool.fifo.length = 1)
    ∧ (resting (List.range 9)).poolCheck = true ∧ (resting []).poolCheck = true
    ∧ (queued .search (newSearch 8) (resting [])).poolCheck = true := by decide +kernel

/-- Slot 5's call, which holds block 40, is about to end while slot 9 waits. -/
def releasing (st : CallState) (r : SearchRecord) : State :=
  stocked [] (queued st r (calling .search { fresh with ending := true } (some searching)))

/-- Slot 9 with a segment unfilled in TRACK. -/
def unfilled : SearchRecord := { newSearch 1 with map := [⟨7, .unfilled⟩], pass := 3 }

theorem witness_ReleasedBlockGoesToQueueHead :
    (let s := releasing .search (newSearch 8)
     s.servesWith 5 1 { fresh with ending := true } ∧ (s.ctx 1).callState.processes = true ∧ s.poolCheck = true
       ∧ s.heldBlocks 1 = [40] ∧ 1 ∉ s.pool.shortfall ∧ s.pool.shortfall = [2] ∧ (s.ctx 2).search = some (newSearch 8)
       ∧ (s.tapBlock 40).retirePending = false ∧ ((newSearch 8).unexplored (s.profileOf 2).reach).head? = some 0)
    ∧ (releasing .search { newSearch 8 with status := .inPass, pass := 1 }).poolCheck = true
    ∧ ((releasing .track unfilled).poolCheck = true
      ∧ unfilled.map.find? (fun e => e.fill == .unfilled) = some ⟨7, .unfilled⟩ ∧ unfilled.want ≤ unfilled.held + 1)
    ∧ (let s := (releasing .track unfilled).modBlock 40 fun t => { t with retirePending := true }
       s.poolCheck = true ∧ (s.tapBlock 40).retirePending = true
         ∧ ((List.range 264).filter fun a => (s.tapBlock a).state == .spare).head? = some 256) := by decide +kernel
/-- R91, R102, R103: the released block fills the unfilled segment of the context that waits, which leaves the queue. -/
theorem test_callEnd_delivers :
    (let t := ran (.callEnd 5) (releasing .track unfilled)
     t.boundOf 2 = [(7, 40)] ∧ t.pool.shortfall = [] ∧ t.pool.fifo = []) := by decide +kernel
/-- In BYPASS a silent sample that ends the call, one that does not, and a sound one; a TAKEN guest's call start with its
RETURN queued, between cells and within one. -/
theorem witness_IdleRecognitionAndCallStart :
    (let sv := { fresh with idleRun := 799 }
     let s := calling .bypass sv none
     s.servesWith 5 1 sv ∧ s.highway.sync = .locked ∧ (s.ctx 1).slot = some 5 ∧ (s.ctx 1).callState = .bypass
       ∧ silent s.highway.idleCodes 0xD5 0x55 = true ∧ silent s.highway.idleCodes 0x8A 0xD5 = false
       ∧ sv.callPresent = true ∧ s.highway.idleCount ≤ min 4095 (sv.idleRun + 1) ∧ fresh.idleRun + 1 < s.highway.idleCount)
    ∧ (let e : Entry := ⟨.returnSlot 6 0 1, 100, none⟩
       let s := queueing e (withGuest (taken .idle false) (station .run))
       s.servesWith 6 32 { fresh with callPresent := false } ∧ (s.ctx 32).slot = some 6 ∧ (s.ctx 32).role = .taken
         ∧ s.lane.cell = none ∧ (sending e.msg s).lane.cell ≠ none ∧ e ∈ (sending e.msg s).lane.queue
         ∧ e.isReturn 6 = true) := by decide +kernel
theorem witness_IdleRecognitionAndCallStart_call :
    (let sv := { fresh with callPresent := false, phase := 31 }
     let s := calling .idle sv none
     s.servesWith 5 1 sv ∧ s.highway.sync = .locked ∧ s.profile.station = .run ∧ (s.ctx 1).callState = .idle
       ∧ sv.callPresent = false ∧ silent s.highway.idleCodes 0x8A 0xD5 = false
       ∧ 1 ≤ (s.profileAt (s.ctx 1).profile).reach) := by decide +kernel
theorem witness_CallEndGoesIdle :
    (let sv := { fresh with idleRun := 800, ending := true }
     (calling .search sv (some searching)).servesWith 5 1 sv ∧ sv.callPresent = true
       ∧ sv.ending = true
       ∧ (calling .disabled sv none).servesWith 5 1 sv ∧ (calling .bypass sv none).servesWith 5 1 sv) := by
  decide +kernel
theorem witness_RetirementMigratesOrMarks :
    ((worn []).profile.station ≠ .held ∧ (worn []).pool.blocks.length = 264 ∧ ((worn []).tapBlock 40).state = .assigned
      ∧ 16 ≤ ((worn []).tapBlock 40).corrected ∧ ((worn []).tapBlock 40).retirePending = false ∧ (worn []).pool.fifo = [])
    ∧ ((worn [12]).pool.fifo = [12] ∧ ((worn [12]).tapBlock 12).state = .free ∧ (worn [12]).pool.shortfall = []
      ∧ ((worn [12]).tapBlock 40).owner = some ⟨1, 5⟩ ∧ ((worn [12]).tapBlock 40).segment = some 0
      ∧ ((worn [12]).ctx 1).search = some searching) := by decide +kernel
theorem witness_HangoverAndToneHoldEvents :
    (calling .search { fresh with dtFlag := true } none).servesWith 5 1 { fresh with dtFlag := true }
    ∧ (let sv := { fresh with nlp := .closed, inactive := 64 }
       (calling .search sv (some searching)).servesWith 5 1 sv
         ∧ ∀ jb ∈ (calling .search sv (some searching)).boundOf 1, 64 * (jb.1 + 1) ≤ sv.inactive)
    ∧ (let sv := { fresh with toneSend := { Tone.cleared with qualified := true } }
       (calling .track sv none).servesWith 5 1 sv ∧ ((calling .track sv none).ctx 1).toneHold = false)
    ∧ (let s := withHome { onSlot5 .track quietTones none with toneHold := true } (station .run)
       s.servesWith 5 1 quietTones ∧ (s.ctx 1).toneHold = true ∧ quietTones.toneReceive.release = 63) := by decide +kernel
theorem witness_BlockEndMeasures : (calling .search (talking 32) (some searching)).servesWith 5 1 (talking 32) ∧
    ((calling .search (talking 32) (some searching)).ctx 1).callState.processes = true ∧
    (talking 32).block.leadIn = false ∧ 32 ≤ (talking 32).phase := by decide +kernel
theorem witness_BlockEndMeasures_leadIn :
    (let sv := { talking 32 with block := { fresh.block with leadIn := true } }
     (calling .search sv (some searching)).servesWith 5 1 sv ∧ sv.block.leadIn = true ∧ 32 ≤ sv.phase) := by
  decide +kernel
/-- A rise due at the upper limit, and a peak at the lower one (R123, R125). -/
theorem witness_BlockEndControlsLevels :
    (let sv := { talking 32 with send := { Level.start 24 with spacing := 31 }
                                 receive := { Level.start (-36) with peak := true } }
     (calling .track sv (some searching)).servesWith 5 1 sv ∧ sv.block.leadIn = false
       ∧ (-36 ≤ sv.send.gain ∧ sv.send.gain ≤ 24) ∧ -36 ≤ sv.receive.gain ∧ sv.receive.gain ≤ 24) := by decide +kernel
/-- A tone block that completes a run of 100, a reversal of a qualified tone, and a switch that is off (R130, R131). -/
theorem witness_BlockEndTestsTones :
    (let tone := { Tone.cleared with c := 212079000, s := 154084000, e := 16000000, run := 99 }
     let sv := { talking 32 with toneReceive := tone }
     (calling .track sv (some searching)).servesWith 5 1 sv
       ∧ ((calling .track sv (some searching)).profileOf 1).tone = true
       ∧ (tone.qualified = true ∨ sv.toneSend.qualified = true →
          ((calling .track sv (some searching)).ctx 1).toneHold = true)
       ∧ ((ran (.blockEnd 5) (calling .track sv (some searching))).ctx 1).toneHold = true)
    ∧ (let tone := { Tone.cleared with c := 212079000, s := 154084000, e := 16000000, run := 100, qualified := true,
                                       previous := some ⟨-212079000, -154084000, true⟩ }
       let sv := { talking 32 with toneReceive := tone }
       let s := (calling .track sv (some searching)).modCtx 1 fun c => { c with toneHold := true }
       s.servesWith 5 1 sv ∧ (s.ctx 1).toneHold = true)
    ∧ (let s := { calling .track (talking 32) (some searching) with
                    profile := { profileReset 1 4 false with
                      station := .run, profiles := [{ defaultProfile 0 with tone := false }] } }
       s.servesWith 5 1 (talking 32) ∧ (s.profileOf 1).tone = false) := by decide +kernel
/-- Where the TONE DISABLE notice is the one message: a level-only call, no path change due. -/
theorem witness_BlockEndTestsTones_notice :
    (let tone := { Tone.cleared with c := 212079000, s := 154084000, e := 16000000, run := 100, qualified := true,
                                     previous := some ⟨-212079000, -154084000, true⟩ }
     let sv := { talking 32 with toneReceive := tone }
     let s := withHome { onSlot5 .track sv (some (newSearch 0)) with toneHold := true } (station .run)
     s.servesWith 5 1 sv ∧ s.poolCheck = true ∧ s.heldBlocks 1 = [] ∧ sv.pathRun ≤ 30 ∧ 1 ∉ s.pool.shortfall
       ∧ maskBit s.profile.noticeMask 7 = true ∧ s.lane.queue.length < 16 ∧ (newSearch 0).dwell ≤ 62) := by decide +kernel
theorem witness_BlockEndCommits :
    (let sv := { talking 32 with hold := some ⟨true, 32, 65032192⟩, pathRun := 30,
                                 toneSend := { Tone.cleared with run := 98 } }
     let s := calling .track sv (some searching)
     s.servesWith 5 1 sv ∧ (s.ctx 1).callState = .track ∧ sv.block.leadIn = false ∧ 32 ≤ sv.phase
       ∧ sv.block.clean = true ∧ sv.pathRun ≤ 30 ∧ sv.toneReceive.qualified = false ∧ sv.toneSend.run ≤ 98
       ∧ sv.toneSend.reversal = false ∧ s.boundDistinct 1 ∧ s.boundOf 1 = [(0, 40)])
    ∧ (let r := { searching with dwell := 62 }
       let s := calling .search (talking 32) (some r)
       s.servesWith 5 1 (talking 32) ∧ (s.ctx 1).search = some r ∧ r.dwell ≤ 62 ∧ (talking 32).hold = none) := by
  decide +kernel
/-- One FREE block and the call's own block 40: the request behind them obtains both. -/
theorem witness_PathChangeSearchesAgain :
    (let sv := { fresh with pathRun := 32 }
     let s := stocked [12] (calling .track sv (some { searching with want := 1 }))
     s.servesWith 5 1 sv ∧ (s.ctx 1).callState = .track ∧ 32 ≤ sv.pathRun ∧ 0 < (s.profileOf 1).budget
       ∧ 0 < (s.profileOf 1).reach ∧ s.poolCheck = true ∧ s.pool.shortfall = [] ∧ s.heldBlocks 1 = [40]
       ∧ (s.tapBlock 40).retirePending = false ∧ [12, 40].Perm ((s.pool.fifo ++ [40]).take (min 8 2))
       ∧ [12, 40].Pairwise (· < ·) ∧ (ran (.pathChange 5) s).boundOf 1 = [(0, 12), (1, 40)]) := by decide +kernel
/-- A pass at its end over segments 0 and 1, of which segment 0 is significant; all or some segments explored. -/
def passed (explored : List Nat) (second : List TapEntry) : State :=
  let r := { newSearch 8 with map := [⟨0, .block 40⟩, ⟨1, .block 41⟩], explored, pass := 1,
                              status := .inPass, dwell := 64 }
  let s := (calling .search fresh (some r)).bindBlock 1 1 41
  (s.modBlock 40 fun t => { t with entries := echoing }).modBlock 41 fun t => { t with entries := second }

/-- The pool of `passed`. -/
def passedPool (explored : List Nat) (second : List TapEntry) : State :=
  stocked [12, 13] (passed explored second)

/-- R84, R86, R87: segment 0 is retained, its neighbour 1 stands in the plan and keeps its block and coefficients. -/
theorem test_evaluation_keeps_neighbour :
    (let t := ran (.evaluation 5) (passedPool (List.range 16) (⟨7, 0, 0⟩ :: List.replicate 63 ⟨0, 0, 0⟩))
     t.boundOf 1 = [(0, 40), (1, 41)] ∧ (t.ctx 1).callState = .track ∧ ((t.tapBlock 41).entries.getD 0 ⟨0, 0, 0⟩).h = 7
       ∧ (t.ctx 1).search.map (·.want) = some 2) := by decide +kernel

theorem witness_EvaluationNextStep :
    (let s := passedPool [0, 1] zeroTaps
     s.servesWith 5 1 fresh ∧ (s.ctx 1).callState = .search ∧ s.poolCheck = true
       ∧ (s.ctx 1).search.map (fun r => (r.status, r.dwell, r.bound)) = some (.inPass, 64, [(0, 40), (1, 41)])
       ∧ s.energyAt (0, 40) = 2 ^ 20 ∧ s.energyAt (1, 41) = 0)
    ∧ (passedPool (List.range 16) zeroTaps).poolCheck = true
    ∧ { stocked [] (passed [0, 1] echoing) with pool.shortfall := [1] }.poolCheck = true
    ∧ (dwelt (List.range 16)).unexplored 16 = [] := by decide +kernel
theorem witness_EvaluationNextStep_order :
    (∀ r, ((passedPool [0, 1] zeroTaps).ctx 1).search = some r →
      (passedPool [0, 1] zeroTaps).significantOrder r [(0, 40)])
    ∧ (∀ r, ((stocked [] (passed [0, 1] echoing)).ctx 1).search = some r →
      (stocked [] (passed [0, 1] echoing)).significantOrder r [(0, 40), (1, 41)])
    ∧ (calling .search fresh (some (dwelt (List.range 16)))).significantOrder (dwelt (List.range 16)) [] := by
  refine ⟨fun r h => ?_, fun r h => ?_, ?_⟩
  · cases h; unfold State.significantOrder; decide +kernel
  · cases h; unfold State.significantOrder; decide +kernel
  · unfold State.significantOrder; decide +kernel
theorem witness_SearchEndPlansAndFills :
    (let s := passedPool (List.range 16) zeroTaps
     s.servesWith 5 1 fresh ∧ (s.ctx 1).callState = .search ∧ s.poolCheck = true ∧ s.pool.shortfall = []
       ∧ (s.profileOf 1).budget = 8 ∧ s.hearsCard 15 ∧ fresh.failed = []
       ∧ (s.ctx 1).search.map (fun r => (r.unexplored (s.profileOf 1).reach, r.spare)) = some ([], []))
    ∧ (passedPool [0, 1] zeroTaps).hearsCard 15 ∧ (passedPool [0, 1] zeroTaps).poolCheck = true
    ∧ (stocked [] (passed (List.range 16) zeroTaps)).poolCheck = true := by decide +kernel
theorem witness_SearchEndPlansAndFills_order :
    ∀ r, ((passedPool (List.range 16) zeroTaps).ctx 1).search = some r →
      (passedPool (List.range 16) zeroTaps).significantOrder r [(0, 40)] := by
  intro r h; cases h; unfold State.significantOrder; decide +kernel
/-- Slot 5 in DISABLED with the FIFO at `fifo`. -/
def disabled (sv : Serving) (fifo : List Nat) : State :=
  stocked fifo (withHome (onSlot5 .disabled sv none) (station .run))

/-- A DISABLED block end whose receive direction is quiet and has counted `n` release blocks, the send direction 63. -/
def quietBlock (n : Nat) : Serving :=
  { talking 32 with toneReceive := { Tone.cleared with release := n, e := 5 }
                    toneSend := { Tone.cleared with release := 63, e := 32767 } }

theorem witness_DisabledReleaseAndPassingBlockEnds :
    (let s := disabled quietTones [12]
     s.servesWith 5 1 quietTones ∧ (s.ctx 1).callState = .disabled ∧ quietTones.toneReceive.release = 63
       ∧ quietTones.toneSend.release = 63 ∧ (s.profileOf 1).budget = 8 ∧ (s.profileOf 1).reach = 16
       ∧ s.poolCheck = true ∧ s.pool.shortfall = [] ∧ [12].Perm (s.pool.fifo.take (min 8 1)))
    ∧ (let s := disabled { quietTones with profile := 7 } [12]
       s.servesWith 5 1 { quietTones with profile := 7 } ∧ (s.profileOf 1).budget = 0 ∧ s.poolCheck = true
         ∧ s.pool.shortfall = [])
    ∧ ((disabled (quietBlock 61) []).servesWith 5 1 (quietBlock 61)
      ∧ (disabled (quietBlock 62) []).servesWith 5 1 (quietBlock 62) ∧ (quietBlock 62).block.leadIn = false
      ∧ 32 ≤ (quietBlock 62).phase ∧ ((disabled (quietBlock 62) []).profileOf 1).tone = true
      ∧ ((ran (.blockEnd 5) (disabled (quietBlock 61) [])).ctx 1).callState = .disabled
      ∧ ((ran (.blockEnd 5) (disabled (quietBlock 62) [])).ctx 1).callState = .search)
    ∧ (let s := { disabled (quietBlock 62) [] with
                    profile := { profileReset 1 4 false with
                      station := .run, profiles := [{ defaultProfile 0 with tone := false }] } }
       s.servesWith 5 1 (quietBlock 62) ∧ (s.profileOf 1).tone = false)
    ∧ (let sv := { talking 32 with block := { fresh.block with leadIn := true } }
       (calling .idle sv none).servesWith 5 1 sv ∧ (calling .bypass sv none).servesWith 5 1 sv ∧ 32 ≤ sv.phase) := by
  decide +kernel

/-! ### Frame boundaries and sharing -/

/-- Slot 5 HANDED to station 2. -/
def handed : Context := { homeContext 5 with role := .handed, server := some 2 }

/-- Slot 5 HOME-OFFERING with its OFFER carried in frame `o`. -/
def offering (o : Nat) (best : Option (Nat × Nat)) : State :=
  withHome { onSlot5 .search fresh (some (newSearch 8)) with role := .homeOffering, offer := some ⟨some o, best⟩ }
    (station .run)

/-- Slot 6 RESERVED with two blocks, its BID carried in frame `b`. -/
def bidder (b : Option Nat) : State :=
  let s := withGuest { freeGuest with slot := some 6, role := .reserved, profile := 3,
                                      reservation := some ⟨2, 3, 32, b⟩ } (station .run)
  { (s.reserveBlock 32 40).reserveBlock 32 41 with pool.fifo := [50] }

/-- Slot 6 an orphan, or with this station's ADOPT carried in frame `a`. -/
def orphaned (adopting : List (Nat × Nat)) : State :=
  { station .run with share := { sharingReset with absence := List.replicate 128 8, adopting } }

/-- No guest context is free. -/
def crowded (s : State) : State :=
  { s with table.contexts := s.table.contexts.map fun c => if c.kind = .guest then taken .idle true else c }

/-- Slot 5 RECLAIMING, its RECLAIM carried in frame 50. -/
def reclaiming (age : Nat) : State :=
  withHome { homeContext 5 with role := .reclaiming, reclaim := some ⟨age, some 50, 0⟩ } (station .run)

/-- R138, R169: the marks of the others enter the LISTEN record, and the sixteenth frame is the last. -/
theorem test_frameBoundary : (ran (.frameBoundary 32) (station .listen)).share.listenMarks = 32
    ∧ (ran (.frameBoundary 32) (station .listen)).frame = 101
    ∧ (ran (.frameBoundary 32) (station .listen)).profile.listenFrames = 1
    ∧ (calling .search fresh none).marks = 32 := by decide +kernel
theorem test_judgeAbsence : ((judgeAbsence 1 (withHome handed (station .run))).ctx 1).callState = .idle
    ∧ ((judgeAbsence 1 (withHome handed (station .run))).ctx 1).role = .homeServing := by decide +kernel

/-- Worked adoption (10): the ADOPT carries FREE, here 255 at most; 8 unmarked frames are needed. -/
theorem test_orphan : (ran (.orphan 6) (orphaned [])).lane.queue.map (·.msg) = [.adopt 6 255 1]
    ∧ (ran (.orphan 5) (orphaned [])).lane.queue = [] ∧ (ran (.orphan 6) (station .run)).lane.queue = [] := by
  decide +kernel
theorem test_adoptJudgement : ((ran (.adoptJudgement 6) (orphaned [(6, 98)])).ctx 32).role = .actingHome
    ∧ (ran (.adoptJudgement 6) (orphaned [(6, 99)])).lookup 6 = none
    ∧ (ran (.adoptJudgement 6) (crowded (orphaned [(6, 98)]))).lane.queue.map (·.msg) = [.returnSlot 6 2 1] := by
  decide +kernel

/-- Worked hand-off (10): at the boundary after o+4 the best bidder, station 2, is granted the slot. -/
theorem test_offerWindowEnd :
    (ran (.offerWindowEnd 5) (offering 95 (some (2, 32)))).lane.queue.map (·.msg) = [.grant 5 2 1]
      ∧ (ran (.offerWindowEnd 5) (offering 96 (some (2, 32)))).lane.queue = []
      ∧ ((ran (.offerWindowEnd 5) (offering 95 none)).ctx 1).role = .homeServing
      ∧ (ran (.offerWindowEnd 5) (offering 95 none)).lane.queue.map (·.msg) = [.notice 4 0x0A00 1] := by decide +kernel
theorem test_bidWindowExpiry :
    (ran (.bidWindowExpiry 6) (queueing ⟨.bid 6 32 1, 96, some 95⟩ (bidder none))).pool.fifo = [50, 40, 41]
      ∧ (ran (.bidWindowExpiry 6) (queueing ⟨.bid 6 32 1, 97, some 96⟩ (bidder none))).pool.fifo = [50] := by
  decide +kernel
theorem test_grantStale :
    ((ran (.grantStale 5) (queueing ⟨.grant 5 2 1, 96, some 91⟩ (offering 91 (some (2, 32))))).ctx 1).role = .homeServing
      ∧ ((ran (.grantStale 5) (queueing ⟨.grant 5 2 1, 97, some 92⟩ (offering 92 (some (2, 32))))).ctx 1).role
          = .homeOffering := by decide +kernel
theorem test_bidTimeout : (ran (.bidTimeout 6) (bidder (some 91))).lookup 6 = none
    ∧ (ran (.bidTimeout 6) (bidder (some 92))).lookup 6 = some 32 := by decide +kernel
theorem test_offerMemoryExpiry :
    (let s := fun o => (station .run).setOffer 6 (some ⟨2, 8, 0, false, o⟩)
     (ran (.offerMemoryExpiry 6) (s 91)).share.offers.getD 6 none = none
       ∧ ((ran (.offerMemoryExpiry 6) (s 92)).share.offers.getD 6 none).isSome) := by decide +kernel
theorem test_handOver :
    (let s := withHome { onSlot5 .search fresh (some searching) with
                           role := .homeOffering, stopAt := some 100, grantee := some 2 } (calling .search fresh none)
     ((ran (.handOver 5) s).ctx 1).role = .handed ∧ ((ran (.handOver 5) s).ctx 1).server = some 2
       ∧ ((ran (.handOver 5) s).tapBlock 40).state = .free)
    ∧ (let s := (bidder (some 95)).modCtx 32 fun c => { c with startAt := some 100 }
       ((ran (.handOver 6) s).ctx 32).role = .taken
         ∧ ((ran (.handOver 6) s).ctx 32).search.map (·.bound) = some [(0, 40), (1, 41)]
         ∧ ((ran (.handOver 6) s).ctx 32).serving.map (·.profile) = some 3) := by decide +kernel
theorem test_reclaimAgeExpiry : (ran (.reclaimAgeExpiry 5) (reclaiming 8000)).lane.queue.map (·.msg) = [.reclaim 5 1]
    ∧ (ran (.reclaimAgeExpiry 5) (reclaiming 7999)).lane.queue = [] := by decide +kernel

theorem witness_FrameBoundaryTakesMarks : (station .listen).highway.sync = .locked ∧
    (station .listen).profile.station = .listen := by decide +kernel
theorem witness_FrameBoundaryJudgesSlots :
    ((orphaned []).highway.sync = .locked ∧ (orphaned []).profile.station = .run
      ∧ ¬((orphaned []).profile.k < (orphaned []).profile.n ∧ 127 % (orphaned []).profile.n = (orphaned []).profile.k))
    ∧ (let s := withHome handed (station .run)
       s.highway.sync = .locked ∧ s.profile.station.serves = true ∧ s.table.contexts.length = 64 ∧ (s.ctx 1).kind = .home
         ∧ (s.ctx 1).slot = some 5 ∧ (s.ctx 1).role = .handed ∧ (0xDF : BitVec 128).getLsbD 5 = false
         ∧ s.servedBy 5 = none)
    ∧ (let s := reclaiming 7999
       s.servedBy 5 = none ∧ (s.ctx 1).role = .reclaiming ∧ (s.ctx 1).reclaim = some ⟨7999, some 50, 0⟩ ∧ 0 ≤ s.frame
         ∧ 50 < s.frame ∧ (32 : BitVec 128).getLsbD 5 = true ∧ (s.ctx 1).startAt = none ∧ (s.ctx 1).stopAt = none
         ∧ (s.ctx 1).slot = some 5) := by decide +kernel
theorem witness_FrameBoundaryJudgesSlots_sound :
    (withHome handed (station .run)).slotsSound ∧ (reclaiming 7999).slotsSound :=
  ⟨State.slotsSound_of_check (by decide +kernel), State.slotsSound_of_check (by decide +kernel)⟩
theorem witness_FrameBoundaryJudgesSlots_listen :
    (let s := { station .listen with profile := { (station .listen).profile with listenFrames := 14 } }
     s.highway.sync = .locked ∧ s.profile.station = .listen ∧ s.profile.listenFrames < 15 ∧ s.lane.recalled = []) := by
  decide +kernel
theorem witness_FrameBoundaryMeetsDeadlines :
    (let s := queueing ⟨.bid 6 32 1, 97, some 96⟩ (bidder (some 92))
     s.highway.sync = .locked ∧ s.profile.station = .run ∧ (s.ctx 32).reservation = some ⟨2, 3, 32, some 92⟩
       ∧ (s.ctx 32).role = .reserved ∧ (s.ctx 32).startAt = none ∧ 92 + 8 ≤ s.frame)
    ∧ (let s := queueing ⟨.grant 5 2 1, 97, some 92⟩ (offering 92 (some (2, 32)))
       ∃ e ∈ s.lane.queue, e.offerFrame = some 92 ∧ e.msg.kind = 13 ∧ e.eligible ≤ s.frame)
    ∧ (let s := withGuest (taken .idle false) (station .run)
       (s.ctx 32).slot = some 6 ∧ (s.ctx 32).serving.map (·.callPresent) = some false ∧ (s.ctx 32).role = .taken)
    ∧ ((withGuest { taken .idle false with role := .actingHome, pendingReturn := true } (station .run)).ctx 32).role
        = .actingHome
    ∧ ((offering 96 none).ctx 1).offer = some ⟨some 96, none⟩ ∧ 96 + 4 ≤ (offering 96 none).frame
    ∧ ((offering 96 (some (2, 32))).ctx 1).stopAt = none := by decide +kernel
theorem witness_FrameBoundaryMeetsDeadlines_sized : (bidder (some 92)).sized ∧ (offering 96 none).sized := by
  unfold State.sized; decide +kernel
theorem witness_FrameBoundaryMeetsDeadlines_slots :
    (bidder (some 92)).slotsSound ∧ (offering 96 none).slotsSound ∧ (offering 92 (some (2, 32))).slotsSound
      ∧ (withGuest (taken .idle false) (station .run)).slotsSound :=
  ⟨State.slotsSound_of_check (by decide +kernel), State.slotsSound_of_check (by decide +kernel),
    State.slotsSound_of_check (by decide +kernel), State.slotsSound_of_check (by decide +kernel)⟩
/-- A state whose queue is full: BIDs, then REPORTs, then NOTICEs. -/
def full (reports notices : Nat) (s : State) : State :=
  { s with lane.queue := List.replicate (16 - reports - notices) ⟨.bid 22 4 1, 96, none⟩
      ++ (List.range reports).map (fun n => ⟨.report 1 (BitVec.ofNat 9 n) 0 1, 97, none⟩)
      ++ (List.range notices).map fun n => ⟨.notice 1 (BitVec.ofNat 16 n) 1, 98, none⟩ }

/-- Full queues with and without a NOTICE and a REPORT, in the states in which the commands queue their messages; a GRANT's
refusal displaces the newest NOTICE, and a CONFIG REFUSED notice is dropped. -/
theorem witness_StepKeepsQueueAndCounts_full :
    (let s := full 2 3 (station .run)
     s.lane.queue.length = 16 ∧ s.hearsCard 15 ∧ s.profile.station = .run ∧ maskBit s.profile.noticeMask 9 = true
       ∧ 5 ≤ (5 : BitVec 3).toNat ∧ s.hearsStation 2 ∧ (1 : BitVec 4).toNat = s.profile.k ∧ s.lookup 5 = some 1
       ∧ (s.ctx 1).role ≠ .reserved
       ∧ (ran (.grant 5 1 2) s).lane.queue.map (·.msg.kind) = 14 :: List.replicate 11 12 ++ [4, 4, 3, 3]
       ∧ ((ran (.grant 5 1 2) s).lane.queue.getLast?.map (·.msg)) = some (.notice 1 1 1)
       ∧ (ran (.runMessage 15 0 800 2 0xD5 0x55 0 0 15) s).lane = { s.lane with drops := 1 })
    ∧ (let s := full 2 0 (reclaiming 8000)
       s.profile.station.serves = true ∧ s.lookup 5 = some 1 ∧ (s.ctx 1).slot = some 5 ∧ (s.ctx 1).role = .reclaiming
         ∧ (s.ctx 1).reclaim = some ⟨8000, some 50, 0⟩ ∧ ∀ e ∈ s.lane.queue, e.isReclaim 5 = false)
    ∧ (let s := full 0 0 (orphaned [])
       s.profile.station = .run ∧ s.isHome 6 = false ∧ s.share.absence.getD 6 0 = 8 ∧ s.lookup 6 = none
         ∧ (∀ e ∈ s.lane.queue, e.isAdopt 6 = false) ∧ s.share.adopting = [] ∧ s.freeGuest? = some 32) := by
  decide +kernel
theorem witness_StepKeepsQueueAndCounts_order : rankOrdered (full 2 3 (station .run)).lane.queue
    ∧ rankOrdered (full 2 0 (reclaiming 8000)).lane.queue ∧ rankOrdered (full 0 0 (orphaned [])).lane.queue := by
  unfold rankOrdered; decide +kernel
theorem witness_OrphanAdoption :
    ((orphaned []).profile.station = .run ∧ (orphaned []).isHome 6 = false
      ∧ (orphaned []).share.absence.getD 6 0 = 8 ∧ (orphaned []).lookup 6 = none ∧ (orphaned []).freeGuest? ≠ none
      ∧ (orphaned []).lane.queue.length < 16)
    ∧ ((6, 98) ∈ (orphaned [(6, 98)]).share.adopting ∧ 98 + 1 < (orphaned [(6, 98)]).frame
      ∧ (orphaned [(6, 98)]).otherMark 6 = false ∧ (orphaned [(6, 98)]).freeGuest? = some 32
      ∧ (orphaned [(6, 98)]).lookup 6 = none ∧ (orphaned [(6, 98)]).table.directory.length = 128)
    ∧ (crowded (orphaned [(6, 98)])).freeGuest? = none
    ∧ (let s := withGuest (taken .idle true) (orphaned [(6, 98)])
       s.freeGuest? = some 33 ∧ s.lookup 6 = some 32 ∧ s.otherMark 6 = false ∧ s.lane.queue.length < 16)
    ∧ ({ orphaned [(6, 98)] with lane.markRecord := 64 }).otherMark 6 = true := by decide +kernel
theorem witness_OfferEnds :
    ((offering 95 (some (2, 32))).profile.station = .run ∧ (offering 95 (some (2, 32))).lookup 5 = some 1
      ∧ ((offering 95 (some (2, 32))).ctx 1).slot = some 5
      ∧ ((offering 95 (some (2, 32))).ctx 1).role = .homeOffering
      ∧ ((offering 95 (some (2, 32))).ctx 1).offer = some ⟨some 95, some (2, 32)⟩ ∧ 95 + 4 < (offering 95 none).frame
      ∧ ((offering 95 none).ctx 1).offer = some ⟨some 95, none⟩
      ∧ ((offering 95 (some (2, 32))).ctx 1).stopAt = none ∧ (offering 95 (some (2, 32))).lane.queue.length < 16)
    ∧ (let s := queueing ⟨.grant 5 2 1, 96, some 91⟩ (offering 91 (some (2, 32)))
       s.lookup 5 = some 1 ∧ 1 < s.table.contexts.length ∧ (s.ctx 1).role = .homeOffering ∧ (s.ctx 1).stopAt = none
         ∧ (∃ e ∈ s.lane.queue, e.isGrant 5 = true ∧ e.offerFrame = some 91) ∧ 91 + 8 < s.frame)
    ∧ (let s := (station .run).setOffer 6 (some ⟨2, 8, 0, false, 91⟩)
       s.share.offers.getD 6 none = some ⟨2, 8, 0, false, 91⟩ ∧ 91 + 8 < s.frame) := by decide +kernel
theorem witness_BidEnds :
    (let s := queueing ⟨.bid 6 32 1, 96, some 95⟩ (bidder none)
     s.profile.station = .run ∧ s.lookup 6 = some 32 ∧ s.table.directory.length = 128 ∧ (s.ctx 32).slot = some 6
       ∧ (s.ctx 32).role = .reserved ∧ (s.ctx 32).callState = .notServing ∧ (s.ctx 32).startAt = none
       ∧ s.pool.shortfall = [] ∧ s.pool.blocks.length = 264 ∧ s.reservedFor 32 = [40, 41]
       ∧ (∀ b ∈ s.reservedFor 32, (s.tapBlock b).retirePending = false)
       ∧ (∃ e ∈ s.lane.queue, e.isBid 6 = true ∧ e.offerFrame = some 95) ∧ 95 + 4 < s.frame)
    ∧ ((bidder (some 91)).ctx 32).reservation = some ⟨2, 3, 32, some 91⟩ ∧ 91 + 8 < (bidder (some 91)).frame := by
  decide +kernel
theorem witness_HandOverTakesEffect :
    (let s := withHome { onSlot5 .search fresh none with stopAt := some 100, grantee := some 2 } (station .run)
     s.profile.station.serves = true ∧ s.lookup 5 = some 1 ∧ 1 < s.table.contexts.length
       ∧ s.table.directory.length = 128 ∧ (s.ctx 1).slot = some 5 ∧ 100 ≤ s.frame ∧ (s.ctx 1).kind = .home
       ∧ (s.ctx 1).stopAt = some 100 ∧ (s.ctx 1).startAt = none)
    ∧ (let s := (bidder (some 95)).modCtx 32 fun c => { c with startAt := some 100 }
       s.lookup 6 = some 32 ∧ (s.ctx 32).slot = some 6 ∧ (s.ctx 32).kind = .guest ∧ (s.ctx 32).stopAt = none
         ∧ (s.ctx 32).startAt = some 100 ∧ (s.ctx 32).reservation = some ⟨2, 3, 32, some 95⟩
         ∧ (s.ctx 32).role = .reserved ∧ (s.ctx 32).transparent = false ∧ (stocked [50] s).poolCheck = true
         ∧ (s.profileAt 3).budget = 8 ∧ s.reservedFor 32 = [40, 41] ∧ s.pool.shortfall = []
         ∧ (∀ b ∈ s.reservedFor 32, (s.tapBlock b).retirePending = false)
         ∧ (s.profileAt 7).budget = 0)
    ∧ (let s := withHome { handed with startAt := some 100 } (station .run)
       s.lookup 5 = some 1 ∧ (s.ctx 1).kind = .home ∧ (s.ctx 1).stopAt = none ∧ (s.ctx 1).startAt = some 100)
    ∧ (let s := withGuest { taken .idle false with role := .returning, stopAt := some 100 } (station .run)
       s.lookup 6 = some 32 ∧ (s.ctx 32).slot = some 6 ∧ (s.ctx 32).kind = .guest ∧ (s.ctx 32).stopAt = some 100
         ∧ (s.ctx 32).startAt = none)
    ∧ (let s := withHome { onSlot5 .search fresh none with startAt := some 100 } (station .run)
       (s.ctx 1).role.serves = true ∧ (s.ctx 1).stopAt = none ∧ (s.ctx 1).startAt = some 100) := by decide +kernel

/-! ### Cells -/

/-- Worked contention (9.6): station 1's BID with margin 4 meets a BID with margin 32 and loses at cell bit 13, so it
asserts its 1 bits up to there only. -/
theorem test_cellStart :
    (let s := queueing ⟨.bid 5 4 3, 100, some 99⟩ (station .run)
     ((ran (.cellStart .a (cellOf (.bid 5 32 2))) s).lane.cell.map fun c => (c.lostAt, c.asserted))
         = some (some 13, cellOf (.bid 5 4 3) &&& (0b11111111111111#128 <<< 114))
       ∧ ((ran (.cellStart .b (cellOf (.bid 5 4 3))) s).lane.cell.map fun c => (c.lostAt, c.asserted))
         = some (none, cellOf (.bid 5 4 3))
       ∧ ((ran (.cellStart .c 0) (station .listen)).lane.cell.map (·.asserted)) = some 0) := by decide +kernel
/-- R145: an empty cell counts nothing, a failed check is discarded. R148: a BID whose surplus positions hold a 1 under a
sound check is delivered and counted. R152: an entry recalled during the cell leaves the queue at its end. -/
theorem test_cellEnd :
    (let s := fun line => { station .run with lane.cell := some ⟨.a, none, 0, none, line⟩ }
     let body := cellBody (.bid 6 32 2) ||| (1#112 <<< 3)
     let line := body ++ crc body
     (ran .cellEnd (s 0)).lane.discards = 0 ∧ (ran .cellEnd (s 1)).lane.discards = 1
       ∧ (ran .cellEnd (s (cellOf (.bid 6 32 9)))).lane.discards = 1
       ∧ (ran .cellEnd (s (cellOf (.bid 6 32 1)))).lane.clashes = 1
       ∧ (ran .cellEnd (s (cellOf (.slotControl 5 3 0 15)))).lane.discards = 0
       ∧ checkPasses line = true ∧ parseCell line = some (.bid 6 32 2) ∧ line ≠ cellOf (.bid 6 32 2)
       ∧ (ran .cellEnd (s line)).lane.surplus = 1)
    ∧ (ran .cellEnd (sending (.notice 3 0 1) (station .run))).lane.queue = []
    ∧ (let e : Entry := ⟨.returnSlot 6 0 1, 100, none⟩
       let s := queueing e (station .run)
       let s := { s with lane := { s.lane with recalled := [e], cell := some ⟨.a, none, 0, none, 0⟩ } }
       (ran .cellEnd s).lane.queue = []) := by decide +kernel

theorem witness_CellStartSendsFirstEligible : (station .run).lane.recalled = []
    ∧ (queueing ⟨.bid 5 4 1, 100, some 96⟩ (station .run)).profile.station.serves = true
    ∧ eligible (station .run) ⟨.bid 5 4 1, 100, some 96⟩ = true
    ∧ eligible (station .run) ⟨.bid 5 4 1, 100, some 95⟩ = false := by decide +kernel
theorem witness_CellEndJudges :
    ((sending (.notice 3 0 1) (station .run)).profile.station ≠ .held
      ∧ ((sending (.notice 3 0 1) (station .run)).lane.cell.bind (·.sending)) = some ⟨.notice 3 0 1, 100, none⟩
      ∧ ((sending (.notice 3 0 1) (station .run)).lane.cell.bind (·.lostAt)) = none)
    ∧ checkPasses 1 = false ∧ (parseCell 0x10000000000000000000000000000000).isNone
    ∧ (parseCell (cellOf (.bid 6 32 9)) = some (.bid 6 32 9) ∧ senderFits (.bid 6 32 9) = false)
    ∧ (senderFits (.bid 6 32 1) = true ∧ (Msg.bid 6 32 1).sender = (station .run).profile.k
      ∧ maskBit (station .run).profile.noticeMask 10 = true)
    ∧ (senderFits (.bid 6 32 2) = true ∧ (Msg.bid 6 32 2).sender ≠ (station .run).profile.k
      ∧ (station .run).profile.station.receives = true ∧ (Instr.bid 6 32 2).message? = some (.bid 6 32 2)) := by
  decide +kernel
theorem witness_CarriedRecords :
    (let s := sending (.offer 5 8 0 0 1) (offering 95 none)
     s.profile.station ≠ .held ∧ s.lookup 5 = some 1 ∧ 1 < s.table.contexts.length
       ∧ (s.ctx 1).offer = some ⟨some 95, none⟩)
    ∧ (let s := sending (.bid 6 32 1) (bidder none)
       s.lookup 6 = some 32 ∧ (s.ctx 32).reservation = some ⟨2, 3, 32, none⟩)
    ∧ (let s := sending (.grant 5 2 1) (offering 95 (some (2, 32)))
       (s.ctx 1).kind = .home ∧ s.serves 1 = true)
    ∧ (let s := sending (.returnSlot 6 0 1) (withGuest (taken .idle false) (station .run))
       s.lookup 6 = some 32 ∧ (s.ctx 32).role = .taken)
    ∧ (let s := sending (.reclaim 5 1) (reclaiming 7)
       s.lookup 5 = some 1 ∧ (s.ctx 1).reclaim = some ⟨7, some 50, 0⟩)
    ∧ (let s := sending (.adopt 6 40 1) (station .run)
       s.lookup 6 = none ∧ s.lane.recalled = [] ∧ (s.lane.cell.bind (·.sending)).isSome = true
         ∧ (ran .cellEnd s).share.adopting = [(6, 100)])
    ∧ (let e : Entry := ⟨.offer 5 8 0 0 1, 100, none⟩
       let s := { sending e.msg (offering 95 none) with lane.recalled := [e] }
       s.profile.station ≠ .held ∧ (s.lane.cell.bind (·.sending)) = some e) := by decide +kernel

/-! ### Messages -/

/-- Worked hand-off (10): station 2 with FREE 40 reserves 8 and bids with margin 32 for the next frame. -/
theorem test_offer : (let s := { station .run with pool.fifo := List.range 40 }
    (ran (.offer 6 8 3 1 2) s).lane.queue = [⟨.bid 6 32 1, 101, some 100⟩] ∧ (ran (.offer 6 8 3 1 2) s).free = 32
      ∧ ((ran (.offer 6 8 3 1 2) s).ctx 32).role = .reserved ∧ ((ran (.offer 6 8 3 1 2) s).ctx 32).frozen = true
      ∧ (ran (.offer 6 17 3 1 2) s).lookup 6 = none) := by decide +kernel
/-- Worked hand-off: the better bid stands, and a beaten bidder withdraws. -/
theorem test_bid : ((ran (.bid 5 4 3) (offering 95 (some (2, 32)))).ctx 1).offer = some ⟨some 95, some (2, 32)⟩
    ∧ ((ran (.bid 5 32 3) (offering 95 (some (2, 32)))).ctx 1).offer = some ⟨some 95, some (3, 32)⟩
    ∧ (ran (.bid 6 33 0) (bidder none)).pool.fifo = [50, 40, 41]
    ∧ (ran (.bid 6 32 0) (bidder none)).lookup 6 = some 32 := by decide +kernel
theorem test_grant : ((ran (.grant 6 1 2) (bidder none)).ctx 32).startAt = some 102
    ∧ (ran (.grant 6 3 2) (bidder none)).lookup 6 = none
    ∧ (ran (.grant 6 1 2) (station .run)).lane.queue.map (·.msg) = [.returnSlot 6 1 1]
    ∧ (ran (.grant 5 1 2) (station .run)).lane.queue.map (·.msg) = [.returnSlot 5 2 1] := by decide +kernel
theorem test_return : ((ran (.returnSlot 5 0 2) (withHome handed (station .run))).ctx 1).startAt = some 102
    ∧ ((ran (.returnSlot 5 0 3) (withHome handed (station .run))).ctx 1).startAt = none
    ∧ (ran (.returnSlot 6 2 3) (station .run)).share.absence.getD 6 0 = 8 := by decide +kernel
theorem test_adopt : (ran (.adopt 6 31 2) (queueing ⟨.adopt 6 9 1, 100, none⟩ (orphaned []))).lane.queue = []
    ∧ (ran (.adopt 6 31 2) (orphaned [])).share.absence.getD 6 9 = 0
    ∧ (ran (.adopt 5 31 2) (station .listen)).share.listenAdopt = 32 := by decide +kernel
theorem test_reclaim :
    (let s := fun st => withGuest (taken st true) (station .run)
     (ran (.reclaim 6 2) (s .idle)).lane.queue.map (·.msg) = [.returnSlot 6 3 1]
       ∧ (ran (.reclaim 6 2) (s .track)).lane.queue = [] ∧ ((ran (.reclaim 6 2) (s .track)).ctx 32).pendingReturn = true
       ∧ ((ran (.reclaim 6 3) (s .track)).ctx 32).pendingReturn = false) := by decide +kernel
theorem test_profileAction : ((ran (.profileAction 5 3 15) (station .run)).ctx 1).profile = 3
    ∧ ((ran (.profileAction 5 3 14) (station .run)).ctx 1).profile = 0 := by decide +kernel
theorem test_transparentOn : ((ran (.transparentOn 5 15) (calling .search fresh (some searching))).ctx 1).callState = .bypass
    ∧ ((ran (.transparentOn 5 15) (calling .search fresh (some searching))).tapBlock 40).state = .free := by decide +kernel
theorem test_transparentOff :
    (let s := withHome { onSlot5 .bypass { fresh with callPresent := false } none with transparent := true } (station .run)
     ((ran (.transparentOff 5 15) s).ctx 1).callState = .idle ∧ ((ran (.transparentOff 5 15) s).ctx 1).transparent = false)
    ∧ ((ran (.transparentOff 5 15) (withHome (onSlot5 .bypass fresh none) (station .run))).ctx 1).callState = .search := by
  decide +kernel
theorem test_freeze : ((ran (.freeze 5 15) (station .run)).ctx 1).frozen = true := by decide +kernel
theorem test_resume : ((ran (.resume 5 15) (withHome { homeContext 5 with frozen := true } (station .run))).ctx 1).frozen
    = false := by decide +kernel
/-- R89: the bound segment is empty, so the search ends level-only. -/
theorem test_settle : ((ran (.settle 5 15) (calling .search fresh (some searching))).ctx 1).callState = .track
    ∧ ((ran (.settle 5 15) (calling .search fresh (some searching))).ctx 1).search.map (·.want) = some 0 := by decide +kernel
theorem test_restart : ((ran (.restart 5 15) (calling .track fresh (some searching))).ctx 1).search.map
    (fun r => (r.pass, r.bound.length)) = some (1, 8) := by decide +kernel
theorem test_noAction : ran (.noAction 5 15) (calling .track fresh (some searching))
    = calling .track fresh (some searching) := rfl

/-- Worked start-up (11), frame 60: budget 20, reach 0, step 7, send target 30 and send G −50 are stored as 16, 1, 6, −24
and −36; in RUN the message is refused. -/
theorem test_profileMessage :
    (let m := Instr.profileMessage 1 2 20 0 7 31 30 16 (BitVec.ofInt 7 (-50)) 0 15
     (let p := (ran m (station .config)).profileAt 2
      (p.budget, p.reach, p.step, p.sendTarget, p.sendG) = (16, 1, 6, -24, -36))
       ∧ (ran m (station .run)).lane.queue.map (·.msg) = [.notice 9 0x7400 1]
       ∧ (ran m (station .listen)).profileAt 2 = defaultProfile 2) := by decide +kernel
/-- Worked start-up, frame 300: I = 30 is stored as 64, and a code count of 0 takes the first code. -/
theorem test_runMessage :
    (let m := Instr.runMessage 15 0xFF0 30 0 0xD5 0x55 0x11 0x22 15
     (ran m (station .config)).highway.idleCodes = [0xD5] ∧ (ran m (station .config)).highway.idleCount = 64
       ∧ (ran m (station .config)).profile.runAccepted = some 100
       ∧ (List.range 12).map (fun p => maskBit (ran m (station .config)).profile.noticeMask (p + 1))
           = List.replicate 8 true ++ List.replicate 4 false) := by decide +kernel

/-- The body of the one REPORT a QUERY gives. -/
def bodyOf (s : State) : Option (BitVec 88) :=
  match s.lane.queue with
  | [⟨.report _ _ body _, _, _⟩] => some body
  | _ => none

/-- Page layouts of R180: identity of station 1 with N = 4, 64 contexts and 264 blocks. -/
theorem test_queryIdentity : bodyOf (ran (.queryIdentity 15 0 15) (station .run)) =
    some (0#2 ++ 0x5B3#12 ++ 0x6A4#12 ++ 1#4 ++ 1#3 ++ 4#4 ++ 0#1 ++ 64#7 ++ 264#9 ++ 0#34) := by decide +kernel
theorem test_queryStation : bodyOf (ran (.queryStation 1 0 15) (station .run)) =
      some (0#2 ++ 3#3 ++ 256#9 ++ 0#9 ++ 0#9 ++ 8#4 ++ 0#9 ++ 0#7 ++ 0#36)
    ∧ bodyOf (ran (.queryStation 1 2 15) (station .run)) = some (3#2 ++ 0#86)
    ∧ bodyOf (ran (.queryStation 2 0 15) (station .run)) = none := by decide +kernel
/-- Worked search under shortage (5): bound segments, explored set, pass, dwell and want on CHANNEL A. -/
theorem test_queryChannelA : bodyOf (ran (.queryChannelA 15 5 15) (calling .search fresh (some searching))) =
      some (0#2 ++ 0#4 ++ 2#3 ++ 0#1 ++ 0#1 ++ 0#1 ++ 0#1 ++ 0#3 ++ 0#3 ++ 15#4 ++ 15#4 ++ 0#8 ++ 1#16 ++ 1#16 ++ 1#8
        ++ 0#7 ++ 8#5 ++ 0#1)
    ∧ bodyOf (ran (.queryChannelA 15 6 15) (station .run)) = some (1#2 ++ 0#86) := by decide +kernel
theorem test_queryChannelB : bodyOf (ran (.queryChannelB 15 5 15) (calling .search (talking 0) none)) =
    some (0#2 ++ 0#7 ++ 0#7 ++ 0#2 ++ 0#2 ++ 8#4 ++ 3969#12 ++ 0#16 ++ 0#16 ++ 64#16 ++ 0#4) := by decide +kernel
theorem test_queryBlock : bodyOf (ran (.queryBlock 15 40 15) (calling .search fresh (some searching))) =
      some (0#2 ++ 1#3 ++ 1#1 ++ 5#7 ++ 1#1 ++ 0#4 ++ 0#8 ++ 0#62)
    ∧ bodyOf (ran (.queryBlock 15 264 15) (station .run)) = some (3#2 ++ 0#86) := by decide +kernel
theorem test_queryUnknownPage : bodyOf (ran (.queryUnknownPage 15 5 0 15) (station .run)) = some (2#2 ++ 0#86)
    ∧ (ran (.queryUnknownPage 15 4 0 15) (station .run)).lane.queue = [] := by decide +kernel
theorem test_report : ran (.report 1 0 0 2) (station .run) = station .run := rfl
theorem test_notice : ran (.notice 3 0 2) (station .run) = station .run ∧
    (ran (.notice 3 0 15) (station .run)).lane.discards = 1 ∧ (ran (.notice 3 0 1) (station .run)).lane.clashes = 1 :=
  ⟨rfl, by decide +kernel⟩

theorem witness_OfferDelivered :
    (let s := { station .run with pool.fifo := List.range 16 }
     s.hearsStation 2 ∧ s.share.offers.length = 128 ∧ s.lookup 6 = none ∧ s.freeGuest? = some 32
       ∧ (16 : BitVec 5).toNat ≤ s.pool.fifo.length ∧ s.lane.queue.length < 16 ∧ s.table.directory.length = 128
       ∧ (∀ b ∈ s.pool.fifo, b < s.pool.blocks.length) ∧ 16 < (17 : BitVec 5).toNat) := by decide +kernel
theorem witness_BidDelivered :
    ((offering 95 (some (2, 32))).hearsStation 3 ∧ (offering 95 (some (2, 32))).lookup 5 = some 1
      ∧ ((offering 95 (some (2, 32))).ctx 1).role = .homeOffering
      ∧ ((offering 95 (some (2, 32))).ctx 1).offer = some ⟨some 95, some (2, 32)⟩)
    ∧ ((bidder none).hearsStation 2 ∧ (bidder none).lookup 6 = some 32 ∧ ((bidder none).ctx 32).role = .reserved
      ∧ ((bidder none).ctx 32).offer = none ∧ ((bidder none).ctx 32).reservation = some ⟨2, 3, 32, none⟩
      ∧ ((bidder none).ctx 32).slot = some 6 ∧ ((bidder none).ctx 32).callState = .notServing
      ∧ ((bidder none).ctx 32).startAt = none ∧ (bidder none).table.directory.length = 128) := by decide +kernel
theorem witness_GrantDelivered :
    ((bidder none).hearsStation 2 ∧ (1 : BitVec 4).toNat = (bidder none).profile.k ∧ (bidder none).lookup 6 = some 32
      ∧ ((bidder none).ctx 32).role = .reserved ∧ (3 : BitVec 4).toNat ≠ (bidder none).profile.k)
    ∧ ((station .run).hearsStation 2 ∧ (station .run).lookup 5 = some 1 ∧ ((station .run).ctx 1).role ≠ .reserved
      ∧ (station .run).lane.queue.length < 16)
    ∧ ((station .run).lookup 6 = none ∧ (station .run).share.offers.getD 6 none = none)
    ∧ (let s := (station .run).setOffer 6 (some ⟨2, 256, 3, true, 95⟩)
       s.freeGuest? = some 32 ∧ (1 : BitVec 4).toNat = s.profile.k ∧ s.lookup 6 = none ∧ 256 ≤ s.pool.fifo.length
         ∧ s.table.directory.length = 128 ∧ ∀ b ∈ s.pool.fifo, b < s.pool.blocks.length)
    ∧ ((station .run).setOffer 6 (some ⟨3, 8, 3, true, 95⟩)).share.offers.getD 6 none = some ⟨3, 8, 3, true, 95⟩ := by
  decide +kernel
theorem witness_ReturnDelivered :
    (let s := withHome handed (station .run)
     s.hearsStation 2 ∧ s.lookup 5 = some 1 ∧ s.isHome 5 = true ∧ (s.ctx 1).kind = .home ∧ (s.ctx 1).role = .handed
       ∧ (s.ctx 1).server = some 2)
    ∧ ((reclaiming 0).ctx 1).role = .reclaiming
    ∧ (let s := withHome { onSlot5 .search fresh none with
                             role := .homeOffering, grantee := some 2, stopAt := some 102 } (station .run)
       s.hearsStation 2 ∧ (s.ctx 1).role = .homeOffering ∧ (s.ctx 1).grantee = some 2
         ∧ (s.ctx 1).stopAt = some (s.frame + 2))
    ∧ (let s := withGuest (taken .idle true) (station .run)
       s.lookup 6 = some 32 ∧ s.isHome 6 = false ∧ (s.ctx 32).kind = .guest)
    ∧ ((station .run).isHome 6 = false ∧ (station .run).lookup 6 = none)
    ∧ (station .config).profile.station.serves = true ∧ (station .config).isHome 6 = false := by decide +kernel
theorem witness_AdoptAndReclaim :
    (let s := withGuest (taken .track true) (station .run)
     s.hearsStation 2 ∧ 6 % s.profile.n = 2 ∧ s.lookup 6 = some 32 ∧ 32 < s.table.contexts.length
       ∧ (s.ctx 32).slot = some 6 ∧ (s.ctx 32).role = .taken ∧ (s.ctx 32).callState ≠ .idle ∧ s.lane.queue = [])
    ∧ ((withGuest (taken .idle true) (station .run)).ctx 32).callState = .idle
    ∧ ((station .listen).profile.station = .listen ∧ (2 : BitVec 4).toNat ≠ (station .listen).profile.k
      ∧ (station .listen).isHome 5 = true ∧ (station .listen).isHome 6 = false)
    ∧ ((reclaiming 8000).profile.station.serves = true ∧ (reclaiming 8000).lookup 5 = some 1
      ∧ ((reclaiming 8000).ctx 1).slot = some 5 ∧ ((reclaiming 8000).ctx 1).role = .reclaiming
      ∧ ((reclaiming 8000).ctx 1).reclaim = some ⟨8000, some 50, 0⟩ ∧ (reclaiming 8000).lane.queue = []) := by
  decide +kernel
theorem witness_SlotControls :
    ((station .run).hearsCard 15 ∧ (station .run).lookup 5 = some 1 ∧ (station .run).serves 1 = false)
    ∧ ((calling .search fresh none).hearsCard 15 ∧ (calling .search fresh none).serves 1 = true
      ∧ ((calling .search fresh none).ctx 1).serving = some fresh ∧ ((calling .search fresh none).ctx 1).callState ≠ .bypass)
    ∧ (let sv := { fresh with callPresent := false }
       (calling .bypass sv none).serves 1 = true ∧ ((calling .bypass sv none).ctx 1).serving = some sv
         ∧ ((calling .bypass sv none).ctx 1).callState = .bypass)
    ∧ (calling .bypass fresh none).serves 1 = true ∧ fresh.callPresent = true
    ∧ 1 ≤ ((calling .bypass fresh none).profileAt ((calling .bypass fresh none).ctx 1).profile).reach := by decide +kernel
theorem witness_SettleAndRestart :
    ((calling .search fresh (some (newSearch 8))).hearsCard 15 ∧ (calling .search fresh (some (newSearch 8))).serves 1 = true
      ∧ ((calling .search fresh (some (newSearch 8))).ctx 1).search = some (newSearch 8) ∧ (newSearch 8).map = []
      ∧ (newSearch 8).spare = [])
    ∧ ((calling .idle fresh none).ctx 1).callState ≠ .search
    ∧ ((calling .track fresh (some searching)).serves 1 = true
      ∧ ((calling .track fresh (some searching)).ctx 1).callState.processes = true
      ∧ 0 < ((calling .track fresh (some searching)).profileOf 1).budget
      ∧ 0 < ((calling .track fresh (some searching)).profileOf 1).reach)
    ∧ (let s := reading .search searching [12]
       s.poolCheck = true ∧ s.pool.shortfall = [] ∧ s.heldBlocks 1 = [40] ∧ (s.tapBlock 40).retirePending = false
         ∧ s.energyAt (0, 40) = 0 ∧ searching.bound = [(0, 40)])
    ∧ (let sv := { fresh with profile := 7 }
       let s := stocked [12] (calling .track sv (some { searching with want := 1 }))
       s.serves 1 = true ∧ (s.ctx 1).serving = some sv ∧ (s.ctx 1).callState.processes = true
         ∧ (s.profileOf 1).budget = 0 ∧ s.poolCheck = true ∧ s.heldBlocks 1 = [40]) := by decide +kernel
theorem witness_SettleAndRestart_order : (reading .search searching [12]).significantOrder searching [] := by
  unfold State.significantOrder; decide +kernel
theorem witness_ConfigurationMessages :
    ((station .config).hearsCard 15 ∧ (1 : BitVec 4).toNat = (station .config).profile.k
      ∧ (station .config).profile.profiles.length = 8)
    ∧ ((station .run).hearsCard 15 ∧ maskBit (station .run).profile.noticeMask 9 = true
      ∧ (station .run).lane.queue.length < 16) := by decide +kernel
theorem witness_QueriesAndReports :
    ((station .run).hearsCard 15 ∧ (station .run).lane.queue.length < 16 ∧ (station .run).profile.n < 16
      ∧ (127 : BitVec 9).toNat < 128 ∧ (station .run).lookup 127 = none ∧ 264 ≤ (264 : BitVec 9).toNat
      ∧ 5 ≤ (5 : BitVec 3).toNat)
    ∧ ((calling .search fresh (some searching)).lookup (5 : BitVec 9).toNat = some 1
      ∧ ((calling .search fresh (some searching)).ctx 1).serving = some fresh ∧ (263 : BitVec 9).toNat < 264
      ∧ ((withHome handed (station .run)).ctx 1).serving = none)
    ∧ (station .run).hearsStation 2
    ∧ Instr.message? (.freeze 5 3) = some (.slotControl 5 3 0 3) ∧ (station .run).profile.station.receives = true
    ∧ senderFits (.slotControl 5 3 0 3) = false := by decide +kernel

end Sys2Proof.Tests
end

namespace Sys2Proof.LineCode

open Sys2Proof Sys2Proof.Machine

/-! ## Line codes (R8, R9)

An unscrambled code holds sign, segment and mantissa; `expand` and `compress` are stated through these three fields.
Segment `seg` holds the magnitudes of `[2^(seg+4), 2^(seg+5))`, segment 0 those below 32. A code's expansion lies in the
code's own segment: that is why compressing it gives the same fields back. -/

/-- The magnitude that segment and mantissa stand for (R8). -/
def magnitude (seg m : Nat) : Nat := if seg = 0 then 2 * m + 1 else (2 * m + 33) * 2 ^ (seg - 1)

/-- The segment of a magnitude (R9). -/
def segmentOf (a : Nat) : Nat := if a < 32 then 0 else Nat.log2 a - 4

/-- The mantissa of a magnitude (R9). -/
def mantissaOf (a : Nat) : Nat := if a < 32 then a / 2 else a / 2 ^ segmentOf a - 16

/-! ### Segment and mantissa of a magnitude -/

theorem segmentOf_of_lt {a : Nat} (ha : a < 32) : segmentOf a = 0 := if_pos ha

theorem mantissaOf_of_lt {a : Nat} (ha : a < 32) : mantissaOf a = a / 2 := if_pos ha

theorem mantissaOf_of_le {a : Nat} (ha : 32 ≤ a) : mantissaOf a = a / 2 ^ segmentOf a - 16 := if_neg (by omega)

/-- From 32 on, segment `seg` starts at 2^(seg+4) and ends before 2^(seg+5). -/
theorem segmentOf_eq_iff {a seg : Nat} (ha : 32 ≤ a) :
    segmentOf a = seg ↔ 2 ^ (seg + 4) ≤ a ∧ a < 2 ^ (seg + 5) := by
  have hlog : 5 ≤ Nat.log2 a := (Nat.le_log2 (by omega)).2 ha
  calc segmentOf a = seg ↔ Nat.log2 a = seg + 4 := by rw [segmentOf, if_neg (by omega)]; omega
    _ ↔ 2 ^ (seg + 4) ≤ a ∧ a < 2 ^ (seg + 5) := Nat.log2_eq_iff (by omega)

theorem segmentOf_lt {a : Nat} (ha : a < 4096) : segmentOf a < 8 := by
  rcases Nat.lt_or_ge a 32 with h | h
  · simp [segmentOf_of_lt h]
  · have hstart : 2 ^ (segmentOf a + 4) < 2 ^ 12 := ((segmentOf_eq_iff h).1 rfl).1.trans_lt ha
    have := (Nat.pow_lt_pow_iff_right (by decide)).1 hstart
    omega

theorem mantissaOf_lt (a : Nat) : mantissaOf a < 16 := by
  rcases Nat.lt_or_ge a 32 with h | h
  · rw [mantissaOf_of_lt h]; omega
  · have hend : a < 2 ^ segmentOf a * 32 := by
      simpa [pow_add] using ((segmentOf_eq_iff h).1 rfl).2
    have := Nat.div_lt_of_lt_mul hend
    rw [mantissaOf_of_le h]; omega

/-! ### The magnitude of a segment and a mantissa -/

theorem magnitude_succ (seg m : Nat) : magnitude (seg + 1) m = (2 * m + 33) * 2 ^ seg := rfl

/-- A magnitude above segment 0 lies in its own segment. -/
theorem magnitude_succ_bounds {m : Nat} (seg : Nat) (hm : m < 16) :
    2 ^ (seg + 1 + 4) ≤ magnitude (seg + 1) m ∧ magnitude (seg + 1) m < 2 ^ (seg + 1 + 5) := by
  have hpos : 0 < 2 ^ seg := Nat.two_pow_pos seg
  have hstart : 2 ^ (seg + 1 + 4) = 32 * 2 ^ seg := by ring
  have hend : 2 ^ (seg + 1 + 5) = 64 * 2 ^ seg := by ring
  rw [magnitude_succ, hstart, hend]
  exact ⟨Nat.mul_le_mul_right _ (by omega), Nat.mul_lt_mul_of_pos_right (by omega) hpos⟩

theorem magnitude_succ_ge {m : Nat} (seg : Nat) (hm : m < 16) : 32 ≤ magnitude (seg + 1) m :=
  calc 32 = 2 ^ 5 := rfl
    _ ≤ 2 ^ (seg + 1 + 4) := Nat.pow_le_pow_right (by decide) (by omega)
    _ ≤ magnitude (seg + 1) m := (magnitude_succ_bounds seg hm).1

theorem segmentOf_magnitude {m : Nat} (seg : Nat) (hm : m < 16) : segmentOf (magnitude seg m) = seg := by
  cases seg with
  | zero => exact segmentOf_of_lt (show 2 * m + 1 < 32 by omega)
  | succ seg => exact (segmentOf_eq_iff (magnitude_succ_ge seg hm)).2 (magnitude_succ_bounds seg hm)

theorem mantissaOf_magnitude {m : Nat} (seg : Nat) (hm : m < 16) : mantissaOf (magnitude seg m) = m := by
  cases seg with
  | zero =>
    have hmag : magnitude 0 m = 2 * m + 1 := rfl
    rw [hmag, mantissaOf_of_lt (by omega)]; omega
  | succ seg =>
    rw [mantissaOf_of_le (magnitude_succ_ge seg hm), segmentOf_magnitude _ hm, magnitude_succ, pow_succ',
      Nat.mul_div_mul_right _ _ (Nat.two_pow_pos seg)]
    omega

/-! ### Expansion -/

/-- Expansion through the three fields of the unscrambled code (R8). -/
theorem expand_eq (code : Byte) :
    expand code =
      (let u := (code ^^^ 0x55).toNat
       if 128 ≤ u then (magnitude (u / 16 % 8) (u % 16) : Int) else -(magnitude (u / 16 % 8) (u % 16) : Int)) := by
  unfold expand
  generalize code ^^^ 0x55 = u
  have hsign : u.getLsbD 7 = decide (128 ≤ u.toNat) := BitVec.msb_eq_decide u
  have hseg : (u.extractLsb' 4 3).toNat = u.toNat / 16 % 8 := by
    simp [Nat.shiftRight_eq_div_pow]
  have hm : (u.extractLsb' 0 4).toNat = u.toNat % 16 := by simp
  simp only [hsign, hseg, hm, magnitude, decide_eq_true_eq]

/-- A code's magnitude is that of its expansion, so R8's range is `Laws.expand_range`. -/
theorem natAbs_expand (code : Byte) :
    (expand code).natAbs = magnitude ((code ^^^ 0x55).toNat / 16 % 8) ((code ^^^ 0x55).toNat % 16) := by
  rw [expand_eq]
  dsimp only
  split <;> simp

theorem expand_nonneg_iff (code : Byte) : 0 ≤ expand code ↔ 128 ≤ (code ^^^ 0x55).toNat := by
  have hpos := (Laws.expand_range code).1
  rw [natAbs_expand] at hpos
  rw [expand_eq]
  dsimp only
  split <;> omega

/-! ### Compression -/

theorem natAbs_saturate (m : Nat) (v : Int) : (saturate m v).natAbs = min m v.natAbs := by
  unfold saturate
  split
  · omega
  · split <;> omega

theorem saturate_nonneg_iff (m : Nat) (v : Int) : 0 ≤ saturate m v ↔ 0 ≤ v ∨ m = 0 := by
  unfold saturate
  split
  · omega
  · split <;> omega

/-- Compression writes sign, segment and mantissa of the saturated value into the unscrambled code (R9). -/
theorem toNat_compress_xor (v : Int) :
    (compress v ^^^ 0x55).toNat =
      (if 0 ≤ v then 128 else 0) + 16 * segmentOf (min 4095 v.natAbs) + mantissaOf (min 4095 v.natAbs) := by
  have hseg : segmentOf (min 4095 v.natAbs) < 8 := segmentOf_lt (by omega)
  have hm := mantissaOf_lt (min 4095 v.natAbs)
  have hfields : compress v ^^^ 0x55 = BitVec.ofNat 8
      ((if 0 ≤ v then 128 else 0) + 16 * segmentOf (min 4095 v.natAbs) + mantissaOf (min 4095 v.natAbs)) := by
    have hsign : 0 ≤ saturate 4095 v ↔ 0 ≤ v := by simpa using saturate_nonneg_iff 4095 v
    rw [← natAbs_saturate, ← if_congr hsign rfl rfl, compress, BitVec.xor_assoc, BitVec.xor_self, BitVec.xor_zero]
    rfl
  rw [hfields, BitVec.toNat_ofNat, Nat.mod_eq_of_lt]
  split <;> omega

/-- The three fields of a compressed value: its sign, segment and mantissa (R9). -/
theorem compress_fields (v : Int) :
    (128 ≤ (compress v ^^^ 0x55).toNat ↔ 0 ≤ v)
      ∧ (compress v ^^^ 0x55).toNat / 16 % 8 = segmentOf (min 4095 v.natAbs)
      ∧ (compress v ^^^ 0x55).toNat % 16 = mantissaOf (min 4095 v.natAbs) := by
  have hseg : segmentOf (min 4095 v.natAbs) < 8 := segmentOf_lt (by omega)
  have hm := mantissaOf_lt (min 4095 v.natAbs)
  rw [toNat_compress_xor]
  split <;> omega

/-- For every code, compressing its expansion gives back the same code (R9). -/
theorem compress_expand (code : Byte) : compress (expand code) = code := by
  suffices hu : (compress (expand code) ^^^ 0x55).toNat = (code ^^^ 0x55).toNat from
    (BitVec.xor_left_inj 0x55).1 (BitVec.eq_of_toNat_eq hu)
  obtain ⟨hsign, hseg, hm⟩ := compress_fields (expand code)
  have hmag : min 4095 (expand code).natAbs =
      magnitude ((code ^^^ 0x55).toNat / 16 % 8) ((code ^^^ 0x55).toNat % 16) := by
    have := (Laws.expand_range code).2
    rw [← natAbs_expand]; omega
  have hlt : (code ^^^ 0x55).toNat % 16 < 16 := Nat.mod_lt _ (by decide)
  rw [hmag, segmentOf_magnitude _ hlt] at hseg
  rw [hmag, mantissaOf_magnitude _ hlt] at hm
  rw [expand_nonneg_iff] at hsign
  have hcode := (code ^^^ 0x55).isLt
  have hback := (compress (expand code) ^^^ 0x55).isLt
  omega

/-- The expansions are the only values that survive a round trip unchanged (R9). -/
theorem expand_compress_eq_self_iff (v : Int) : expand (compress v) = v ↔ ∃ code : Byte, expand code = v := by
  constructor
  · exact fun h => ⟨compress v, h⟩
  · rintro ⟨code, rfl⟩
    rw [compress_expand]

theorem compress_of_gt {v : Int} (hv : 4095 < v) : compress v = compress 4095 := by
  have hsat : saturate 4095 v = saturate 4095 4095 := by simp [saturate, hv]
  rw [compress, compress, hsat]

theorem compress_of_lt {v : Int} (hv : v < -4095) : compress v = compress (-4095) := by
  have hsat : saturate 4095 v = saturate 4095 (-4095) := by simp [saturate, hv, show ¬ 4095 < v by omega]
  rw [compress, compress, hsat]

/-! ### The obligation's two rules -/

/-- R8 in the obligation's terms: the fields give the sample, and the magnitude lies in 1..4032. -/
theorem expand_of_fields (code : Byte) :
    let u := code ^^^ 0x55
    let seg := u.toNat / 16 % 8
    let m := u.toNat % 16
    let mag : Int := if seg = 0 then 2 * m + 1 else (2 * m + 33) * 2 ^ (seg - 1)
    expand code = (if 128 ≤ u.toNat then mag else -mag) ∧ 1 ≤ mag ∧ mag ≤ 4032 := by
  intro u seg m mag
  have hmag : mag = magnitude seg m := by
    simp only [mag, magnitude]
    split <;> push_cast <;> rfl
  obtain ⟨hlow, hhigh⟩ := Laws.expand_range code
  rw [natAbs_expand] at hlow hhigh
  rw [hmag]
  exact ⟨expand_eq code, by exact_mod_cast hlow, by exact_mod_cast hhigh⟩

/-- R9 in the obligation's terms: sign, segment and mantissa of the saturated magnitude. -/
theorem compress_to_fields (v : Int) :
    let u := (compress v ^^^ 0x55).toNat
    let seg := u / 16 % 8
    let m := u % 16
    let a := min 4095 v.natAbs
    (a < 32 → seg = 0 ∧ m = a / 2)
      ∧ (32 ≤ a → 2 ^ (seg + 4) ≤ a ∧ a < 2 ^ (seg + 5) ∧ m = a / 2 ^ seg - 16)
      ∧ (128 ≤ u ↔ 0 ≤ v) := by
  intro u seg m a
  obtain ⟨hsign, hseg, hm⟩ : (128 ≤ u ↔ 0 ≤ v) ∧ seg = segmentOf a ∧ m = mantissaOf a := compress_fields v
  refine ⟨fun ha => ?_, fun ha => ?_, hsign⟩
  · rw [hseg, hm]
    exact ⟨segmentOf_of_lt ha, mantissaOf_of_lt ha⟩
  · obtain ⟨hstart, hend⟩ := (segmentOf_eq_iff ha).1 hseg.symm
    exact ⟨hstart, hend, by rw [hm, hseg, mantissaOf_of_le ha]⟩

/-- Settles O11: R8 and R9 field by field; the round trip holds because a code's magnitude lies in the code's own
segment (`segmentOf_magnitude`, `mantissaOf_magnitude`). -/
theorem lineCodesConvert : Obligations.LineCodesConvert := by
  refine ⟨expand_of_fields, by decide, by decide, compress_to_fields, by decide, compress_expand,
    expand_compress_eq_self_iff, fun v => ⟨fun hv => ?_, fun hv => ?_⟩⟩
  · have hcode := compress_of_gt hv
    exact ⟨hcode, by rw [hcode]; decide⟩
  · have hcode := compress_of_lt hv
    exact ⟨hcode, by rw [hcode]; decide⟩

end Sys2Proof.LineCode

/-! ## The comfort-noise generator and its values (R72, R74) -/

namespace Sys2Proof.NoiseGenerator

open Sys2Proof Sys2Proof.Machine

/-! ### One step -/

/-- The bit that comes into stage 1 at a step: the exclusive-or of stages 23 and 18 (R72). -/
def feedback (g : BitVec 23) : Bool := (g.getLsbD 22).xor (g.getLsbD 17)

theorem generatorStep_eq (g : BitVec 23) :
    generatorStep g = (g.getLsbD 22, (g <<< 1) ||| BitVec.ofNat 23 (feedback g).toNat) := rfl

/-- The register after a step has its feedback in bit 0. -/
theorem getLsbD_zero_generatorStep (g : BitVec 23) : (generatorStep g).2.getLsbD 0 = feedback g := by
  rw [generatorStep_eq]
  cases feedback g <;> simp

/-- A step moves every other bit up by one place. -/
theorem getLsbD_succ_generatorStep (g : BitVec 23) {b : Nat} (hb : b + 1 < 23) :
    (generatorStep g).2.getLsbD (b + 1) = g.getLsbD b := by
  have hfeed : (feedback g).toNat.testBit (b + 1) = false := by cases feedback g <;> simp [Nat.testBit_succ]
  rw [generatorStep_eq, BitVec.getLsbD_or, BitVec.getLsbD_ofNat, hfeed, BitVec.getLsbD_shiftLeft]
  simp [hb]

/-! ### The bits of a run -/

/-- The number that `n` bits make when the first of them weighs most. -/
def bitNumber (n : Nat) (bits : Nat → Bool) : Nat := ∑ i ∈ Finset.range n, 2 ^ (n - 1 - i) * (bits i).toNat

/-- The first bit weighs `2 ^ n`, and the others make the number of the bits after it. -/
theorem bitNumber_succ (n : Nat) (bits : Nat → Bool) :
    bitNumber (n + 1) bits = 2 ^ n * (bits 0).toNat + bitNumber n (fun i => bits (i + 1)) := by
  have hweight : ∀ i, n + 1 - 1 - (i + 1) = n - 1 - i := fun i => by omega
  rw [bitNumber, Finset.sum_range_succ', add_comm]
  simp only [hweight, bitNumber]
  rfl

theorem bitNumber_congr {n : Nat} {bits bits' : Nat → Bool} (h : ∀ i < n, bits i = bits' i) :
    bitNumber n bits = bitNumber n bits' :=
  Finset.sum_congr rfl fun i hi => by rw [h i (Finset.mem_range.1 hi)]

theorem bitNumber_lt (n : Nat) (bits : Nat → Bool) : bitNumber n bits < 2 ^ n := by
  induction n generalizing bits with
  | zero => simp [bitNumber]
  | succ n ih =>
    have hrest := ih fun i => bits (i + 1)
    have hfirst : 2 ^ n * (bits 0).toNat ≤ 2 ^ n * 1 := Nat.mul_le_mul_left _ (Bool.toNat_le _)
    rw [bitNumber_succ, pow_succ]
    omega

/-- Up to 23 steps shift out the bits that the register held, from stage 23 down: no feedback bit has come through. -/
theorem generatorRun_bits {n : Nat} (hn : n ≤ 23) (acc : Nat) (g : BitVec 23) :
    (generatorRun n acc g).1 = 2 ^ n * acc + bitNumber n (fun i => g.getLsbD (22 - i)) := by
  induction n generalizing acc g with
  | zero => simp [generatorRun, bitNumber]
  | succ n ih =>
    have hshift : ∀ i < n, (generatorStep g).2.getLsbD (22 - i) = g.getLsbD (22 - (i + 1)) := fun i hi => by
      rw [show 22 - i = 22 - (i + 1) + 1 by omega]
      exact getLsbD_succ_generatorStep g (by omega)
    calc (generatorRun (n + 1) acc g).1
        = 2 ^ n * (2 * acc + (g.getLsbD 22).toNat)
            + bitNumber n (fun i => (generatorStep g).2.getLsbD (22 - i)) := ih (by omega) _ _
      _ = 2 ^ n * (2 * acc + (g.getLsbD 22).toNat) + bitNumber n (fun i => g.getLsbD (22 - (i + 1))) := by
          rw [bitNumber_congr hshift]
      _ = 2 ^ (n + 1) * acc + bitNumber (n + 1) (fun i => g.getLsbD (22 - i)) := by
          rw [bitNumber_succ]; ring

/-! ### The register after a run -/

/-- The bits a run has moved up stand `n` places above where they stood. -/
theorem generatorRun_register_high {n b : Nat} (hn : n ≤ b) (hb : b < 23) (acc : Nat) (g : BitVec 23) :
    (generatorRun n acc g).2.getLsbD b = g.getLsbD (b - n) := by
  induction n generalizing acc g with
  | zero => rfl
  | succ n ih =>
    calc (generatorRun (n + 1) acc g).2.getLsbD b
        = (generatorStep g).2.getLsbD (b - (n + 1) + 1) := by
          rw [show b - (n + 1) + 1 = b - n by omega]; exact ih (by omega) _ _
      _ = g.getLsbD (b - (n + 1)) := getLsbD_succ_generatorStep g (by omega)

/-- Up to 18 steps bring in, below the bits moved up, exclusive-ors of bits that the register held at the start: the
first feedback bit has not reached stage 18 before the last step. -/
theorem generatorRun_register_low {n b : Nat} (hn : n ≤ 18) (hb : b < n) (acc : Nat) (g : BitVec 23) :
    (generatorRun n acc g).2.getLsbD b = (g.getLsbD (b + (23 - n))).xor (g.getLsbD (b + (18 - n))) := by
  induction n generalizing acc g with
  | zero => omega
  | succ n ih =>
    change (generatorRun n _ (generatorStep g).2).2.getLsbD b = _
    rcases Nat.lt_succ_iff_lt_or_eq.1 hb with hlt | rfl
    · rw [ih (by omega) hlt, show b + (23 - n) = b + (23 - (n + 1)) + 1 by omega,
        show b + (18 - n) = b + (18 - (n + 1)) + 1 by omega, getLsbD_succ_generatorStep g (by omega),
        getLsbD_succ_generatorStep g (by omega)]
    · rw [generatorRun_register_high le_rfl (by omega), Nat.sub_self, getLsbD_zero_generatorStep,
        show b + (23 - (b + 1)) = 22 by omega, show b + (18 - (b + 1)) = 17 by omega, feedback]

/-! ### The value of a sample -/

/-- R74 on a 12-bit number split at its first bit: two's complement gives that bit the weight −2048. -/
theorem noiseValue_of_first_bit (first : Bool) {rest : Nat} (hrest : rest < 2048) :
    noiseValue (2048 * first.toNat + rest) = -2048 * first.toNat + rest := by
  cases first with
  | false => simp [noiseValue, hrest]
  | true => simp [noiseValue]; omega

/-- The value of a run's 12 bits: the first bit weighs −2048, the eleven after it make a number as they stand. -/
theorem noiseValue_generatorRun (g : BitVec 23) :
    noiseValue (generatorRun 12 0 g).1 =
      -2048 * (g.getLsbD 22).toNat + bitNumber 11 (fun i => g.getLsbD (22 - (i + 1))) := by
  rw [generatorRun_bits (by decide), bitNumber_succ, mul_zero, zero_add]
  exact noiseValue_of_first_bit _ (bitNumber_lt 11 _)

/-- Settles O13: the 12 bits are those of stages 23 down to 12 (`generatorRun_bits`), so u is their two's complement
value, and 12 steps are few enough that every feedback bit comes from bits of the register at the start. -/
theorem noiseValueOfTwelveBits : Obligations.NoiseValueOfTwelveBits := by
  intro g u bit after
  have hu : u = -2048 * bit 0 + bitNumber 11 (fun i => g.getLsbD (22 - (i + 1))) := noiseValue_generatorRun g
  have hrest := bitNumber_lt 11 fun i => g.getLsbD (22 - (i + 1))
  have hfirst : 0 ≤ bit 0 ∧ bit 0 ≤ 1 := ⟨Int.natCast_nonneg _, Int.ofNat_le.2 (Bool.toNat_le _)⟩
  refine ⟨⟨?_, by omega, by omega⟩, fun b hb => ?_, fun b hb hmoved => ?_⟩
  · rw [hu]
    simp [bitNumber, Finset.sum_range_succ, bit]
    ring
  · exact generatorRun_register_low (by decide) hb 0 g
  · exact generatorRun_register_high hmoved hb 0 g

end Sys2Proof.NoiseGenerator

/-! ## The report number format (R156) -/

namespace Sys2Proof.ReportNumber

open Sys2Proof Sys2Proof.Machine

/-- The exponent that `reportNumber` tries: what v is to be shifted by so that 12 bits remain. -/
def exponent (v : Nat) : Nat := Nat.log2 v - 11

/-- The exponents that bring v below 4096 are those from `exponent v` up: it is the smallest of them (R156). -/
theorem exponent_le_iff (v f : Nat) : exponent v ≤ f ↔ v / 2 ^ f < 4096 := by
  rcases Nat.eq_zero_or_pos v with rfl | hv
  · simp [exponent]
  · calc exponent v ≤ f ↔ Nat.log2 v < 12 + f := by rw [exponent]; omega
      _ ↔ v < 2 ^ 12 * 2 ^ f := by rw [Nat.log2_lt hv.ne', pow_add]
      _ ↔ v / 2 ^ f < 4096 := (Nat.div_lt_iff_lt_mul (Nat.two_pow_pos f)).symm

theorem mantissa_lt (v : Nat) : v / 2 ^ exponent v < 4096 := (exponent_le_iff v _).1 le_rfl

theorem le_div_of_lt_exponent {v f : Nat} (hf : f < exponent v) : 4096 ≤ v / 2 ^ f :=
  Nat.le_of_not_lt fun h => hf.not_ge ((exponent_le_iff v f).2 h)

/-- 134,217,728 is the first value that no exponent of 0..15 brings below 4096. -/
theorem exponent_le_fifteen_iff (v : Nat) : exponent v ≤ 15 ↔ v < 134217728 := by
  rw [exponent_le_iff]
  omega

theorem exponent_of_lt {v : Nat} (hv : v < 4096) : exponent v = 0 :=
  Nat.le_zero.1 ((exponent_le_iff v 0).2 (by simpa using hv))

theorem reportNumber_eq (v : Nat) :
    reportNumber v = if exponent v < 16 then exponent v * 4096 + v / 2 ^ exponent v else 65535 := rfl

/-- The two fields of the report number of a value below the cut. -/
theorem reportNumber_fields {v : Nat} (hv : v < 134217728) :
    reportNumber v / 4096 = exponent v ∧ reportNumber v % 4096 = v / 2 ^ exponent v := by
  have hexp := (exponent_le_fifteen_iff v).2 hv
  have hm := mantissa_lt v
  rw [reportNumber_eq, if_pos (by omega)]
  generalize v / 2 ^ exponent v = m at hm
  omega

theorem reportNumber_of_ge {v : Nat} (hv : 134217728 ≤ v) : reportNumber v = 65535 :=
  if_neg fun h => hv.not_gt ((exponent_le_fifteen_iff v).1 (Nat.le_of_lt_succ h))

/-- The values that a quotient by 2 ^ e stands for. -/
theorem div_two_pow_bounds (v e : Nat) : v / 2 ^ e * 2 ^ e ≤ v ∧ v ≤ v / 2 ^ e * 2 ^ e + 2 ^ e - 1 := by
  have hend := Nat.lt_div_mul_add (a := v) (Nat.two_pow_pos e)
  exact ⟨Nat.div_mul_le_self v _, by omega⟩

/-- Settles O12: below the cut the fields are `exponent v` and the quotient by its power of two
(`reportNumber_fields`), and `exponent_le_iff` makes that exponent the smallest one. -/
theorem reportNumberFormat : Obligations.ReportNumberFormat := by
  intro v e m
  rcases Nat.lt_or_ge v 134217728 with hv | hv
  · obtain ⟨he, hm⟩ : e = exponent v ∧ m = v / 2 ^ exponent v := reportNumber_fields hv
    rw [hm, he]
    refine ⟨(exponent_le_fifteen_iff v).2 hv, fun _ => ⟨rfl, mantissa_lt v, fun f => le_div_of_lt_exponent,
      div_two_pow_bounds v _⟩, fun hge => absurd hv hge.not_gt, fun hsmall => ?_⟩
    simp [exponent_of_lt hsmall]
  · have hfields : e = 15 ∧ m = 4095 := by simp [e, m, reportNumber_of_ge hv]
    exact ⟨hfields.1.le, fun hlt => absurd hlt hv.not_gt, fun _ => hfields, fun hsmall => by omega⟩

end Sys2Proof.ReportNumber

namespace Sys2Proof.Machine

/-! ## What the acts of calls and of the tap pool keep

`State.Follows a s`: `s` is reached from `a` by acts of calls, of samples and of slot sharing, none of which frees
or engages a guest, and that keep what every step keeps of them: the sizes, the order and the length of the send
queue, the slots and roles of the contexts, and the ranges of their serving parts. Each act of the model has one lemma
`a.Follows s → a.Follows (act s)`, and a compound
act follows by a chain of its parts' lemmas. -/

/-! ### The send queue -/

theorem rankOrdered_insertEntry {q : List Entry} (h : rankOrdered q) (e : Entry) : rankOrdered (insertEntry e q) := by
  rw [insertEntry_of_ordered e q h]
  refine List.pairwise_append.2 ⟨h.sublist List.filter_sublist,
    List.pairwise_cons.2 ⟨fun b hb => ?_, h.sublist List.filter_sublist⟩, fun a ha b hb => ?_⟩
  · simp only [List.mem_filter, decide_eq_true_eq] at hb
    omega
  · simp only [List.mem_filter, List.mem_cons, decide_eq_true_eq] at ha hb
    rcases hb with rfl | hb <;> omega

theorem removeNewest_sublist (rank : Nat) (q : List Entry) : (removeNewest rank q).Sublist q := by
  simpa [removeNewest] using (List.eraseP_sublist (p := fun e : Entry => e.msg.kind == rank) (l := q.reverse)).reverse

theorem rankOrdered_joinQueueWith {q : List Entry} (h : rankOrdered q) (e : Entry) :
    rankOrdered (joinQueueWith e q).1 := by
  have removed : ∀ rank, rankOrdered (insertEntry e (removeNewest rank q)) := fun rank =>
    rankOrdered_insertEntry (h.sublist (removeNewest_sublist rank q)) e
  obtain ⟨-, hj⟩ | ⟨-, -, -, hj⟩ | ⟨-, -, -, -, hj⟩ | ⟨-, hj⟩ := joinQueueWith_cases e q <;> rw [hj]
  · exact rankOrdered_insertEntry h e
  · exact removed 3
  · exact removed 4
  · exact h

/-! ### Serving parts and contexts -/

/-- Serving parts that keep the ranges of the parts they come from, under the profiles `ps`. -/
structure Serving.Follows (ps : List Profile) (sv sv' : Serving) : Prop where
  dt : sv.dtSound → sv'.dtSound
  noise : sv.noiseSound → sv'.noiseSound
  gains : (∀ p ∈ ps, p.sound) → sv.gainsSound → sv'.gainsSound

theorem Serving.Follows.refl (ps : List Profile) (sv : Serving) : Serving.Follows ps sv sv := ⟨id, id, fun _ => id⟩

theorem Serving.Follows.trans {ps : List Profile} {u v w : Serving} (h : Serving.Follows ps u v)
    (h' : Serving.Follows ps v w) : Serving.Follows ps u w :=
  ⟨h'.dt ∘ h.dt, h'.noise ∘ h.noise, fun hp => h'.gains hp ∘ h.gains hp⟩

/-- A change that leaves hangover, flag, noise estimate and gain indices keeps their ranges. -/
theorem Serving.Follows.of_eq {ps : List Profile} {sv sv' : Serving} (hh : sv'.hangover = sv.hangover)
    (hf : sv'.dtFlag = sv.dtFlag) (hn : sv'.noise = sv.noise) (hs : sv'.send.gain = sv.send.gain)
    (hr : sv'.receive.gain = sv.receive.gain) : Serving.Follows ps sv sv' := by
  constructor <;> simp only [Serving.dtSound, Serving.noiseSound, Serving.gainsSound, hh, hf, hn, hs, hr] <;> tauto

/-- Serving parts in their ranges, the gain indices under sound profiles `ps`. -/
structure Serving.Sound (ps : List Profile) (sv : Serving) : Prop where
  dt : sv.dtSound
  noise : sv.noiseSound
  gains : (∀ p ∈ ps, p.sound) → sv.gainsSound

theorem Serving.Follows.sound {ps : List Profile} {sv sv' : Serving} (h : Serving.Follows ps sv sv')
    (hs : sv.Sound ps) : sv'.Sound ps := ⟨h.dt hs.dt, h.noise hs.noise, fun hp => h.gains hp (hs.gains hp)⟩

/-- The kind a role belongs to, and whether a context in it is in use (R37). -/
def Role.standing : Role → Kind × Bool
  | .homeServing | .homeOffering | .handed | .reclaiming => (.home, true)
  | .guestFree => (.guest, false)
  | .reserved | .taken | .actingHome | .returning => (.guest, true)

theorem Role.standing_guestFree {r : Role} : r.standing = Role.guestFree.standing ↔ r = .guestFree := by
  cases r <;> simp [Role.standing]

theorem Kind.admits_eq (k : Kind) (r : Role) : k.admits r = decide (r.standing.1 = k) := by cases k <;> cases r <;> rfl

/-- A context that keeps kind and slot, and the ranges of its serving parts or takes new ones. -/
structure Context.Follows (ps : List Profile) (c c' : Context) : Prop where
  kind : c'.kind = c.kind
  slot : c'.slot = c.slot
  serving : ∀ sv', c'.serving = some sv' → (∃ sv, c.serving = some sv ∧ Serving.Follows ps sv sv') ∨ sv'.Sound ps

theorem Context.Follows.refl (ps : List Profile) (c : Context) : Context.Follows ps c c :=
  ⟨rfl, rfl, fun sv' h => .inl ⟨sv', h, .refl ps sv'⟩⟩

theorem Context.Follows.trans {ps : List Profile} {c d e : Context} (h : Context.Follows ps c d)
    (h' : Context.Follows ps d e) : Context.Follows ps c e := by
  refine ⟨h'.kind.trans h.kind, h'.slot.trans h.slot, fun sv'' hsv'' => ?_⟩
  obtain ⟨sv', hsv', hf'⟩ | hs := h'.serving sv'' hsv''
  · obtain ⟨sv, hsv, hf⟩ | hs := h.serving sv' hsv'
    · exact .inl ⟨sv, hsv, hf.trans hf'⟩
    · exact .inr (hf'.sound hs)
  · exact .inr hs

/-- A change of a context outside its serving parts. -/
theorem Context.Follows.of_eq {ps : List Profile} {c c' : Context} (hk : c'.kind = c.kind) (hs : c'.slot = c.slot)
    (hv : c'.serving = c.serving) : Context.Follows ps c c' :=
  ⟨hk, hs, fun sv' h => .inl ⟨sv', hv ▸ h, .refl ps sv'⟩⟩

/-- A change of the serving parts alone. -/
theorem Context.Follows.map_serving {ps : List Profile} (c : Context) {f : Serving → Serving}
    (hf : ∀ sv, c.serving = some sv → Serving.Follows ps sv (f sv)) :
    Context.Follows ps c { c with serving := c.serving.map f } := by
  refine ⟨rfl, rfl, fun sv' h => ?_⟩
  obtain ⟨sv, hsv, rfl⟩ := Option.map_eq_some_iff.1 h
  exact .inl ⟨sv, hsv, hf sv hsv⟩

/-! ### The relation of states -/

/-- Context i is no free guest, in a station whose slots are sound. -/
def State.occupied (a : State) (i : Nat) : Prop := a.slotsSound → a.ctx i ≠ freeGuest

/-- A role other than GUEST-FREE occupies the context. -/
theorem State.occupied_of_role {a : State} {i : Nat} (h : (a.ctx i).role ≠ .guestFree) : a.occupied i :=
  fun _ hc => h (by rw [hc]; rfl)

theorem State.occupied_of_serving {a : State} {i : Nat} {sv : Serving} (h : (a.ctx i).serving = some sv) :
    a.occupied i := fun _ hc => by rw [hc] at h; cases h

theorem State.occupied_of_search {a : State} {i : Nat} {r : SearchRecord} (h : (a.ctx i).search = some r) :
    a.occupied i := fun _ hc => by rw [hc] at h; cases h

theorem State.occupied_of_serves {a : State} {i : Nat} (h : a.serves i = true) : a.occupied i := by
  refine State.occupied_of_role fun hr => ?_
  simp [State.serves, hr, Role.serves] at h

/-- In a station with sound slots a GUEST-FREE context has its fields cleared (R18). -/
theorem State.slotsSound.free_ctx {s : State} (h : s.slotsSound) {i : Nat} (hr : (s.ctx i).role = .guestFree) :
    s.ctx i = freeGuest := by
  obtain ⟨-, hlen, -, hctx, -⟩ := h
  by_cases hi : i < 64
  · obtain ⟨hadm, hc⟩ := hctx i hi
    split at hc
    · rw [hc.1, hr] at hadm
      exact absurd hadm (by decide)
    · exact hc.2.2 hr
  · exact State.ctx_ge s i (hlen ▸ Nat.not_lt.mp hi)

/-- A context that holds a slot is no free guest. -/
theorem State.slotsSound.occupied_of_lookup {s : State} {slot i : Nat} (hl : s.lookup slot = some i) :
    s.occupied i := by
  intro hs hc
  obtain ⟨-, -, -, -, hdir⟩ := hs
  have := (hdir slot i).1 hl
  rw [hc] at this
  cases this

/-- What the acts of calls, of samples and of slot sharing leave alone: the waiting commands, the Profile Table, the slot
directory, the idle codes, and the number of records of every kind. -/
def State.fixed (s : State) :
    (List Instr × ProfileTable × List (Option Nat) × List Byte × Nat) × Nat × Nat × Nat × Nat × Nat :=
  ((s.pending, s.profile, s.table.directory, s.highway.idleCodes, s.highway.idleCount), s.table.contexts.length,
    s.pool.blocks.length, s.highway.pipeline.length, s.share.offers.length, s.share.absence.length)

theorem State.fixed_of_outside {s t : State} (h : t.outside = s.outside) : t.fixed = s.fixed := by
  simp only [State.fixed, outside_pending h, outside_profile h, outside_directory h, outside_highway h,
    outside_contexts h, outside_blocks h, outside_share h]

theorem State.countsSound_of_outside {s t : State} (h : t.outside = s.outside)
    (hd : s.lane.drops ≤ 65535 → t.lane.drops ≤ 65535) (hs : s.countsSound) : t.countsSound := by
  simpa only [State.countsSound, outside_profile h, outside_highway h, outside_share h, outside_discards h,
    outside_clashes h, outside_surplus h, hs.2.1, hd hs.2.1] using hs

/-- `s` follows from `a` by acts of calls, of samples and of slot sharing. -/
structure State.Follows (a s : State) : Prop where
  fixed : s.fixed = a.fixed
  counts : a.countsSound → s.countsSound
  queue_le : a.lane.queue.length ≤ 16 → s.lane.queue.length ≤ 16
  ranked : rankOrdered a.lane.queue → rankOrdered s.lane.queue
  ctx : ∀ k, Context.Follows a.profile.profiles (a.ctx k) (s.ctx k)
  role : a.slotsSound → ∀ k, (s.ctx k).role.standing = (a.ctx k).role.standing
  free : a.slotsSound → ∀ k, a.ctx k = freeGuest → s.ctx k = freeGuest

namespace State.Follows

theorem refl (a : State) : a.Follows a := ⟨rfl, id, id, id, fun _ => .refl _ _, fun _ _ => rfl, fun _ _ => id⟩

variable {a s : State} {i : Nat}

theorem profile (h : a.Follows s) : s.profile = a.profile := congrArg (·.1.2.1) h.fixed

theorem directory (h : a.Follows s) : s.table.directory = a.table.directory := congrArg (·.1.2.2.1) h.fixed

theorem contexts_length (h : a.Follows s) : s.table.contexts.length = a.table.contexts.length :=
  congrArg (·.2.1) h.fixed

/-- Sound slots follow: slots, kinds, directory and sizes stand, and roles keep their standing. -/
theorem slotsSound (h : a.Follows s) (ha : a.slotsSound) : s.slotsSound := by
  have roleFree : ∀ k, (s.ctx k).role = .guestFree ↔ (a.ctx k).role = .guestFree := fun k => by
    rw [← Role.standing_guestFree, h.role ha k, Role.standing_guestFree]
  have free : ∀ k, (s.ctx k).role = .guestFree → s.ctx k = freeGuest := fun k hk =>
    h.free ha k (ha.free_ctx ((roleFree k).1 hk))
  have role := h.role ha
  obtain ⟨hn, hlen, hdlen, hctx, hdir⟩ := ha
  refine ⟨by rwa [h.profile], h.contexts_length.trans hlen, (congrArg List.length h.directory).trans hdlen,
    fun k hk => ?_, fun slot k => ?_⟩
  · obtain ⟨hadm, hc⟩ := hctx k hk
    rw [(h.ctx k).kind, Kind.admits_eq, role k, ← Kind.admits_eq, h.profile, (h.ctx k).slot, roleFree k]
    refine ⟨hadm, ?_⟩
    split at hc
    · rwa [if_pos ‹_›]
    · rw [if_neg ‹_›]
      exact ⟨hc.1, hc.2.1, fun hr => free k ((roleFree k).2 hr)⟩
  · rw [State.lookup, h.directory, ← State.lookup, hdir, (h.ctx k).slot]

theorem trans {u : State} (h : a.Follows s) (h' : s.Follows u) : a.Follows u :=
  ⟨h'.fixed.trans h.fixed, h'.counts ∘ h.counts, h'.queue_le ∘ h.queue_le, h'.ranked ∘ h.ranked,
    fun k => (h.ctx k).trans (h.profile ▸ h'.ctx k),
    fun ha k => (h'.role (h.slotsSound ha) k).trans (h.role ha k), fun ha k hk => h'.free (h.slotsSound ha) k (h.free ha k hk)⟩

/-- What is occupied before is no free guest after. -/
theorem ne_free (h : a.Follows s) (hi : a.occupied i) (ha : a.slotsSound) : s.ctx i ≠ freeGuest := fun hs =>
  hi ha (ha.free_ctx (by rw [← Role.standing_guestFree, ← h.role ha i, hs]; rfl))

/-! ### The primitive updates -/

/-- An update that leaves contexts and queue alone. -/
theorem same {t : State} (h : a.Follows s) (hf : t.fixed = s.fixed) (hc : s.countsSound → t.countsSound)
    (hq : t.lane.queue = s.lane.queue) (hctx : ∀ k, t.ctx k = s.ctx k) : a.Follows t := by
  refine h.trans ⟨hf, hc, by rw [hq]; exact id, by rw [hq]; exact id, fun k => ?_, fun _ k => by rw [hctx],
    fun _ k hk => ?_⟩
  · rw [hctx]; exact .refl _ _
  · rw [hctx, hk]

/-- An update of tap blocks, free FIFO, shortfall queue or recalled entries. -/
theorem same_outside {t : State} (h : a.Follows s) (ho : t.outside = s.outside) (hd : t.lane.drops = s.lane.drops)
    (hq : t.lane.queue = s.lane.queue) (hctx : ∀ k, t.ctx k = s.ctx k) : a.Follows t :=
  h.same (State.fixed_of_outside ho) (State.countsSound_of_outside ho (by rw [hd]; exact id)) hq hctx

/-- An update of one context. -/
theorem setCtx {c : Context} (h : a.Follows s) (hc : Context.Follows a.profile.profiles (s.ctx i) c)
    (hrole : a.slotsSound → c.role.standing = (s.ctx i).role.standing)
    (hfree : a.slotsSound → s.ctx i = freeGuest → c = freeGuest) : a.Follows (s.setCtx i c) := by
  have read : ∀ k, (s.setCtx i c).ctx k = c ∧ k = i ∨ (s.setCtx i c).ctx k = s.ctx k := fun k => by
    by_cases hk : i = k
    · subst hk
      by_cases hl : i < s.table.contexts.length
      · exact .inl ⟨State.ctx_setCtx_self _ _ _ hl, rfl⟩
      · exact .inr (by rw [State.setCtx_ge _ _ _ (Nat.not_lt.mp hl)])
    · exact .inr (State.ctx_setCtx_ne _ _ _ _ hk)
  refine ⟨(State.fixed_of_outside (State.outside_setCtx s i c)).trans h.fixed, h.counts, h.queue_le, h.ranked,
    fun k => ?_, fun ha k => ?_, fun ha k hk => ?_⟩
  · rcases read k with ⟨hk, rfl⟩ | hk <;> rw [hk]
    · exact (h.ctx k).trans hc
    · exact h.ctx k
  · rcases read k with ⟨hk, rfl⟩ | hk <;> rw [hk]
    · exact (hrole ha).trans (h.role ha k)
    · exact h.role ha k
  · rcases read k with ⟨hr, rfl⟩ | hr <;> rw [hr]
    · exact hfree ha (h.free ha k hk)
    · exact h.free ha k hk

/-- A change of an occupied context outside its serving parts. -/
theorem modCtx {f : Context → Context} (h : a.Follows s) (hi : a.occupied i) (hf : ∀ c, (f c).kind = c.kind
    ∧ (f c).slot = c.slot ∧ (f c).role.standing = c.role.standing ∧ (f c).serving = c.serving := by
      exact fun _ => ⟨rfl, rfl, rfl, rfl⟩) :
    a.Follows (s.modCtx i f) :=
  have ⟨hk, hs, hr, hv⟩ := hf (s.ctx i)
  h.setCtx (.of_eq hk hs hv) (fun _ => hr) fun ha hc => absurd hc (h.ne_free hi ha)

/-- The role becomes another of the same standing. -/
theorem setRole {f : Context → Context} {r : Role} (h : a.Follows s)
    (hr : a.slotsSound → (s.ctx i).role.standing = r.standing)
    (hf : ∀ c, (f c).kind = c.kind ∧ (f c).slot = c.slot ∧ (f c).role = r ∧ (f c).serving = c.serving := by
      exact fun _ => ⟨rfl, rfl, rfl, rfl⟩)
    (hfree : r ≠ .guestFree := by decide) : a.Follows (s.modCtx i f) :=
  have ⟨hk, hs, hrole, hv⟩ := hf (s.ctx i)
  h.setCtx (.of_eq hk hs hv) (fun ha => by rw [hrole, hr ha]) fun ha hc =>
    absurd (Role.standing_guestFree.1 ((hr ha).symm.trans (by rw [hc]; rfl))) hfree

/-- A change of the search record. -/
theorem modSearch {f : SearchRecord → SearchRecord} (h : a.Follows s) : a.Follows (s.modSearch i f) :=
  h.setCtx (.of_eq rfl rfl rfl) (fun _ => rfl) fun _ hc => by rw [hc]; rfl

/-- A change of the serving parts. -/
theorem modServing {f : Serving → Serving} (h : a.Follows s)
    (hf : ∀ sv, (s.ctx i).serving = some sv → Serving.Follows a.profile.profiles sv (f sv)) :
    a.Follows (s.modServing i f) :=
  h.setCtx (.map_serving _ hf) (fun _ => rfl) fun _ hc => by rw [hc]; rfl

/-- A change of the serving parts that leaves hangover, flag, noise estimate and gain indices. -/
theorem modServing_eq {f : Serving → Serving} (h : a.Follows s) (hf : ∀ sv, (f sv).hangover = sv.hangover
    ∧ (f sv).dtFlag = sv.dtFlag ∧ (f sv).noise = sv.noise ∧ (f sv).send.gain = sv.send.gain
    ∧ (f sv).receive.gain = sv.receive.gain := by exact fun _ => ⟨rfl, rfl, rfl, rfl, rfl⟩) :
    a.Follows (s.modServing i f) :=
  h.modServing fun sv _ => have ⟨h1, h2, h3, h4, h5⟩ := hf sv; .of_eq h1 h2 h3 h4 h5

variable {b n : Nat}

theorem modBlock {f : TapBlock → TapBlock} (h : a.Follows s) : a.Follows (s.modBlock b f) :=
  h.same_outside (by simp) rfl rfl fun _ => rfl
theorem reserveBlock (h : a.Follows s) : a.Follows (s.reserveBlock i b) := h.modBlock
theorem bindBlock {j : Nat} (h : a.Follows s) : a.Follows (s.bindBlock i j b) := h.modBlock
theorem failBlock (h : a.Follows s) : a.Follows (s.failBlock b n) := h.modBlock
theorem freeBlock (h : a.Follows s) : a.Follows (s.freeBlock b) := h.same_outside (by simp) rfl rfl fun _ => rfl
theorem fifo {q : List Nat} (h : a.Follows s) : a.Follows { s with pool := { s.pool with fifo := q } } :=
  h.same_outside rfl rfl rfl fun _ => rfl
theorem shortfall {q : List Nat} (h : a.Follows s) :
    a.Follows { s with pool := { s.pool with shortfall := q } } := h.same_outside rfl rfl rfl fun _ => rfl
theorem takeBlocks (h : a.Follows s) : a.Follows (s.takeBlocks n).2 := h.same_outside rfl rfl rfl fun _ => rfl

/-- Either branch of a choice. -/
theorem ite {t : State} {p : Prop} [Decidable p] (h : a.Follows s) (h' : a.Follows t) :
    a.Follows (if p then s else t) := by split <;> assumption

/-- A fold of updates. -/
theorem foldl {α : Type} {f : State → α → State} (hf : ∀ s x, a.Follows s → a.Follows (f s x)) (l : List α)
    (h : a.Follows s) : a.Follows (l.foldl f s) := by
  induction l generalizing s with
  | nil => exact h
  | cons x l ih => exact ih (hf s x h)

theorem foldl_bind {l : List (Nat × Nat)} (h : a.Follows s) :
    a.Follows (l.foldl (fun s jb => s.bindBlock i jb.1 jb.2) s) := h.foldl (fun _ _ h => h.bindBlock) l

theorem foldl_reserve {l : List Nat} (h : a.Follows s) :
    a.Follows (l.foldl (fun s b => s.reserveBlock i b) s) := h.foldl (fun _ _ h => h.reserveBlock) l

/-! ### The send queue -/

theorem enqueue {e : Entry} (h : a.Follows s) : a.Follows (s.enqueue e).1 :=
  h.trans ⟨rfl, State.countsSound_of_outside rfl fun _ => State.enqueue_drops_le s e, State.enqueue_queue_le s e,
    fun hr => rankOrdered_joinQueueWith hr e, fun _ => .refl _ _, fun _ _ => rfl,
    fun _ _ => id⟩

theorem send {m : Msg} (h : a.Follows s) : a.Follows (s.send m) := h.enqueue

theorem notify {kind : Nat} {fs : List Field} (h : a.Follows s) : a.Follows (s.notify kind fs) := by
  unfold State.notify
  split
  · exact h.send
  · exact h

theorem withdraw {p : Entry → Bool} (h : a.Follows s) : a.Follows (s.withdraw p) :=
  h.trans ⟨rfl, id, (s.withdraw_queue_le p).trans, fun hr => hr.sublist List.filter_sublist, fun _ => .refl _ _,
    fun _ _ => rfl, fun _ _ => id⟩

theorem recallEntries {p : Entry → Bool} (h : a.Follows s) : a.Follows (s.recall p) := by
  unfold State.recall
  split
  · exact h.withdraw
  · exact h.same_outside rfl rfl rfl fun _ => rfl

/-! ### The shortfall queue, notices of the pool, and offers -/

theorem noticeRetired (h : a.Follows s) : a.Follows (s.noticeRetired b n) := h.notify

theorem cancelOffer (h : a.Follows s) : a.Follows (s.cancelOffer i) := by
  unfold State.cancelOffer
  dsimp only
  split
  · next hc => exact h.recallEntries.setRole (r := .homeServing) fun _ => by rw [State.recall_ctx, hc.1]; rfl
  · exact h

theorem leaveShortfall (h : a.Follows s) : a.Follows (s.leaveShortfall i) := h.shortfall.cancelOffer.ite h

theorem joinShortfall (h : a.Follows s) : a.Follows (s.joinShortfall i) := h.ite h.shortfall.notify

theorem fillMap {map : List Segment} {bs : List Nat} (h : a.Follows s) : a.Follows (s.fillMap i map bs).1 :=
  h.foldl_bind.modSearch

theorem requestForPlan (h : a.Follows s) : a.Follows (requestForPlan i s) :=
  have filled := h.takeBlocks.fillMap
  h.ite (h.joinShortfall.ite (filled.ite filled.joinShortfall))

/-! ### Tasks -/

theorem leaveIfMet (h : a.Follows s) : a.Follows (s.leaveIfMet i) := h.leaveShortfall.ite h

theorem placeBlock (h : a.Follows s) : a.Follows (placeBlock b s).1 := by
  unfold Machine.placeBlock
  split
  · exact h.freeBlock
  · split
    · exact h.reserveBlock.modSearch
    · split
      · exact h.bindBlock.modSearch.leaveIfMet
      · exact h.freeBlock
    · exact h.freeBlock

theorem promoteTask (h : a.Follows s) : a.Follows (promoteTask s).1 := by
  unfold Machine.promoteTask
  split
  · exact h
  · exact (h.notify.ite h).placeBlock

theorem releaseTask (h : a.Follows s) : a.Follows (releaseTask b s).1 := by
  unfold Machine.releaseTask
  split
  · exact h.failBlock.noticeRetired.promoteTask
  · exact h.placeBlock

theorem passStartTask (h : a.Follows s) : a.Follows (passStartTask i s).1 := by
  unfold Machine.passStartTask
  split
  · dsimp only
    split
    · exact h
    · split
      · exact h.foldl_bind.modSearch
      · exact h.foldl_bind.modSearch.leaveShortfall
  · exact h

/-- The call state of an occupied context becomes TRACK. -/
theorem toTrack (h : a.Follows s) (hi : a.occupied i) : a.Follows (s.toTrack i) := h.modCtx hi

theorem searchEndTask (h : a.Follows s) : a.Follows (searchEndTask i s).1 := by
  unfold Machine.searchEndTask
  split
  · exact h
  · next r hr =>
    have hi := State.occupied_of_search hr
    refine h.trans ?_
    dsimp only
    split
    · exact (refl s).modSearch.leaveShortfall.modSearch.toTrack hi
    · exact ((refl s).modSearch.fillMap.leaveShortfall.ite (refl s).modSearch.fillMap).toTrack hi

theorem finishSearchTask (h : a.Follows s) : a.Follows (finishSearchTask i s).1 :=
  h.requestForPlan.modSearch.modServing_eq.notify

theorem doTask (t : Task) (h : a.Follows s) : a.Follows (doTask t s).1 := by
  cases t with
  | release b => exact h.releaseTask
  | promote => exact h.promoteTask
  | passStart i => exact h.passStartTask
  | checkMet i => exact h.leaveIfMet
  | searchEnd i => exact h.searchEndTask
  | finishSearch i => exact h.finishSearchTask

theorem runTasks (fuel : Nat) (ts : List Task) (h : a.Follows s) : a.Follows (runTasks fuel ts s) := by
  induction fuel generalizing ts s with
  | zero => exact h
  | succ n ih =>
    cases ts with
    | nil => exact h
    | cons t ts => exact ih _ (h.doTask t)

theorem perform {ts : List Task} (h : a.Follows s) : a.Follows (perform ts s) := h.runTasks _ _

/-! ### Requests, failures and upsets -/

theorem requestToSpare (h : a.Follows s) : a.Follows (requestToSpare i s).1 := by
  unfold Machine.requestToSpare
  dsimp only
  split
  · exact h
  · split
    · exact h.joinShortfall
    · have taken := (h.takeBlocks (n := min (s.shortOf i) s.free)).foldl_reserve (i := i)
        (l := (s.takeBlocks (min (s.shortOf i) s.free)).1)
      exact taken.modSearch.joinShortfall.ite taken.modSearch

/-- A request, and the pass start of a search that obtained a block. -/
theorem request (h : a.Follows s) : a.Follows (if 0 < (Machine.requestToSpare i s).2 then
    Machine.perform [.passStart i] (Machine.requestToSpare i s).1 else (Machine.requestToSpare i s).1) :=
  h.requestToSpare.perform.ite h.requestToSpare

theorem retire (h : a.Follows s) : a.Follows (retire b s) := by
  unfold Machine.retire
  dsimp only
  split
  · exact h.fifo.modBlock.modSearch.failBlock.noticeRetired.perform
  · exact h.modBlock

theorem retireIfDue (h : a.Follows s) : a.Follows (retireIfDue b s) := h.retire.ite h

theorem correctedReads (h : a.Follows s) : a.Follows (correctedReads b n s) := h.modBlock.retireIfDue

theorem loseSegment {j : Nat} (h : a.Follows s) : a.Follows (loseSegment i j s) := by
  unfold Machine.loseSegment
  dsimp only
  split
  · exact h.modSearch
  · exact h.modSearch.ite (h.modSearch.perform.ite (h.modSearch.modSearch.ite h.modSearch.modSearch.request))

theorem restIfUnbound (h : a.Follows s) : a.Follows (restIfUnbound i s) :=
  h.modServing_eq.ite h

theorem uncorrectable {j : Nat} (h : a.Follows s) : a.Follows (uncorrectable i j b s) := by
  have promoted := ((h.failBlock (b := b) (n := 0)).noticeRetired (b := b) (n := 3)).modSearch (i := i)
    (f := fun r => { r with map := setFill j .lost r.map }) |>.perform (ts := [.promote])
  unfold Machine.uncorrectable
  dsimp only
  split
  · exact promoted.fifo.bindBlock.modSearch
  · split
    · exact promoted.loseSegment
    · exact promoted.modSearch.restIfUnbound.joinShortfall
    all_goals exact promoted

theorem strike {upsets : List TapUpset} (h : a.Follows s) : a.Follows (strike upsets s) :=
  h.foldl (fun _ _ h => h.modBlock) upsets

theorem readBlock {jb : Nat × Nat} (h : a.Follows s) : a.Follows (readBlock i s jb) :=
  h.uncorrectable.ite (h.ite h.modBlock.correctedReads)

theorem readBlocks {bound : List (Nat × Nat)} (h : a.Follows s) : a.Follows (readBlocks i bound s) := by
  refine h.foldl (fun s b h => ?_) _
  split
  · exact h.readBlock
  · exact h

/-! ### Gains and profiles -/

end State.Follows

theorem defaultProfile_sound (n : Nat) : (defaultProfile n).sound := by
  simp only [Profile.sound, defaultProfile, gainSound]
  split <;> decide

/-- A profile read from sound profiles is sound (R175). -/
theorem profile_getD_sound {ps : List Profile} (h : ∀ p ∈ ps, p.sound) (n : Nat) :
    (ps.getD n (defaultProfile 0)).sound := by
  rw [List.getD_eq_getElem?_getD]
  cases hn : ps[n]? with
  | none => exact defaultProfile_sound 0
  | some p => exact h p (List.mem_of_getElem? hn)

theorem Profile.sound.gains {p : Profile} (h : p.sound) : gainSound p.sendG ∧ gainSound p.receiveG := by
  obtain ⟨-, -, -, -, -, -, -, -, -, hs, hr⟩ := h
  exact ⟨hs, hr⟩

/-- The parts of a call set-up lie in their ranges under a sound profile (R27). -/
theorem callSetUp_sound (index : Nat) (p : Profile) (slot : Nat) (sv : Serving) :
    (callSetUp index p slot sv).dtSound ∧ (callSetUp index p slot sv).noiseSound
      ∧ (p.sound → (callSetUp index p slot sv).gainsSound) :=
  ⟨⟨Nat.zero_le _, by simp [callSetUp]⟩, by simp [Serving.noiseSound, callSetUp], fun h => h.gains⟩

namespace State.Follows

variable {a s : State} {i : Nat}

theorem callSetUp {sv : Serving} (h : a.Follows s) (index slot n : Nat) :
    Serving.Follows a.profile.profiles sv (callSetUp index (s.profileAt n) slot sv) :=
  have ⟨hd, hn, hg⟩ := callSetUp_sound index (s.profileAt n) slot sv
  ⟨fun _ => hd, fun _ => hn, fun hp _ => hg (by rw [State.profileAt, h.profile]; exact profile_getD_sound hp n)⟩

/-! ### The life of a call -/

theorem makeOffer (h : a.Follows s) (hr : (s.ctx i).role = .homeServing) : a.Follows (makeOffer i s) := by
  have offering := h.setRole (i := i) (r := .homeOffering) (fun _ => by rw [hr]; rfl)
    (f := fun c => { c with role := .homeOffering, offer := some ⟨none, none⟩ })
  unfold Machine.makeOffer
  dsimp only
  split
  · exact offering.enqueue
  · refine (offering.enqueue.setRole (r := .homeServing) fun ha => ?_).notify
    rw [offering.enqueue.role ha, ← h.role ha, hr]

theorem offerIfShort {n : Nat} (h : a.Follows s) : a.Follows (offerIfShort i n s) := by
  unfold Machine.offerIfShort
  split
  · next hc => exact h.makeOffer hc.1
  · exact h

theorem startSearch (h : a.Follows s) (hi : a.occupied i) : a.Follows (startSearch i s) :=
  have offered := (h.modCtx hi).requestToSpare.offerIfShort
  offered.perform.ite offered

theorem callStart (h : a.Follows s) (hi : a.occupied i) : a.Follows (callStart i s) :=
  have setUp := (h.modCtx hi (f := fun c => { c with toneHold := false })).modServing fun _ _ =>
    (h.modCtx hi).callSetUp _ _ _
  (setUp.modCtx hi).ite (setUp.startSearch hi)

theorem releaseHeld (h : a.Follows s) (hi : a.occupied i) : a.Follows (releaseHeld i s) :=
  (h.cancelOffer.leaveShortfall.modCtx hi).perform

theorem clearTone (h : a.Follows s) : a.Follows (clearTone i s) := h.modServing_eq

theorem enterPassing {st : CallState} (h : a.Follows s) (hi : a.occupied i) : a.Follows (enterPassing i st s) :=
  have released := (h.modCtx hi).releaseHeld hi
  released.ite (released.modCtx hi).clearTone

theorem callEnded (h : a.Follows s) (hi : a.occupied i) : a.Follows (callEnded i s) := by
  unfold Machine.callEnded
  split
  case h_4 | h_5 | h_6 => exact h
  all_goals exact h.enterPassing hi

theorem endCall (h : a.Follows s) (hi : a.occupied i) : a.Follows (endCall i s) := h.modServing_eq.callEnded hi

theorem searchAgain (h : a.Follows s) (hi : a.occupied i) : a.Follows (searchAgain i s) :=
  have again := (h.modServing_eq (f := restartFilter)).modCtx hi
  again.perform.ite again.request

theorem startTaker {bypass : Bool} (h : a.Follows s) (hi : a.occupied i) : a.Follows (startTaker i bypass s) :=
  ((h.modCtx hi).perform).ite (h.modCtx hi).perform.perform

/-! ### Block ends and the events they make due -/

theorem mapBound {f : List TapEntry → List TapEntry} (h : a.Follows s) : a.Follows (s.mapBound i f) :=
  h.foldl (fun _ _ h => h.modBlock) _

theorem unbind {gone : List (Nat × Nat)} (h : a.Follows s) : a.Follows (unbind i gone s) :=
  (h.foldl (fun _ _ h => h.reserveBlock) gone).modSearch

theorem nextStep {failed : List Nat} {r : SearchRecord} (h : a.Follows s) : a.Follows (nextStep i failed r s) :=
  h.unbind.perform.ite (h.unbind.perform.ite (h.modSearch.ite h.unbind.perform))

theorem evaluate (h : a.Follows s) : a.Follows (evaluate i s) := by
  unfold Machine.evaluate
  split
  · exact h
  · exact h.modSearch.nextStep

theorem settleSearch (h : a.Follows s) : a.Follows (settleSearch i s) := h.modSearch.perform

theorem pathChanged (h : a.Follows s) (hi : a.occupied i) : a.Follows (pathChanged i s) :=
  (h.releaseHeld hi).notify.searchAgain hi

theorem setToneHold (h : a.Follows s) (hi : a.occupied i) : a.Follows (setToneHold i s) :=
  (h.modCtx hi).modServing_eq

theorem releaseToneHold (h : a.Follows s) (hi : a.occupied i) : a.Follows (releaseToneHold i s) :=
  (h.modCtx hi).clearTone

/-- The gains of a release from DISABLED are those of the profile in use (R126). -/
theorem releasedGains (h : a.Follows s) (sv : Serving) : Serving.Follows a.profile.profiles sv
    { sv with receive := sv.receive.released (s.profileOf i).receiveG, send := sv.send.released (s.profileOf i).sendG } := by
  refine ⟨id, id, fun hp _ => ?_⟩
  rw [← h.profile] at hp
  exact (profile_getD_sound hp _).gains

theorem releaseDisabled (h : a.Follows s) (hi : a.occupied i) : a.Follows (releaseDisabled i s) := by
  unfold Machine.releaseDisabled
  exact ((h.releaseToneHold hi).modServing fun sv _ => h.releasedGains sv).searchAgain hi

/-- An event taken when it is due, on a context that serves. -/
theorem whenDue {due : Context → Serving → Bool} {act : Nat → State → State} (h : a.Follows s)
    (hact : a.Follows (act i s)) : a.Follows (whenDue due act i s) := by
  unfold Machine.whenDue
  split
  · exact hact.ite h
  · exact h

theorem evaluateIfDue (h : a.Follows s) : a.Follows (evaluateIfDue i s) := h.whenDue h.evaluate

theorem pathChangeIfDue (h : a.Follows s) (hi : a.occupied i) : a.Follows (pathChangeIfDue i s) :=
  h.whenDue (h.pathChanged hi)

theorem toneHoldIfDue (h : a.Follows s) (hi : a.occupied i) : a.Follows (toneHoldIfDue i s) :=
  h.whenDue (h.setToneHold hi)

theorem toneHoldReleaseIfDue (h : a.Follows s) (hi : a.occupied i) : a.Follows (toneHoldReleaseIfDue i s) :=
  h.whenDue (h.releaseToneHold hi)

theorem disabledReleaseIfDue (h : a.Follows s) (hi : a.occupied i) : a.Follows (disabledReleaseIfDue i s) :=
  h.whenDue (h.releaseDisabled hi)

theorem disableOnReversal (h : a.Follows s) (hi : a.occupied i) : a.Follows (disableOnReversal i s) := by
  unfold Machine.disableOnReversal
  split
  · exact h
  · exact h.ite (h.enterPassing hi).notify

theorem levelBlockEnd_gain {l : Level} (alc hold allowed : Bool) (target : Int) (h : gainSound l.gain) :
    gainSound (levelBlockEnd alc hold allowed target l).gain := Laws.levelBlockEnd_range _ _ _ _ _ h

/-- The serving parts after a block end's work keep their ranges. -/
theorem servingBlockEnd (s : State) (sv : Serving) (tone : Bool) (ps : List Profile) :
    Serving.Follows ps sv (toneBlockEnd tone (servingBlockEnd s i sv)) := by
  have h : Serving.Follows ps sv (Machine.servingBlockEnd s i sv) :=
    ⟨id, Laws.nextNoise_range sv.noise _, fun _ hg => ⟨levelBlockEnd_gain _ _ _ _ hg.1, levelBlockEnd_gain _ _ _ _ hg.2⟩⟩
  unfold toneBlockEnd
  split
  · exact h.trans (.of_eq rfl rfl rfl rfl rfl)
  · exact h

theorem countDwell {report : CommitReport} (h : a.Follows s) : a.Follows (s.modCtx i (countDwell report)) := by
  refine h.setCtx ?_ (fun _ => ?_) fun _ hc => by rw [hc]; rfl
  all_goals unfold Machine.countDwell; split
  · exact .of_eq rfl rfl rfl
  · exact .refl _ _
  all_goals rfl

theorem fullBlockEnd {sv : Serving} (h : a.Follows s) (hi : a.occupied i) (hsv : (s.ctx i).serving = some sv) :
    a.Follows (fullBlockEnd i sv s) := by
  unfold Machine.fullBlockEnd
  dsimp only
  have worked (f : List TapEntry → List TapEntry) (report : CommitReport) (tone : Bool) : a.Follows
      (((s.mapBound i f).modCtx i (Machine.countDwell report)).modServing i
        fun _ => toneBlockEnd tone (Machine.servingBlockEnd s i sv)) := by
    refine h.mapBound.countDwell.modServing fun sv' hsv' => ?_
    have hctx : (((s.mapBound i f).modCtx i (Machine.countDwell report)).ctx i).serving = (s.ctx i).serving := by
      rw [State.ctx_modCtx_proj Context.serving _ _ _ _ fun c => by unfold Machine.countDwell; split <;> rfl,
        State.mapBound, State.ctx_foldl _ (by simp)]
    obtain rfl : sv = sv' := Option.some.inj (hsv.symm.trans (hctx.symm.trans hsv'))
    exact servingBlockEnd s sv tone _
  exact ((((worked _ _ _).evaluateIfDue.pathChangeIfDue hi).toneHoldIfDue hi).disableOnReversal hi).toneHoldReleaseIfDue hi

end State.Follows
end Sys2Proof.Machine

namespace Sys2Proof.Machine.State.Follows

open Sys2Proof.Machine.State

variable {a s : State} {i b n : Nat}

/-! ### The ends of blocks -/

theorem leadInBlockEnd (h : a.Follows s) : a.Follows (leadInBlockEnd i s) := h.mapBound.modServing_eq

theorem disabledBlockEnd (h : a.Follows s) (hi : a.occupied i) : a.Follows (disabledBlockEnd i s) :=
  (h.modServing_eq.disabledReleaseIfDue hi).ite h

theorem blockEnded (h : a.Follows s) (hi : a.occupied i) : a.Follows (blockEnded i s) := by
  refine State.Follows.modServing_eq ?_
  split
  · exact h
  · next sv hsv =>
    split
    · exact h.leadInBlockEnd.ite (h.fullBlockEnd hi hsv)
    · exact h.leadInBlockEnd.ite (h.fullBlockEnd hi hsv)
    · exact h.disabledBlockEnd hi
    all_goals exact h

theorem blockEndIfDue (h : a.Follows s) (hi : a.occupied i) : a.Follows (blockEndIfDue i s) :=
  h.whenDue (h.blockEnded hi)

/-! ### Samples -/

/-- The serving parts become others that keep their ranges. -/
theorem setServing {sv sv' : Serving} (h : a.Follows s) (hsv : (s.ctx i).serving = some sv)
    (hf : Serving.Follows a.profile.profiles sv sv') : a.Follows (s.modServing i fun _ => sv') :=
  h.modServing fun w hw => by
    obtain rfl : sv = w := Option.some.inj (hsv.symm.trans hw)
    exact hf

/-- An update of the pipelines and the output lines. -/
theorem setPipeline {p : List (List Placed)} {l : OutputLines} (h : a.Follows s)
    (hp : p.length = s.highway.pipeline.length) :
    a.Follows { s with highway := { s.highway with pipeline := p, lines := l } } :=
  h.same (by simp [State.fixed, hp]) id rfl fun _ => rfl

theorem clearPipeline {slot : Nat} (h : a.Follows s) : a.Follows (s.clearPipeline slot) :=
  h.setPipeline (l := s.highway.lines) (by simp)

theorem driveSlot {slot : Nat} {served : Bool} (h : a.Follows s) : a.Follows (driveSlot slot served s) :=
  h.setPipeline (by simp)

theorem placeCodes {slot : Nat} {codes : CodePair} (h : a.Follows s) : a.Follows (placeCodes slot codes s) :=
  h.setPipeline (l := s.highway.lines) (by simp)

theorem callStarted (h : a.Follows s) (hi : a.occupied i) : a.Follows (callStarted i s) :=
  ((h.recallEntries.ite h).callStart hi).ite (h.recallEntries.ite h)

theorem recognise {rin sin : Byte} (h : a.Follows s) (hi : a.occupied i) : a.Follows (recognise i rin sin s) := by
  unfold Machine.recognise
  split
  · exact h
  · next sv hsv =>
    have counted {f : Serving} (hf : f.hangover = sv.hangover ∧ f.dtFlag = sv.dtFlag ∧ f.noise = sv.noise
        ∧ f.send.gain = sv.send.gain ∧ f.receive.gain = sv.receive.gain) : a.Follows (s.modServing i fun _ => f) :=
      have ⟨h1, h2, h3, h4, h5⟩ := hf
      h.setServing hsv (.of_eq h1 h2 h3 h4 h5)
    have same := fun c r e => counted (f := { sv with callPresent := c, idleRun := r, ending := e })
      ⟨rfl, rfl, rfl, rfl, rfl⟩
    exact (((same _ _ _).endCall hi).ite (same _ _ _)).ite ((same _ _ _).ite ((same _ _ _).callStarted hi))

theorem gatherGradients {parts : List (Nat × Nat)} {e : Int} {window : List Int} (h : a.Follows s) :
    a.Follows (gatherGradients parts e window s) := h.foldl (fun _ _ h => h.modBlock) _

/-- The send path keeps the ranges of the serving parts (R61, R73, R116). -/
theorem sendPath_follows (ps : List Profile) (c : Context) (p : Profile) (sv : Serving) (r : Received)
    (hr : r.level.gain = sv.receive.gain) (bound : List Nat) (y e v : Int) (failed : List Nat) :
    Serving.Follows ps sv { (sendPath c p sv r bound y e v).1 with failed } :=
  ⟨fun hd => ⟨Laws.nextHangover_le _ _ _ hd.1, by simp [sendPath]⟩, id,
    fun _ hg => ⟨hg.1, show gainSound r.level.gain from hr ▸ hg.2⟩⟩

theorem processSample {rin sin : Byte} {upsets : List TapUpset} (h : a.Follows s) :
    a.Follows (processSample i rin sin upsets s).1 := by
  have read := (h.strike (upsets := upsets)).readBlocks (i := i) (bound := s.boundOf i)
  unfold Machine.processSample
  dsimp only
  split
  · exact read
  · next sv hsv =>
    refine (read.gatherGradients.ite read).setServing (sv := sv) ?_ (sendPath_follows _ _ _ _ _ rfl _ _ _ _ _)
    split
    · rw [Machine.gatherGradients, State.ctx_foldl _ (by simp)]; exact hsv
    · exact hsv

theorem disabledSample {rin sin : Byte} (h : a.Follows s) : a.Follows (disabledSample i rin sin s) :=
  h.modServing_eq.ite h

theorem processByState {rin sin : Byte} {upsets : List TapUpset} (h : a.Follows s) :
    a.Follows (processByState i rin sin upsets s).1 := by
  unfold Machine.processByState
  split
  · exact h.processSample
  · exact h.processSample
  · exact h.disabledSample
  all_goals exact h

theorem servedSample {slot : Nat} {rin sin : Byte} {upsets : List TapUpset} (h : a.Follows s) (hi : a.occupied i) :
    a.Follows (servedSample i slot rin sin upsets s) :=
  (h.driveSlot.recognise hi).processByState.placeCodes.modServing_eq.blockEndIfDue hi

theorem onServed {slot : Nat} {act : Nat → State → State} (h : a.Follows s)
    (hact : ∀ i, s.servedBy slot = some i → a.Follows (act i s)) : a.Follows (onServed slot act s) := by
  unfold Machine.onServed
  split
  · next i hi => exact hact i hi
  · exact h

/-! ### Serving start and stop -/

/-- The parts of a serving start lie in their ranges (R23). -/
theorem newServing_sound (h : a.Follows s) (index n slot : Nat) (call : Bool) :
    (newServing index (s.profileAt n) slot call).Sound a.profile.profiles :=
  have ⟨hd, hn, hg⟩ := callSetUp_sound index (s.profileAt n) slot _
  ⟨hd, hn, fun hp => hg (by rw [State.profileAt, h.profile]; exact profile_getD_sound hp n)⟩

theorem servingStart {offered : Option Nat} (h : a.Follows s) (hi : a.occupied i) :
    a.Follows (servingStart i offered s) := by
  have started : a.Follows ((s.clearPipeline (s.slotOf i)).modCtx i fun c => { c with
      serving := some (newServing (offered.getD (s.ctx i).profile) (s.profileAt (offered.getD (s.ctx i).profile))
        (s.slotOf i) offered.isSome), search := none, toneHold := false }) :=
    h.clearPipeline.setCtx ⟨rfl, rfl, fun sv hsv => .inr (by cases hsv; exact h.newServing_sound ..)⟩ (fun _ => rfl)
      fun ha hc => absurd hc (h.clearPipeline.ne_free hi ha)
  unfold Machine.servingStart
  dsimp only
  split
  · exact started.startTaker hi
  · exact started.modCtx hi

theorem servingStop (h : a.Follows s) (hi : a.occupied i) : a.Follows (servingStop i s) :=
  (h.enterPassing hi).clearPipeline.setCtx ⟨rfl, rfl, fun _ hsv => by cases hsv⟩ (fun _ => rfl)
    fun ha hc => absurd hc ((h.enterPassing hi).clearPipeline.ne_free hi ha)

/-- A home context serves again. -/
theorem serveAgain (h : a.Follows s) (hr : a.slotsSound → (s.ctx i).role.standing = (.home, true)) (hi : a.occupied i) :
    a.Follows (serveAgain i s) := by
  unfold Machine.serveAgain
  exact (h.withdraw.setRole (r := .homeServing) hr).servingStart hi

/-! ### Slot controls -/

theorem rejudge (h : a.Follows s) (hi : a.occupied i) : a.Follows (rejudge s i) := by
  unfold Machine.rejudge
  split
  · exact h
  · exact ((h.callStart hi).ite (h.enterPassing hi)).ite h

theorem controlAction {action p : BitVec 3} (h : a.Follows s) (hi : a.occupied i) :
    a.Follows (controlAction action p i s) := by
  unfold Machine.controlAction
  split
  · exact h.modCtx hi
  · exact ((h.modCtx hi).enterPassing hi).ite (h.modCtx hi)
  · exact ((h.modCtx hi).rejudge hi).ite (h.modCtx hi)
  · exact h.modCtx hi
  · exact h.modCtx hi
  · exact h.settleSearch.ite h
  · exact ((h.releaseHeld hi).searchAgain hi).ite h
  · exact h

end Sys2Proof.Machine.State.Follows

namespace Sys2Proof.Machine

/-! ## What every command keeps

`State.Keeps s t`: the invariants of `s` stand in `t`. `State.Steady s t` adds that the waiting commands, the straps and
the configuration are the same, and that `t` is held under RESET only if `s` is. Both compose, and every act that follows
(`State.Follows`) keeps them; what remains are the acts that free or engage a guest, and the station's own life. -/

/-! ### Contexts and the directory of a station -/

theorem State.mem_contexts_ctx {s : State} {c : Context} (h : c ∈ s.table.contexts) : ∃ k, s.ctx k = c := by
  obtain ⟨k, hk, rfl⟩ := List.mem_iff_getElem.1 h
  exact ⟨k, by simp [State.ctx, List.getD_eq_getElem?_getD, hk]⟩

/-- A property of every set of serving parts, context by context. -/
theorem State.eachServing_iff {p : Serving → Prop} {s : State} :
    s.eachServing p ↔ ∀ k sv, (s.ctx k).serving = some sv → p sv := by
  refine ⟨fun h k sv hsv => ?_, fun h c hc sv hsv => ?_⟩
  · by_cases hk : k < s.table.contexts.length
    · refine h (s.ctx k) ?_ sv hsv
      simp [State.ctx, List.getD_eq_getElem?_getD, hk]
    · rw [State.ctx_ge s k (Nat.not_lt.mp hk)] at hsv
      cases hsv
  · obtain ⟨k, rfl⟩ := State.mem_contexts_ctx hc
    exact h k sv hsv

theorem directoryFor_length (k n : Nat) : (directoryFor k n).length = 128 := by simp [directoryFor, Config.slots]

/-- The home directory names context i for slot k + i·N, and no context for another slot (R17, R18). -/
theorem directoryFor_getD {k n : Nat} (hn : 2 ≤ n) (hk : ∀ i < homeCount k n, k + i * n < 128) (slot i : Nat) :
    (directoryFor k n).getD slot none = some i ↔ i < homeCount k n ∧ slot = k + i * n := by
  have hread : (directoryFor k n).getD slot none = if slot < 128 ∧ k < n ∧ slot % n = k then some (slot / n) else none := by
    by_cases hs : slot < 128
    · simp [directoryFor, Config.slots, List.getD_eq_getElem?_getD, hs]
    · simp [directoryFor, Config.slots, List.getD_eq_getElem?_getD, hs]
  rw [hread]
  constructor
  · intro h
    split at h
    · next hc =>
      obtain ⟨hs, hkn, hm⟩ := hc
      obtain rfl := Option.some.inj h
      have hdiv := Nat.div_add_mod slot n
      have hslot : slot = k + slot / n * n := by rw [Nat.mul_comm]; omega
      refine ⟨?_, hslot⟩
      rw [homeCount, if_pos hkn, Nat.lt_succ_iff, Nat.le_div_iff_mul_le (by omega)]
      omega
    · cases h
  · rintro ⟨hi, rfl⟩
    have hkn : k < n := by
      by_contra hc
      simp [homeCount, hc] at hi
    have hmod : (k + i * n) % n = k := by rw [Nat.add_mul_mod_self_right, Nat.mod_eq_of_lt hkn]
    have hquot : (k + i * n) / n = i := by rw [Nat.add_mul_div_right _ _ (by omega), Nat.div_eq_of_lt hkn, Nat.zero_add]
    rw [if_pos ⟨hk i hi, hkn, hmod⟩, hquot]

/-- A station whose contexts are its homes and free guests, with the home directory, holds its slots soundly. -/
theorem State.slotsSound_of_homes {s : State} (hn : 2 ≤ s.profile.n)
    (hk : ∀ i < homeCount s.profile.k s.profile.n, s.profile.k + i * s.profile.n < 128)
    (hlen : s.table.contexts.length = 64) (hdir : s.table.directory = directoryFor s.profile.k s.profile.n)
    (hhome : ∀ i < homeCount s.profile.k s.profile.n, (s.ctx i).kind = .home ∧ (s.ctx i).role = .homeServing
      ∧ (s.ctx i).slot = some (s.profile.k + i * s.profile.n))
    (hguest : ∀ i, homeCount s.profile.k s.profile.n ≤ i → s.ctx i = freeGuest) : s.slotsSound := by
  refine ⟨hn, hlen, by rw [hdir, directoryFor_length], fun i _ => ?_, fun slot i => ?_⟩
  · by_cases hi : i < homeCount s.profile.k s.profile.n
    · obtain ⟨hkind, hrole, hslot⟩ := hhome i hi
      rw [if_pos hi, hkind, hrole]
      exact ⟨rfl, rfl, hslot⟩
    · rw [if_neg hi, hguest i (Nat.not_lt.mp hi)]
      exact ⟨rfl, rfl, by simp [freeGuest, homeContext], fun _ => rfl⟩
  · rw [State.lookup, hdir, directoryFor_getD hn hk]
    constructor
    · rintro ⟨hi, rfl⟩
      exact (hhome i hi).2.2
    · intro hs
      by_cases hi : i < homeCount s.profile.k s.profile.n
      · rw [(hhome i hi).2.2] at hs
        exact ⟨hi, (Option.some.inj hs).symm⟩
      · rw [hguest i (Nat.not_lt.mp hi)] at hs
        cases hs

/-- The home slots of a station with sound slots are slots of the highway (R17). -/
theorem State.slotsSound.home_lt {s : State} (h : s.slotsSound) {i : Nat}
    (hi : i < homeCount s.profile.k s.profile.n) : i < 64 ∧ s.profile.k + i * s.profile.n < 128 := by
  obtain ⟨hn, -, hdlen, hctx, hdir⟩ := h
  have hlt : i < 64 := by
    unfold homeCount at hi
    split at hi
    · have := Nat.div_le_div_left hn (by decide : 0 < 2) (a := 127 - s.profile.k)
      omega
    · omega
  have hc := (hctx i hlt).2
  rw [if_pos hi] at hc
  refine ⟨hlt, Nat.lt_of_not_le fun hge => ?_⟩
  have hl := (hdir _ i).2 hc.2
  rw [State.lookup, List.getD_eq_getElem?_getD, List.getElem?_eq_none (hdlen ▸ hge)] at hl
  cases hl

/-- The station after RESET or a release holds its slots soundly, whatever its straps (R17, R18). -/
theorem State.slotsSound_of_tableFor {s : State} (hn : 2 ≤ s.profile.n)
    (hk : ∀ i < homeCount s.profile.k s.profile.n, s.profile.k + i * s.profile.n < 128)
    (ht : s.table = tableFor s.profile.k s.profile.n) : s.slotsSound := by
  have read : ∀ i, s.ctx i = if i < 64 ∧ i < homeCount s.profile.k s.profile.n then
      homeContext (s.profile.k + i * s.profile.n) else freeGuest := fun i => by
    by_cases hi : i < 64
    · simp [State.ctx, ht, tableFor, contextsFor, Config.contexts, List.getD_eq_getElem?_getD, hi]
    · simp [State.ctx, ht, tableFor, contextsFor, Config.contexts, List.getD_eq_getElem?_getD, hi]
  refine State.slotsSound_of_homes hn hk (by simp [ht, tableFor, contextsFor, Config.contexts]) (by rw [ht]; rfl)
    (fun i hi => ?_) fun i hi => by rw [read, if_neg (by omega)]
  have hlt : i < 64 := by
    unfold homeCount at hi
    split at hi
    · have := Nat.div_le_div_left hn (by decide : 0 < 2) (a := 127 - s.profile.k)
      omega
    · omega
  rw [read, if_pos ⟨hlt, hi⟩]
  exact ⟨rfl, rfl, rfl⟩

/-! ### The relations -/

/-- The invariants of every step that stand in `s` stand in `t`. -/
structure State.Keeps (s t : State) : Prop where
  sized : s.sized → t.sized
  queue_le : s.lane.queue.length ≤ 16 → t.lane.queue.length ≤ 16
  ranked : rankOrdered s.lane.queue → rankOrdered t.lane.queue
  counts : s.countsSound → t.countsSound
  dt : s.eachServing Serving.dtSound → t.eachServing Serving.dtSound
  noise : s.eachServing Serving.noiseSound → t.eachServing Serving.noiseSound
  gains : s.gainsSound → t.gainsSound
  slots : s.slotsSound → t.slotsSound

theorem State.Keeps.refl (s : State) : s.Keeps s := ⟨id, id, id, id, id, id, id, id⟩

theorem State.Keeps.trans {s t u : State} (h : s.Keeps t) (h' : t.Keeps u) : s.Keeps u :=
  ⟨h'.sized ∘ h.sized, h'.queue_le ∘ h.queue_le, h'.ranked ∘ h.ranked, h'.counts ∘ h.counts, h'.dt ∘ h.dt,
    h'.noise ∘ h.noise, h'.gains ∘ h.gains, h'.slots ∘ h.slots⟩

/-- The waiting commands, the straps, the profiles, the notice mask and the idle codes. -/
def State.configuration (s : State) : List Instr × (Nat × Nat × Bool) × List Profile × BitVec 12 × List Byte × Nat :=
  (s.pending, (s.profile.k, s.profile.n, s.profile.clamped), s.profile.profiles, s.profile.noticeMask,
    s.highway.idleCodes, s.highway.idleCount)

/-- The invariants stand, the configuration is the same, and no station comes under RESET. -/
structure State.Steady (s t : State) : Prop extends s.Keeps t where
  configuration : t.configuration = s.configuration
  held : t.profile.station = .held → s.profile.station = .held

namespace State.Steady

theorem refl (s : State) : s.Steady s := ⟨.refl s, rfl, id⟩

variable {s t u : State}

theorem trans (h : s.Steady t) (h' : t.Steady u) : s.Steady u :=
  ⟨h.toKeeps.trans h'.toKeeps, h'.configuration.trans h.configuration, h.held ∘ h'.held⟩

theorem ite {p : Prop} [Decidable p] (h : s.Steady t) (h' : s.Steady u) : s.Steady (if p then t else u) := by
  split <;> assumption

/-- A fold of steady updates over a list. -/
theorem foldl {α : Type} {f : State → α → State} {l : List α} (hf : ∀ s : State, ∀ x ∈ l, s.Steady (f s x)) (s : State) :
    s.Steady (l.foldl f s) := by
  induction l generalizing s with
  | nil => exact refl s
  | cons x l ih => exact (hf s x (by simp)).trans (ih (fun s y hy => hf s y (by simp [hy])) _)

theorem eachContext {act : Nat → State → State} (h : ∀ (i : Nat) (s : State), s.Steady (act i s)) (s : State) :
    s.Steady (eachContext act s) := foldl (fun s i _ => h i s) s

theorem eachSlot {act : Nat → State → State} (h : ∀ slot < 128, ∀ s : State, s.Steady (act slot s)) (s : State) :
    s.Steady (eachSlot act s) := foldl (fun s slot hs => h slot (by simpa [Config.slots] using hs) s) s

end State.Steady

/-- What follows keeps the invariants and the configuration. -/
theorem State.Follows.steady {s t : State} (h : s.Follows t) : s.Steady t := by
  have sv (p : Serving → Prop) (hf : ∀ sv sv', Serving.Follows s.profile.profiles sv sv' → p sv → p sv')
      (hp : ∀ sv, sv.Sound s.profile.profiles → p sv) (hs : s.eachServing p) : t.eachServing p := by
    rw [State.eachServing_iff] at hs ⊢
    intro k sv' hsv'
    obtain ⟨sv, hsv, hfol⟩ | hsound := (h.ctx k).serving sv' hsv'
    · exact hf sv sv' hfol (hs k sv hsv)
    · exact hp sv' hsound
  have hprofile := h.profile
  have hfixed := h.fixed
  simp only [State.fixed, Prod.mk.injEq] at hfixed
  obtain ⟨⟨hpend, -, hdir, hcodes, hcount⟩, hctx, hblk, hpipe, hoff, habs⟩ := hfixed
  refine ⟨⟨fun hs => ?_, h.queue_le, h.ranked, h.counts, sv _ (fun _ _ hf => hf.dt) fun _ hs => hs.dt,
    sv _ (fun _ _ hf => hf.noise) fun _ hs => hs.noise, fun hg => ⟨hprofile ▸ hg.1, ?_⟩, h.slotsSound⟩, ?_, ?_⟩
  · simpa only [State.sized, hctx, hblk, hpipe, hoff, habs, hdir, hprofile] using hs
  · exact sv _ (fun _ _ hf => hf.gains hg.1) (fun _ hs => hs.gains hg.1) hg.2
  · simp only [State.configuration, hpend, hprofile, hcodes, hcount]
  · rw [hprofile]; exact id

end Sys2Proof.Machine

namespace Sys2Proof.Machine

/-! ### Guests engaged and freed -/

/-- The lowest free guest is a guest context in GUEST-FREE (R18). -/
theorem State.freeGuest?_some {s : State} {i : Nat} (h : s.freeGuest? = some i) :
    i < s.table.contexts.length ∧ (s.ctx i).role = .guestFree ∧ (s.ctx i).kind = .guest := by
  have hmem := List.mem_of_mem_head? (Option.mem_def.2 h)
  rw [Laws.mem_indicesFrom] at hmem
  obtain ⟨-, c, hc, hp⟩ := hmem
  obtain ⟨hlt, rfl⟩ := List.getElem?_eq_some_iff.1 hc
  simp only [Nat.sub_zero, Bool.and_eq_true, beq_iff_eq] at hp hlt
  simpa [State.ctx, List.getD_eq_getElem?_getD, hlt] using hp

/-- Context i of a station with straps k and n stands as R17, R18 and R37 say. -/
def Context.placed (k n i : Nat) (c : Context) : Prop :=
  c.kind.admits c.role = true
    ∧ (if i < homeCount k n then c.kind = .home ∧ c.slot = some (k + i * n)
      else c.kind = .guest ∧ (c.slot = none ↔ c.role = .guestFree) ∧ (c.role = .guestFree → c = freeGuest))

theorem Context.placed_freeGuest {k n i : Nat} (h : ¬i < homeCount k n) : freeGuest.placed k n i := by
  rw [Context.placed, if_neg h]
  exact ⟨rfl, rfl, by simp [freeGuest, homeContext], fun _ => rfl⟩

theorem Context.placed_engaged {k n i slot : Nat} {c : Context} (h : ¬i < homeCount k n) (hk : c.kind = .guest)
    (hs : c.slot = some slot) (hr : c.role.standing = (.guest, true)) : c.placed k n i := by
  have hne : c.role ≠ .guestFree := fun hc => by rw [hc] at hr; cases hr
  rw [Context.placed, if_neg h, Kind.admits_eq, hr, hk, hs]
  exact ⟨rfl, rfl, by simp [hne], fun hc => absurd hc hne⟩

/-- A guest context is none of the homes. -/
theorem State.slotsSound.guest_ge {s : State} {i : Nat} (h : s.slotsSound) (hi : i < 64)
    (hk : (s.ctx i).kind = .guest) : ¬i < homeCount s.profile.k s.profile.n := fun hc => by
  have := (h.2.2.2.1 i hi).2
  rw [if_pos hc, hk] at this
  cases this.1

/-- A slot that has a context is a slot of the highway. -/
theorem State.slotsSound.slot_lt {s : State} {i slot : Nat} (h : s.slotsSound) (hl : s.lookup slot = some i) :
    slot < 128 := Nat.lt_of_not_le fun hge => by
  obtain ⟨-, -, hdlen, -, -⟩ := h
  rw [State.lookup, List.getD_eq_getElem?_getD, List.getElem?_eq_none (hdlen ▸ hge)] at hl
  cases hl

/-- Sound slots with one context replaced. -/
theorem State.slotsSound.replace {s t : State} {i : Nat} {c : Context} (h : s.slotsSound) (hp : t.profile = s.profile)
    (ht : t.table.contexts = s.table.contexts.set i c) (hdlen : t.table.directory.length = s.table.directory.length)
    (hc : i < 64 → c.placed s.profile.k s.profile.n i)
    (hdir : ∀ slot k, t.lookup slot = some k ↔ (if k = i ∧ k < 64 then c else s.ctx k).slot = some slot) :
    t.slotsSound := by
  obtain ⟨hn, hlen, hdl, hctx, -⟩ := h
  have hread : ∀ k, t.ctx k = if k = i ∧ k < 64 then c else s.ctx k := fun k => by
    have : t.ctx k = (s.setCtx i c).ctx k := by rw [State.ctx, ht]; rfl
    rw [this]
    by_cases hki : k = i
    · subst hki
      by_cases hlt : k < 64
      · rw [if_pos ⟨rfl, hlt⟩, State.ctx_setCtx_self _ _ _ (hlen ▸ hlt)]
      · rw [if_neg (fun h => hlt h.2), State.setCtx_ge _ _ _ (by omega)]
    · rw [if_neg (fun h => hki h.1), State.ctx_setCtx_ne _ _ _ _ (Ne.symm hki)]
  refine ⟨hp ▸ hn, by simpa [ht] using hlen, hdlen.trans hdl, fun k hk => ?_, fun slot k => by rw [hdir, hread]⟩
  rw [hread, hp]
  split
  · next hki => exact hki.1 ▸ hc (hki.1 ▸ hk)
  · exact hctx k hk

/-- A free guest engaged on a slot that no context holds keeps the slots sound (R18). -/
theorem State.slotsSound.engage {s : State} {i slot : Nat} {c : Context} (h : s.slotsSound) (hi : i < 64)
    (hfree : (s.ctx i).role = .guestFree) (hslot : slot < 128) (hl : s.lookup slot = none) (hk : c.kind = .guest)
    (hs : c.slot = some slot) (hr : c.role.standing = (.guest, true)) :
    ((s.setCtx i c).setDirectory slot (some i)).slotsSound := by
  have hctx := h.free_ctx hfree
  have hhome := h.guest_ge hi (by rw [hctx]; rfl)
  have hdir := h.2.2.2.2
  refine h.replace (i := i) (c := c) rfl rfl (by simp) (fun _ => Context.placed_engaged hhome hk hs hr) fun slot' k => ?_
  by_cases hs' : slot = slot'
  · subst hs'
    rw [State.lookup_setDirectory_self _ _ _ (by simpa [h.2.2.1] using hslot)]
    by_cases hki : k = i
    · simp [hki, hs, hi]
    · rw [if_neg (fun h => hki h.1), ← hdir, hl]
      simp [Ne.symm hki]
  · rw [State.lookup_setDirectory_ne _ _ _ _ hs', State.setCtx_lookup, hdir]
    by_cases hki : k = i
    · subst hki
      simp [hs, hs', hctx, hi, freeGuest]
    · rw [if_neg (fun h => hki h.1)]

/-- A guest freed keeps the slots sound (R18, R37). -/
theorem State.slotsSound.freeGuestAt {s : State} {i : Nat} (h : s.slotsSound) (hk : (s.ctx i).kind = .guest) :
    (s.freeGuestAt i).slotsSound := by
  have hdir := h.2.2.2.2
  have placed : i < 64 → freeGuest.placed s.profile.k s.profile.n i := fun hi =>
    Context.placed_freeGuest (h.guest_ge hi hk)
  have hge : ¬i < 64 → s.ctx i = freeGuest := fun hi => State.ctx_ge _ _ (by rw [h.2.1]; omega)
  unfold State.freeGuestAt
  split
  · next slot hslot =>
    have hl := (hdir slot i).2 hslot
    have hi : i < 64 := by
      by_contra hc
      rw [hge hc] at hslot
      cases hslot
    refine h.replace (i := i) (c := freeGuest) rfl rfl (by simp) placed fun slot' k => ?_
    rw [State.setCtx_lookup]
    by_cases hs' : slot = slot'
    · subst hs'
      rw [State.lookup_setDirectory_self _ _ _ (by rw [h.2.2.1]; exact h.slot_lt hl)]
      by_cases hki : k = i
      · simp [hki, hi, freeGuest]
      · rw [if_neg (fun h => hki h.1), ← hdir, hl]
        simp [Ne.symm hki]
    · rw [State.lookup_setDirectory_ne _ _ _ _ hs', hdir]
      by_cases hki : k = i
      · subst hki
        simp [hslot, hs', hi, freeGuest]
      · rw [if_neg (fun h => hki h.1)]
  · next hslot =>
    refine h.replace (i := i) (c := freeGuest) rfl rfl rfl placed fun slot' k => ?_
    rw [State.setCtx_lookup, hdir]
    by_cases hki : k = i ∧ k < 64
    · rw [if_pos hki, hki.1, hslot]
      simp [freeGuest]
    · rw [if_neg hki]

namespace State.Steady

/-- A context replaced by one without serving parts, and a directory entry: the slots are judged apart. -/
theorem table {s t : State} (hcfg : t.configuration = s.configuration) (hheld : t.profile = s.profile)
    (hpool : t.pool = s.pool) (hlane : t.lane = s.lane) (hshare : t.share = s.share) (hhw : t.highway = s.highway)
    (hclen : t.table.contexts.length = s.table.contexts.length)
    (hdlen : t.table.directory.length = s.table.directory.length)
    (hctx : ∀ k, t.ctx k = s.ctx k ∨ (t.ctx k).serving = none) (hslots : s.slotsSound → t.slotsSound) : s.Steady t := by
  have each (p : Serving → Prop) (hs : s.eachServing p) : t.eachServing p := by
    rw [State.eachServing_iff] at hs ⊢
    intro k sv hsv
    rcases hctx k with hk | hk
    · exact hs k sv (hk ▸ hsv)
    · rw [hk] at hsv; cases hsv
  refine ⟨⟨fun h => ?_, by rw [hlane]; exact id, by rw [hlane]; exact id, fun h => ?_, each _, each _,
    fun h => ⟨by rw [hheld]; exact h.1, each _ h.2⟩, hslots⟩, hcfg, by rw [hheld]; exact id⟩
  · simpa only [State.sized, hclen, hdlen, hpool, hhw, hheld, hshare] using h
  · simpa only [State.countsSound, hlane, hhw, hheld, hshare] using h

theorem freeGuestAt {s : State} {i : Nat} (hk : s.slotsSound → (s.ctx i).kind = .guest) :
    s.Steady (s.freeGuestAt i) := by
  have slots := fun h : s.slotsSound => h.freeGuestAt (hk h)
  have hread : ∀ u : State, u.table.contexts = s.table.contexts → ∀ k,
      (u.setCtx i freeGuest).ctx k = s.ctx k ∨ ((u.setCtx i freeGuest).ctx k).serving = none := fun u hu k => by
    have hc : u.ctx k = s.ctx k := by rw [State.ctx, hu]; rfl
    have := State.ctx_modCtx u i k fun _ => freeGuest
    rw [State.modCtx] at this
    rw [this]
    split
    · exact .inr rfl
    · exact .inl hc
  revert slots
  unfold State.freeGuestAt
  split
  · exact fun slots => table rfl rfl rfl rfl rfl rfl (by simp) (by simp) (hread _ rfl) slots
  · exact fun slots => table rfl rfl rfl rfl rfl rfl (by simp) rfl (hread _ rfl) slots

/-- A free guest engaged on a slot without a context. -/
theorem engage {s : State} {i slot : Nat} {c : Context} (hfree : s.freeGuest? = some i) (hslot : slot < 128)
    (hl : s.lookup slot = none) (hk : c.kind = .guest) (hs : c.slot = some slot) (hr : c.role.standing = (.guest, true))
    (hv : c.serving = none) : s.Steady ((s.setCtx i c).setDirectory slot (some i)) := by
  obtain ⟨hi, hrole, -⟩ := State.freeGuest?_some hfree
  refine table rfl rfl rfl rfl rfl rfl (by simp) (by simp) (fun k => ?_) fun h =>
    h.engage (h.2.1 ▸ hi) hrole hslot hl hk hs hr
  rw [State.setDirectory_ctx]
  by_cases hki : i = k
  · subst hki
    exact .inr (by rw [State.ctx_setCtx_self _ _ _ hi, hv])
  · exact .inl (State.ctx_setCtx_ne _ _ _ _ hki)

end State.Steady
end Sys2Proof.Machine

namespace Sys2Proof.Machine

/-- The kind of a context is the kind of its role (R37). -/
theorem State.slotsSound.kind_eq {s : State} (h : s.slotsSound) (i : Nat) : (s.ctx i).role.standing.1 = (s.ctx i).kind := by
  obtain ⟨-, hlen, -, hctx, -⟩ := h
  by_cases hi : i < 64
  · have := (hctx i hi).1
    rw [Kind.admits_eq, decide_eq_true_eq] at this
    exact this
  · rw [State.ctx_ge s i (hlen ▸ Nat.not_lt.mp hi)]
    rfl

/-- A home context is in use (R37). -/
theorem State.slotsSound.home_standing {s : State} (h : s.slotsSound) {i : Nat} (hk : (s.ctx i).kind = .home) :
    (s.ctx i).role.standing = (.home, true) := by
  have := h.kind_eq i
  revert this
  cases (s.ctx i).role <;> simp [Role.standing, hk]

theorem State.occupied_of_kind {s : State} {i : Nat} (hk : (s.ctx i).kind = .home) : s.occupied i := fun _ hc => by
  rw [hc] at hk
  cases hk

theorem State.occupied_of_servedBy {s : State} {slot i : Nat} (h : s.servedBy slot = some i) : s.occupied i := by
  simp only [State.servedBy, Option.filter_eq_some_iff] at h
  exact State.occupied_of_serves h.2

namespace State.Follows

variable {a s : State} {i : Nat}

/-- An update of the sharing records. -/
theorem setShare {sh : Sharing} (h : a.Follows s) (ho : sh.offers.length = s.share.offers.length)
    (ha : sh.absence.length = s.share.absence.length)
    (hle : (∀ n ∈ s.share.absence, n ≤ 8) → ∀ n ∈ sh.absence, n ≤ 8) : a.Follows { s with share := sh } := by
  refine h.same (by simp [State.fixed, ho, ha]) (fun hc => ?_) rfl fun _ => rfl
  obtain ⟨h1, h2, h3, h4, h5, h6, h7, h8, h9⟩ := hc
  exact ⟨h1, h2, h3, h4, h5, h6, h7, h8, hle h9⟩

/-- The next frame begins. -/
theorem setFrame {f : Nat} (h : a.Follows s) : a.Follows { s with frame := f } := h.same rfl id rfl fun _ => rfl

/-- An update of the lane's records beside its queue. -/
theorem setLane {l : Lane} (h : a.Follows s) (hq : l.queue = s.lane.queue)
    (hd : s.lane.discards ≤ 65535 → l.discards ≤ 65535) (hr : s.lane.drops ≤ 65535 → l.drops ≤ 65535)
    (hc : s.lane.clashes ≤ 65535 → l.clashes ≤ 65535) (hs : s.lane.surplus ≤ 65535 → l.surplus ≤ 65535) :
    a.Follows { s with lane := l } := by
  refine h.same rfl (fun hc' => ?_) hq fun _ => rfl
  obtain ⟨h1, h2, h3, h4, h5⟩ := hc'
  exact ⟨hd h1, hr h2, hc h3, hs h4, h5⟩

/-- The queue becomes another that is no longer and as well ordered. -/
theorem setQueue {q : List Entry} (h : a.Follows s) (hl : q.length ≤ s.lane.queue.length)
    (hr : rankOrdered s.lane.queue → rankOrdered q) : a.Follows { s with lane := { s.lane with queue := q } } :=
  h.trans ⟨rfl, id, hl.trans, hr, fun _ => .refl _ _, fun _ _ => rfl, fun _ _ => id⟩

theorem settleRecalled (h : a.Follows s) : a.Follows s.settleRecalled :=
  (h.setQueue s.settleRecalled_queue_le fun hr => hr.sublist (List.diff_sublist _ _)).setLane
    (l := s.settleRecalled.lane) rfl id id id id

theorem onHeld {slot : Nat} {act : Nat → State → State} (h : a.Follows s)
    (hact : ∀ i, s.lookup slot = some i → a.Follows (act i s)) : a.Follows (onHeld slot act s) := by
  unfold Machine.onHeld
  split
  · next i hi => exact hact i hi
  · exact h

/-! ### Frame deadlines of one context -/

theorem offerUnplaced (h : a.Follows s) (hr : a.slotsSound → (s.ctx i).role.standing = (.home, true)) :
    a.Follows (offerUnplaced i s) := by
  unfold Machine.offerUnplaced
  exact (h.setRole (r := .homeServing) hr).notify

theorem failOffer (h : a.Follows s) : a.Follows (failOffer i s) := by
  unfold Machine.failOffer
  split
  · next hc => exact h.offerUnplaced fun _ => by rw [hc.1]; rfl
  · exact h

theorem expireGrant {slot : Nat} (h : a.Follows s) : a.Follows (expireGrant slot s) :=
  (h.withdraw.onHeld fun _ _ => h.withdraw.failOffer).ite h

theorem endOfferWindow (h : a.Follows s) : a.Follows (endOfferWindow i s) := by
  unfold Machine.endOfferWindow
  dsimp only
  split
  · next hr _ =>
    split
    · split
      · exact h.enqueue.ite (h.enqueue.offerUnplaced fun _ => by rw [State.enqueue_ctx, hr]; rfl)
      · exact h.offerUnplaced fun _ => by rw [hr]; rfl
    · exact h
  · exact h

theorem expireOfferMemory {slot : Nat} (h : a.Follows s) : a.Follows (expireOfferMemory slot s) := by
  unfold Machine.expireOfferMemory
  split
  · split
    · exact h.setShare (by simp) rfl id
    · exact h
  · exact h

theorem sendReturn (h : a.Follows s) : a.Follows (sendReturn i s) := h.send

theorem queueReturn (h : a.Follows s) : a.Follows (queueReturn i s) := h.sendReturn.ite h

theorem judgeAbsence (h : a.Follows s) : a.Follows (judgeAbsence i s) := by
  unfold Machine.judgeAbsence
  dsimp only
  split
  · next hc =>
    simp only [Bool.and_eq_true, Bool.or_eq_true, beq_iff_eq] at hc
    have hr : (s.ctx i).role.standing = (.home, true) := by
      rcases hc.1 with hr | ⟨hr, -⟩ <;> rw [hr] <;> rfl
    exact h.trans ((refl s).serveAgain (fun _ => hr) (State.occupied_of_role fun hf => by rw [hf] at hr; cases hr))
  · exact h

theorem ageReclaim (h : a.Follows s) : a.Follows (ageReclaim i s) :=
  h.setCtx (.of_eq rfl rfl rfl) (fun _ => rfl) fun _ hc => by rw [hc]; rfl

theorem requeueReclaim (h : a.Follows s) : a.Follows (requeueReclaim i s) := by
  unfold Machine.requeueReclaim
  dsimp only
  split
  · exact h.send.ite h
  · exact h

/-! ### Absence counts, orphans and marks -/

theorem setAbsence {slot n : Nat} (h : a.Follows s) (hn : n ≤ 8) : a.Follows (s.setAbsence slot n) :=
  h.setShare rfl (by simp) fun hle m hm => by
    rcases List.mem_or_eq_of_mem_set hm with hm | rfl
    · exact hle m hm
    · exact hn

theorem queueAdopt {slot : Nat} (h : a.Follows s) : a.Follows (queueAdopt slot s) := h.send.ite h

theorem expireAdopts (h : a.Follows s) : a.Follows (expireAdopts s) := h.withdraw

theorem takeMarks {others : BitVec 128} (h : a.Follows s) : a.Follows (takeMarks others s) :=
  h.setLane rfl id id id id

end State.Follows

namespace State.Steady

variable {s : State} {i : Nat}

/-- The absence counts become others in their range, one for each slot. -/
theorem setAbsences {l : List Nat} (hlen : l.length = 128) (hle : ∀ n ∈ l, n ≤ 8) :
    s.Steady { s with share := { s.share with absence := l } } := by
  refine ⟨⟨fun h => ?_, id, id, fun h => ?_, id, id, id, id⟩, rfl, id⟩
  · obtain ⟨h1, h2, h3, h4, h5, h6, -⟩ := h
    exact ⟨h1, h2, h3, h4, h5, h6, hlen⟩
  · obtain ⟨h1, h2, h3, h4, h5, h6, h7, h8, -⟩ := h
    exact ⟨h1, h2, h3, h4, h5, h6, h7, h8, hle⟩

theorem nextAbsence_le (s : State) (slot : Nat) : nextAbsence s slot ≤ 8 := by
  unfold nextAbsence countAbsence countUp
  split
  · exact Nat.zero_le _
  · split
    · exact Nat.zero_le _
    · exact Nat.min_le_left _ _

theorem updateAbsence (s : State) : s.Steady (updateAbsence s) :=
  setAbsences (by simp [Config.slots]) fun n hn => by
    obtain ⟨slot, -, rfl⟩ := List.mem_map.1 hn
    exact nextAbsence_le s slot

theorem clearAbsence (s : State) : s.Steady (clearAbsence s) :=
  setAbsences (by simp [Config.slots]) fun n hn => by rw [List.eq_of_mem_replicate hn]; exact Nat.zero_le _

theorem onHeld {slot : Nat} {act : Nat → State → State} (hact : ∀ i, s.lookup slot = some i → s.Steady (act i s)) :
    s.Steady (onHeld slot act s) := by
  unfold Machine.onHeld
  split
  · next i hi => exact hact i hi
  · exact refl s

/-! ### Bids and reservations -/

theorem withdrawBid (i : Nat) (s : State) : s.Steady (withdrawBid i s) := by
  unfold Machine.withdrawBid
  dsimp only
  split
  · next hc =>
    refine (State.Follows.refl s).withdraw.steady.trans ((freeGuestAt fun h => ?_).trans
      (State.Follows.refl _).perform.steady)
    rw [← h.kind_eq, State.withdraw_ctx, hc.1]
    rfl
  · exact refl s

theorem expireBid (slot : Nat) (s : State) : s.Steady (expireBid slot s) := by
  unfold Machine.expireBid
  dsimp only
  split
  · exact (State.Follows.refl s).withdraw.steady.trans (onHeld fun i _ => withdrawBid i _)
  · exact refl s

theorem timeOutBid (i : Nat) (s : State) : s.Steady (timeOutBid i s) := by
  unfold Machine.timeOutBid
  split
  · exact (withdrawBid i s).ite (refl s)
  · exact refl s

theorem reserve {slot demand profile : Nat} {frozen : Bool} (hfree : s.freeGuest? = some i) (hslot : slot < 128)
    (hl : s.lookup slot = none) : s.Steady (reserve i slot demand profile frozen s) := by
  unfold Machine.reserve
  exact (engage hfree hslot hl rfl rfl rfl rfl).trans (State.Follows.refl _).takeBlocks.foldl_reserve.steady

/-- A context reserved for a slot is engaged. -/
theorem reserve_role {slot demand profile : Nat} {frozen : Bool} (hi : i < s.table.contexts.length) :
    ((Machine.reserve i slot demand profile frozen s).ctx i).role = .reserved := by
  simp only [Machine.reserve]
  rw [State.ctx_foldl _ (by simp), State.takeBlocks_ctx, State.setDirectory_ctx, State.ctx_setCtx_self _ _ _ hi]

/-! ### Hand-over -/

theorem handOverStop {i : Nat} {s : State} (hi : s.occupied i) : s.Steady (handOverStop i s) := by
  unfold Machine.handOverStop
  split
  · next hk =>
    have hs : s.slotsSound → ((s.withdraw fun e => e.isOffer (s.slotOf i) || e.isGrant (s.slotOf i)).ctx i).role.standing
        = (.home, true) := fun h => h.home_standing hk
    exact (((State.Follows.refl s).withdraw.setRole (r := .handed) hs).servingStop hi).steady
  · next hk =>
    have stopped := ((State.Follows.refl s).modCtx hi (f := fun c => { c with stopAt := none })).servingStop hi
    exact stopped.steady.trans (freeGuestAt fun _ => by rw [(stopped.ctx i).kind, hk])

theorem handOverStart {i : Nat} {s : State} (hi : s.occupied i) : s.Steady (handOverStart i s) := by
  unfold Machine.handOverStart
  split
  · exact ((State.Follows.refl s).modCtx hi).steady
  · next hk => exact ((State.Follows.refl s).serveAgain (fun h => h.home_standing hk) hi).steady
  · next hr hk =>
    have standing : s.slotsSound → (s.ctx i).role.standing = (.guest, true) := fun h => by
      have hkind := h.kind_eq i
      have hfree : (s.ctx i).role ≠ .guestFree := fun hc => hi h (h.free_ctx hc)
      rw [hk] at hkind
      revert hkind hfree
      cases (s.ctx i).role <;> simp [Role.standing]
    exact (((State.Follows.refl s).setRole (r := .taken) standing).servingStart hi).steady

theorem handOver (i : Nat) (s : State) : s.Steady (handOver i s) := by
  have isDue : ∀ c : Option Nat, (c.elim false fun f => decide (f ≤ s.frame)) = true → c ≠ none := fun c h hc => by
    rw [hc] at h; cases h
  have stop : s.Steady (if ((s.ctx i).stopAt.elim false fun f => decide (f ≤ s.frame)) = true
      then Machine.handOverStop i s else s) := by
    split
    · next hd => exact handOverStop fun _ hc => isDue _ hd (by rw [hc]; rfl)
    · exact refl s
  have start : ∀ u : State, u.Steady (if ((u.ctx i).startAt.elim false fun f => decide (f ≤ s.frame)) = true
      then Machine.handOverStart i u else u) := fun u => by
    split
    · next hd => exact handOverStart fun _ hc => isDue _ hd (by rw [hc]; rfl)
    · exact refl u
  exact stop.trans (start _)

/-! ### Adoption -/

theorem judgeAdoption {slot : Nat} (hslot : slot < 128) (s : State) : s.Steady (judgeAdoption slot s) := by
  unfold Machine.judgeAdoption
  split
  · exact refl s
  · split
    · next i hfree hl =>
      have engaged : s.Steady ((s.setDirectory slot (some i)).setCtx i
          { freeGuest with slot := some slot, role := .actingHome }) := engage hfree hslot hl rfl rfl rfl rfl
      refine engaged.trans ((State.Follows.refl _).servingStart (State.occupied_of_role ?_)).steady
      rw [State.ctx_setCtx_self _ _ _ (by simpa using (State.freeGuest?_some hfree).1)]
      exact fun hc => by cases hc
    · exact (State.Follows.refl s).send.steady

theorem judgeAdopt {slot : Nat} (hslot : slot < 128) (s : State) : s.Steady (judgeAdopt slot s) := by
  unfold Machine.judgeAdopt
  split
  · exact ((State.Follows.refl s).setShare (sh := { s.share with
      adopting := s.share.adopting.filter (·.1 != slot) }) rfl rfl id).steady.trans (judgeAdoption hslot _)
  · exact refl s

/-! ### The Profile Table -/

/-- The station's own records become others that keep the straps, the profiles and the notice mask. -/
theorem setProfile {p : ProfileTable} (hk : p.k = s.profile.k) (hn : p.n = s.profile.n)
    (hclamp : p.clamped = s.profile.clamped) (hp : p.profiles = s.profile.profiles)
    (hm : p.noticeMask = s.profile.noticeMask) (hf : s.profile.configFrames ≤ 8000 → p.configFrames ≤ 8000)
    (hheld : p.station = .held → s.profile.station = .held) : s.Steady { s with profile := p } := by
  refine ⟨⟨fun h => ?_, id, id, fun h => ?_, id, id, fun h => ⟨hp ▸ h.1, h.2⟩, fun h => ?_⟩, ?_, hheld⟩
  · simpa only [State.sized, hp] using h
  · obtain ⟨h1, h2, h3, h4, h5, h6, h7, h8, h9⟩ := h
    exact ⟨h1, h2, h3, h4, h5, h6, h7, hf h8, h9⟩
  · simpa only [State.slotsSound, State.ctx, State.lookup, hk, hn] using h
  · simp only [State.configuration, hk, hn, hclamp, hp, hm]

/-- Frame sync records in their ranges. -/
theorem setHighway {w : Highway} (hs : s.highway.spacing ≤ 8 → w.spacing ≤ 8) (hm : s.highway.miss ≤ 2 → w.miss ≤ 2)
    (hf : s.highway.framesLost ≤ 65535 → w.framesLost ≤ 65535) (hp : s.highway.pipeline.length = 128 →
      w.pipeline.length = 128) (hc : w.idleCodes = s.highway.idleCodes) (hi : w.idleCount = s.highway.idleCount) :
    s.Steady { s with highway := w } := by
  refine ⟨⟨fun h => ?_, id, id, fun h => ?_, id, id, id, id⟩, ?_, id⟩
  · obtain ⟨h1, h2, h3, h4, h5⟩ := h
    exact ⟨h1, h2, h3, hp h4, h5⟩
  · obtain ⟨h1, h2, h3, h4, h5, h6, h7, h8⟩ := h
    exact ⟨h1, h2, h3, h4, hs h5, hm h6, hf h7, h8⟩
  · simp only [State.configuration, hc, hi]

theorem enterListen (s : State) : s.Steady (enterListen s) := by
  have cleared := ((State.Follows.refl s).setShare (sh := { s.share with
    listenMarks := 0, listenMarks' := 0, listenAdopt := 0, listenAdopt' := 0 }) rfl rfl id).steady
  exact cleared.trans (setProfile (p := { s.profile with station := .listen, listenFrames := 0 }) rfl rfl rfl rfl rfl
    id fun h => by cases h)

theorem placeFrom_length (faulty : BitVec 264) (room : Nat) (bs : List Nat) :
    (placeFrom faulty room bs).length = bs.length := by
  induction bs generalizing room with
  | nil => rfl
  | cons b bs ih => unfold placeFrom; split <;> [skip; split] <;> simp [ih]

/-- The pool becomes another with 264 blocks. -/
theorem setPool {p : Pool} (hp : p.blocks.length = 264) : s.Steady { s with pool := p } := by
  refine ⟨⟨fun h => ?_, id, id, id, id, id, id, id⟩, rfl, id⟩
  obtain ⟨h1, h2, -, h4⟩ := h
  exact ⟨h1, h2, hp, h4⟩

theorem placement_length (faulty : BitVec 264) : (placement faulty).blocks.length = 264 := by
  simp [placement, placeFrom_length, Config.tapBlocks]

theorem endTest (s : State) : s.Steady (endTest s) := by
  have placed : s.Steady { s with pool := placement s.pool.faulty } := setPool (placement_length _)
  exact placed.trans ((enterListen _).ite (setProfile rfl rfl rfl rfl rfl id fun h => by cases h))

theorem ifDue {due : State → Bool} {act : State → State} (h : s.Steady (act s)) : s.Steady (ifDue due act s) :=
  h.ite (refl s)

theorem countTestFrame (s : State) : s.Steady (countTestFrame s) := by
  unfold Machine.countTestFrame
  split
  · have counted : s.Steady { s with profile := { s.profile with testFrames := countUp 32 s.profile.testFrames } } :=
      setProfile rfl rfl rfl rfl rfl id id
    exact counted.trans (endTest _).ifDue
  · exact refl s

/-! ### Frame sync -/

theorem lockInterface (s : State) : s.Steady (lockInterface s) :=
  setHighway id (fun _ => Nat.zero_le _) (fun _ => Nat.zero_le _) id rfl rfl

theorem lockFirst (s : State) : s.Steady (lockFirst s) :=
  (lockInterface s).trans ((enterListen _).ite (countTestFrame _))

theorem regain (s : State) : s.Steady (regain s) :=
  (lockInterface s).trans ((enterListen _).trans (State.Follows.refl _).notify.steady)

theorem syncPulse (clock : Nat) (s : State) : s.Steady (syncPulse clock s) := by
  unfold Machine.syncPulse
  split
  · dsimp only
    have counted : ∀ n ≤ 8, s.Steady { s with highway := { s.highway with spacing := n, lastPulse := some clock } } :=
      fun n hn => setHighway (fun _ => hn) id id id rfl rfl
    refine (counted _ ?_).trans ((regain _).ifDue.ite (lockFirst _).ifDue)
    split
    · exact Nat.min_le_left _ _
    · decide
  · exact refl s

/-! ### Sync loss -/

theorem failMarked (s : State) : s.Follows (failMarked s) := by
  refine (State.Follows.refl s).foldl (fun u b hu => ?_) _
  dsimp only
  split
  · exact hu.failBlock
  · exact hu.failBlock.freeBlock

theorem poolSyncLoss (s : State) : s.Follows (poolSyncLoss s) := by
  unfold Machine.poolSyncLoss
  exact ((State.Follows.refl s).shortfall.trans (failMarked _)).foldl (fun _ _ h => h.freeBlock) _

theorem ctx_map_contextSyncLoss (s : State) (k : Nat) :
    (s.table.contexts.map contextSyncLoss).getD k freeGuest = contextSyncLoss (s.ctx k) := by
  rw [State.ctx, List.getD_eq_getElem?_getD, List.getD_eq_getElem?_getD, List.getElem?_map]
  cases s.table.contexts[k]? <;> rfl

/-- Sync loss leaves every context without serving parts, and the slots as RESET gives them (R20). -/
theorem clearTable (s : State) : s.Steady { s with table :=
    { contexts := s.table.contexts.map contextSyncLoss, directory := directoryFor s.profile.k s.profile.n } } := by
  have none (p : Serving → Prop) : State.eachServing p { s with table :=
      { contexts := s.table.contexts.map contextSyncLoss, directory := directoryFor s.profile.k s.profile.n } } :=
    State.eachServing_iff.2 fun k sv hsv => by
      rw [State.ctx, ctx_map_contextSyncLoss] at hsv
      unfold contextSyncLoss at hsv
      split at hsv <;> cases hsv
  refine ⟨⟨fun h => ?_, id, id, id, fun _ => none _, fun _ => none _, fun h => ⟨h.1, none _⟩, fun h => ?_⟩, rfl, id⟩
  · obtain ⟨h1, -, h⟩ := h
    exact ⟨by simpa using h1, directoryFor_length _ _, h⟩
  · have hctx : ∀ k, (s.table.contexts.map contextSyncLoss).getD k freeGuest = contextSyncLoss (s.ctx k) :=
      ctx_map_contextSyncLoss s
    refine State.slotsSound_of_homes h.1 (fun i hi => (h.home_lt hi).2) (by simpa using h.2.1) rfl (fun i hi => ?_)
      fun i hi => (hctx i).trans ?_
    · have hc := (h.2.2.2.1 i (h.home_lt hi).1).2
      rw [if_pos hi] at hc
      change (List.getD _ i freeGuest).kind = _ ∧ (List.getD _ i freeGuest).role = _
        ∧ (List.getD _ i freeGuest).slot = _
      rw [hctx, contextSyncLoss, hc.1]
      exact ⟨rfl, rfl, hc.2⟩
    · have hk : (s.ctx i).kind = .guest := by
        by_cases hlt : i < 64
        · have hc := (h.2.2.2.1 i hlt).2
          rw [if_neg (Nat.not_lt.mpr hi)] at hc
          exact hc.1
        · rw [State.ctx_ge s i (h.2.1 ▸ Nat.not_lt.mp hlt)]
          rfl
      rw [contextSyncLoss, hk]

theorem sharingReset_counts : sharingReset.offers.length = 128 ∧ sharingReset.absence.length = 128
    ∧ ∀ n ∈ sharingReset.absence, n ≤ 8 :=
  ⟨by simp [sharingReset, Config.slots], by simp [sharingReset, Config.slots],
    fun n hn => by rw [List.eq_of_mem_replicate hn]; exact Nat.zero_le _⟩

/-- The sharing records take their RESET values (R157). -/
theorem resetShare (s : State) : s.Steady { s with share := sharingReset } := by
  obtain ⟨ho, ha, hle⟩ := sharingReset_counts
  refine ⟨⟨fun h => ?_, id, id, fun h => ?_, id, id, id, id⟩, rfl, id⟩
  · obtain ⟨h1, h2, h3, h4, h5, -, -⟩ := h
    exact ⟨h1, h2, h3, h4, h5, ho, ha⟩
  · obtain ⟨h1, h2, h3, h4, h5, h6, h7, h8, -⟩ := h
    exact ⟨h1, h2, h3, h4, h5, h6, h7, h8, hle⟩

/-- The lane is emptied and its counts stand (R154). -/
theorem emptyLane (s : State) : s.Steady { s with lane :=
    { s.lane with queue := [], recalled := [], markRecord := 0, ownRecord := 0, cell := none } } := by
  have emptied := (State.Follows.refl s).setQueue (q := []) (Nat.zero_le _) fun _ => List.Pairwise.nil
  exact (emptied.setLane (l := { s.lane with
    queue := [], recalled := [], markRecord := 0, ownRecord := 0, cell := none }) rfl id id id id).steady

theorem loseSync (s : State) : s.Steady (loseSync s) := by
  refine (poolSyncLoss s).steady.trans ?_
  unfold Machine.loseSync
  generalize Machine.poolSyncLoss s = s
  have highway : s.Steady { s with highway := { s.highway with
      sync := .hunt, spacing := 0, framesLost := 2, lastPulse := none, lockClock := none, pipeline := emptyPipeline
      lines := .released } } :=
    setHighway (fun _ => Nat.zero_le _) id (fun _ => Nat.le_of_ble_eq_true rfl)
      (fun _ => by simp [emptyPipeline, Config.slots]) rfl rfl
  refine (highway.trans (setProfile (p := { s.profile with
    station := if s.profile.station = .test then .test else .unsynced, configFrames := 0, runAccepted := none })
    rfl rfl rfl rfl rfl (fun _ => Nat.zero_le _) fun h => ?_)).trans ((clearTable _).trans ((resetShare _).trans
      (emptyLane _)))
  revert h
  dsimp only
  split <;> exact fun h => by cases h

theorem checkPosition (pulse : Bool) (s : State) : s.Steady (checkPosition pulse s) := by
  unfold Machine.checkPosition
  split
  · have counted : ∀ n ≤ 2, s.Steady { s with highway := { s.highway with miss := n } } :=
      fun n hn => setHighway id (fun _ => hn) id id rfl rfl
    refine (counted _ ?_).trans (loseSync _).ifDue
    split
    · decide
    · exact Nat.min_le_left _ _
  · exact refl s

theorem huntPeriodEnds (s : State) : s.Steady (huntPeriodEnds s) := by
  unfold Machine.huntPeriodEnds
  split
  · have counted : s.Steady (if s.highway.framesLost = 0 then s else
        { s with highway := { s.highway with framesLost := countUp 65535 s.highway.framesLost } }) :=
      (refl s).ite (setHighway id id (fun _ => Nat.min_le_left _ _) id rfl rfl)
    exact counted.trans (countTestFrame _)
  · exact refl s

end State.Steady
end Sys2Proof.Machine

namespace Sys2Proof.Machine.State.Steady

open Sys2Proof.Machine.State

variable {s : State} {i : Nat}

/-! ### LISTEN, CONFIG and RUN -/

theorem judgeHome (s : State) (i : Nat) : s.Steady (judgeHome s i) := by
  unfold Machine.judgeHome
  dsimp only
  split
  · next hk _ =>
    split
    · exact ((State.Follows.refl s).setRole (r := .reclaiming) fun h => h.home_standing hk).send.steady
    · exact ((State.Follows.refl s).servingStart (State.occupied_of_kind hk)).steady
  · exact refl s

theorem endListen (s : State) : s.Steady (endListen s) := by
  have left : s.Steady { s with profile := { s.profile with
      station := if s.profile.runReached then .run else .config, configFrames := 0, runAccepted := none } } :=
    setProfile rfl rfl rfl rfl rfl (fun _ => Nat.zero_le _) fun h => by
      dsimp only at h
      split at h <;> cases h
  exact left.trans ((clearAbsence _).trans (foldl (fun u k _ => judgeHome u k) _))

theorem rejudge (s : State) (i : Nat) : s.Steady (rejudge s i) := by
  cases hsv : (s.ctx i).serving with
  | none => simpa only [Machine.rejudge, hsv] using refl s
  | some sv => exact ((State.Follows.refl s).rejudge (State.occupied_of_serving hsv)).steady

theorem enterRun (s : State) : s.Steady (enterRun s) := by
  have entered : s.Steady { s with profile := { s.profile with station := .run, runReached := true, runAccepted := none } } :=
    setProfile rfl rfl rfl rfl rfl id fun h => by cases h
  exact entered.trans ((clearAbsence _).trans (foldl (fun u k _ => rejudge u k) _))

/-! ### The frame boundary -/

/-- An update of the sharing records. -/
theorem setShare {sh : Sharing} (ho : sh.offers.length = s.share.offers.length)
    (ha : sh.absence.length = s.share.absence.length)
    (hle : (∀ n ∈ s.share.absence, n ≤ 8) → ∀ n ∈ sh.absence, n ≤ 8) : s.Steady { s with share := sh } :=
  ((State.Follows.refl s).setShare ho ha hle).steady

theorem boundaryListen (s : State) : s.Steady (boundaryListen s) := by
  have recorded := ((State.Follows.refl s).setShare (sh := { s.share with
    listenMarks := s.lane.markRecord, listenMarks' := s.share.listenMarks }) rfl rfl id).steady
  refine (recorded.trans (setProfile (p := { s.profile with listenFrames := countUp 16 s.profile.listenFrames })
    rfl rfl rfl rfl rfl id id)).trans ?_
  exact (endListen _).ite (setShare rfl rfl id)

theorem boundaryHomes (s : State) : s.Steady (boundaryHomes s) :=
  (eachContext (fun _ u => (State.Follows.refl u).judgeAbsence.steady) s).trans
    ((eachContext (fun _ u => (State.Follows.refl u).ageReclaim.steady) _).trans
      (eachContext (fun _ u => (State.Follows.refl u).requeueReclaim.steady) _))

theorem boundaryConfig (s : State) : s.Steady (boundaryConfig s) := by
  have counted : ∀ n ≤ 8000, s.Steady { s with profile := { s.profile with configFrames := n } } := fun n hn =>
    setProfile rfl rfl rfl rfl rfl (fun _ => hn) id
  unfold Machine.boundaryConfig
  exact ((counted _ (Nat.min_le_left _ _)).trans (boundaryHomes _)).trans ((enterRun _).ite (enterRun _).ifDue)

theorem boundaryRun (s : State) : s.Steady (boundaryRun s) := by
  have bids := (State.Follows.refl s).expireAdopts.steady.trans (eachSlot (fun slot _ u => expireBid slot u) _)
  have grants := bids.trans
    (eachSlot (act := Machine.expireGrant) (fun _ _ u => (State.Follows.refl u).expireGrant.steady) _)
  have offers := grants.trans
    (eachContext (act := Machine.endOfferWindow) (fun _ u => (State.Follows.refl u).endOfferWindow.steady) _)
  have memory := (offers.trans (eachContext timeOutBid _)).trans
    (eachSlot (act := Machine.expireOfferMemory) (fun _ _ u => (State.Follows.refl u).expireOfferMemory.steady) _)
  have returns := memory.trans
    (eachContext (act := Machine.queueReturn) (fun _ u => (State.Follows.refl u).queueReturn.steady) _)
  have counted := (returns.trans (boundaryHomes _)).trans (updateAbsence _)
  exact (counted.trans (eachSlot (fun _ h u => judgeAdopt h u) _)).trans
    (eachSlot (act := Machine.queueAdopt) (fun _ _ u => (State.Follows.refl u).queueAdopt.steady) _)

theorem endFrame (others : BitVec 128) (s : State) : s.Steady (endFrame others s) := by
  have next : ∀ u : State, s.Follows u → s.Steady { u with frame := u.frame + 1 } := fun u h => h.setFrame.steady
  have settled := (State.Follows.refl s).settleRecalled
  have marked := settled.takeMarks (others := others)
  unfold Machine.endFrame
  split
  · dsimp only
    split
    · exact settled.steady
    · exact (next _ settled).trans (countTestFrame _)
    · exact next _ settled
    · exact (next _ marked).trans (boundaryListen _)
    · exact (next _ marked).trans ((boundaryConfig _).trans (eachContext handOver _))
    · exact (next _ marked).trans ((boundaryRun _).trans (eachContext handOver _))
  · exact refl s

/-! ### Sharing messages -/

theorem inRun {act : State → State} (h : s.Steady (act s)) : s.Steady (inRun act s) := h.ite (refl s)
theorem inService {act : State → State} (h : s.Steady (act s)) : s.Steady (inService act s) := h.ite (refl s)
theorem unlessHeld {act : State → State} (h : s.Steady (act s)) : s.Steady (unlessHeld act s) := (refl s).ite h

theorem takeOffer {slot : Nat} (hslot : slot < 128) (demand profile : Nat) (frozen : Bool) (sender : Nat) (s : State) :
    s.Steady (takeOffer slot demand profile frozen sender s) := by
  have remembered : ∀ m, s.Steady (s.setOffer slot m) := fun m =>
    setShare (by simp) rfl id
  unfold Machine.takeOffer
  dsimp only
  generalize hu : s.setOffer slot (some ⟨sender, demand, profile, frozen, s.frame⟩) = u
  refine (hu ▸ remembered _ : s.Steady u).trans ?_
  split
  · next i hl hfree =>
    split
    · refine (reserve hfree hslot hl (demand := demand) (profile := profile) (frozen := frozen)).trans ?_
      have occupied : (Machine.reserve i slot demand profile frozen u).occupied i :=
        State.occupied_of_role (by rw [reserve_role (State.freeGuest?_some hfree).1]; decide)
      exact ((State.Follows.refl _).modCtx occupied).enqueue.steady.trans ((refl _).ite (withdrawBid i _))
    · exact refl _
  · exact refl _

theorem takeBid (slot margin sender : Nat) (s : State) : s.Steady (takeBid slot margin sender s) := by
  refine onHeld fun i hl => ?_
  have hi := State.slotsSound.occupied_of_lookup hl
  dsimp only
  split
  · exact ((State.Follows.refl s).modCtx hi).steady.ite (refl s)
  · exact (withdrawBid i s).ite (refl s)
  · exact refl s

theorem takeGrant {slot : Nat} (hslot : slot < 128) (sender : Nat) (s : State) : s.Steady (takeGrant slot sender s) := by
  have refused : ∀ cause, s.Steady (refuseGrant slot cause s) := fun _ => (State.Follows.refl s).send.steady
  unfold Machine.takeGrant
  split
  · next i hl =>
    have hi := State.slotsSound.occupied_of_lookup hl
    exact ((State.Follows.refl s).modCtx hi).steady.ite (refused 2)
  · next hl =>
    split
    · exact refused 1
    · split
      · exact refused 1
      · split
        · exact refused 1
        · next m _ _ _ i hfree =>
          split
          · exact (reserve hfree hslot hl).trans ((State.Follows.refl _).modCtx (State.occupied_of_role (by
              rw [reserve_role (State.freeGuest?_some hfree).1]; decide))).steady
          · exact refused 1

theorem deliverGrant {slot : Nat} (hslot : slot < 128) (taker sender : Nat) (s : State) :
    s.Steady (deliverGrant slot taker sender s) :=
  (takeGrant hslot sender s).ite (onHeld fun i _ => withdrawBid i s)

theorem takeReturn (slot sender : Nat) (s : State) : s.Steady (takeReturn slot sender s) := by
  refine onHeld fun i hl => ?_
  have hi := State.slotsSound.occupied_of_lookup hl
  have resumed := ((State.Follows.refl s).modCtx hi (f := fun c => { c with startAt := some (s.frame + 2) })).steady
  dsimp only
  split
  · exact resumed.ite (refl s)
  · exact resumed
  · next hr =>
    exact (((State.Follows.refl s).setRole (r := .homeServing) fun _ => by rw [hr]; rfl).steady.ite
      (resumed.ite (refl s))).ite (refl s)
  · exact refl s

theorem deliverReturn (slot : Nat) (cause : BitVec 3) (sender : Nat) (s : State) :
    s.Steady (deliverReturn slot cause sender s) :=
  ((State.Follows.refl s).setAbsence (Nat.le_refl 8)).steady.ite (refl s) |>.trans (takeReturn _ _ _)

theorem deliverAdopt (slot : Nat) (s : State) : s.Steady (deliverAdopt slot s) := by
  unfold Machine.deliverAdopt
  split
  · split
    · exact setShare rfl rfl id
    · exact refl s
  · exact ((State.Follows.refl s).withdraw.setAbsence (Nat.zero_le 8)).steady

theorem takeReclaim (slot sender : Nat) (s : State) : s.Steady (takeReclaim slot sender s) := by
  refine State.Steady.ite (onHeld fun i hl => ?_) (refl s)
  have marked := (State.Follows.refl s).modCtx (State.slotsSound.occupied_of_lookup hl)
    (f := fun c => { c with pendingReturn := true })
  exact (marked.sendReturn.ite marked).steady.ite (refl s)

end Sys2Proof.Machine.State.Steady

namespace Sys2Proof.Machine

open Sys2Proof

/-! ## Every command

`Instr.effect c s`: the state that the command `c` leaves of `s`. Every command but the two of RESET conforms
(`Instr.conforms`): it keeps the invariants, the waiting commands and the straps, and outside CONFIG the configuration. -/

/-! ### Messages and cells -/

/-- The invariants and the straps stand, the configuration changes in CONFIG only, and no station comes under RESET. -/
structure State.Conforms (s t : State) : Prop extends s.Keeps t where
  pending : t.pending = s.pending
  straps : (t.profile.k, t.profile.n, t.profile.clamped) = (s.profile.k, s.profile.n, s.profile.clamped)
  configured : s.profile.station ≠ .config → t.configuration = s.configuration
  held : t.profile.station = .held → s.profile.station = .held

theorem State.Steady.conforms {s t : State} (h : s.Steady t) : s.Conforms t :=
  ⟨h.toKeeps, congrArg (·.1) h.configuration, congrArg (·.2.1) h.configuration, fun _ => h.configuration, h.held⟩

/-- A steady act that leaves the station's state, and one that conforms. -/
theorem State.Steady.trans_conforms {s t u : State} (h : s.Steady t) (hs : t.profile.station = s.profile.station)
    (h' : t.Conforms u) : s.Conforms u :=
  ⟨h.toKeeps.trans h'.toKeeps, h'.pending.trans h.conforms.pending, h'.straps.trans h.conforms.straps,
    fun hc => (h'.configured (hs ▸ hc)).trans h.configuration, h.held ∘ h'.held⟩

namespace State.Conforms

variable {s t u : State}

theorem refl (s : State) : s.Conforms s := (State.Steady.refl s).conforms

theorem ite {p : Prop} [Decidable p] (h : s.Conforms t) (h' : s.Conforms u) : s.Conforms (if p then t else u) := by
  split <;> assumption

end State.Conforms

theorem gainSound_clampInt (g : Int) : gainSound (clampInt Config.gainLow Config.gainHigh g) := by
  simp only [gainSound, clampInt, Config.gainLow, Config.gainHigh]
  omega

theorem clampNat_mem {low high : Nat} (h : low ≤ high) (n : Nat) : low ≤ clampNat low high n ∧ clampNat low high n ≤ high := by
  unfold clampNat
  split
  · omega
  · split <;> omega

/-- A PROFILE message stores a profile in its ranges (R175, R176). -/
theorem storedProfile_sound (budget reach : BitVec 5) (step : BitVec 3) (switches sendT recvT : BitVec 5)
    (sendG recvG : BitVec 7) : (storedProfile budget reach step switches sendT recvT sendG recvG).sound := by
  have target := clampNat_mem (by decide : 6 ≤ 24)
  have reach := clampNat_mem (by decide : 1 ≤ 16) reach.toNat
  have step := clampNat_mem (by decide : 1 ≤ 6) step.toNat
  have ⟨sendLow, sendHigh⟩ := target sendT.toNat
  have ⟨recvLow, recvHigh⟩ := target recvT.toNat
  refine ⟨Nat.min_le_left _ _, reach.1, reach.2, step.1, step.2, ?_, ?_, ?_, ?_, gainSound_clampInt _,
    gainSound_clampInt _⟩ <;> simp only [storedProfile] <;> omega

theorem takeProfile_conforms (index : Nat) {p : Profile} (hp : p.sound) (s : State) :
    s.Conforms (takeProfile index p s) := by
  unfold takeProfile
  split
  · next hc =>
    refine ⟨⟨fun h => ?_, id, id, id, id, id, fun h => ⟨fun q hq => ?_, h.2⟩, id⟩, rfl, rfl, absurd hc, id⟩
    · simpa only [State.sized, List.length_set] using h
    · rcases List.mem_or_eq_of_mem_set hq with hq | rfl
      · exact h.1 q hq
      · exact hp
  · exact (State.Follows.refl s).notify.steady.conforms
  all_goals exact .refl s

theorem takeRun_conforms (mask : BitVec 12) (idle : Nat) (codes : List Byte) (s : State) :
    s.Conforms (takeRun mask idle codes s) := by
  unfold takeRun
  split
  · next hc => exact ⟨⟨id, id, id, id, id, id, id, id⟩, rfl, rfl, absurd hc, id⟩
  · exact (State.Follows.refl s).notify.steady.conforms
  all_goals exact .refl s

theorem deliver_conforms (m : Msg) (s : State) : s.Conforms (deliver m s) := by
  cases m with
  | offer slot demand profile frozen k => exact (State.Steady.takeOffer slot.isLt _ _ _ _ s).inRun.conforms
  | bid slot margin k => exact (State.Steady.takeBid _ _ _ s).inRun.conforms
  | grant slot taker k => exact (State.Steady.deliverGrant slot.isLt _ _ s).inRun.conforms
  | returnSlot slot cause k => exact (State.Steady.deliverReturn _ _ _ s).inService.conforms
  | adopt slot margin k => exact (State.Steady.deliverAdopt _ s).conforms
  | reclaim slot k => exact (State.Steady.takeReclaim _ _ s).inRun.conforms
  | slotControl slot action profile k =>
    exact (State.Steady.onHeld fun i hl => ((State.Follows.refl s).controlAction
      (State.slotsSound.occupied_of_lookup hl)).steady).conforms.ite (.refl s)
  | profile target index budget reach step switches st rt sg rg k =>
    exact (takeProfile_conforms _ (storedProfile_sound _ _ _ _ _ _ _ _) s).ite (.refl s)
  | run target mask idle count c1 c2 c3 c4 k => exact (takeRun_conforms _ _ _ s).ite (.refl s)
  | query target page argument k => exact (State.Follows.refl s).send.steady.conforms.ite (.refl s)
  | report page argument body k => exact .refl s
  | notice kind argument k => exact .refl s

theorem discard_follows (s : State) : s.Follows (discard s) :=
  (State.Follows.refl s).setLane (l := { s.lane with discards := countUp 65535 s.lane.discards }) rfl
    (fun _ => Nat.min_le_left _ _) id id id

theorem stationClash_follows (m : Msg) (s : State) : s.Follows (stationClash m s) :=
  ((State.Follows.refl s).setLane (l := { s.lane with clashes := countUp 65535 s.lane.clashes }) rfl id id
    (fun _ => Nat.min_le_left _ _) id).notify

theorem judgeMessage_conforms (m : Msg) (surplus : Bool) (s : State) : s.Conforms (judgeMessage m surplus s) := by
  unfold judgeMessage
  split
  · exact (discard_follows s).steady.conforms
  · split
    · exact (stationClash_follows m s).steady.conforms
    · split
      · exact ((State.Follows.refl s).setLane (l := { s.lane with surplus := countUp 65535 s.lane.surplus }) rfl id id id
          fun _ => Nat.min_le_left _ _).steady.trans_conforms rfl (deliver_conforms m _)
      · exact deliver_conforms m s

theorem receive_conforms (m : Msg) (s : State) : s.Conforms (receive m s) :=
  (judgeMessage_conforms m false s).ite (.refl s)

theorem judgeCell_conforms (line : BitVec 128) (s : State) : s.Conforms (judgeCell line s) := by
  unfold judgeCell
  split
  · exact .refl s
  · split
    · exact (discard_follows s).steady.conforms
    · split
      · exact (discard_follows s).steady.conforms
      · exact judgeMessage_conforms _ _ s

/-- A refreshed OFFER keeps its rank. -/
theorem refreshOffer_kind (s : State) (e : Entry) : (refreshOffer s e).msg.kind = e.msg.kind := by
  unfold refreshOffer
  split
  · next he =>
    split
    · rw [he]; rfl
    · rfl
  · rfl

theorem startCell_follows (name : CellName) (line : BitVec 128) (s : State) : s.Follows (startCell name line s) := by
  unfold startCell
  split
  · have settled := (State.Follows.refl s).settleRecalled
    have refreshed := settled.setQueue (q := s.settleRecalled.lane.queue.map (refreshOffer s.settleRecalled)) (by simp)
      fun hr => List.pairwise_map.2 (hr.imp fun h => by simpa only [refreshOffer_kind] using h)
    exact refreshed.setLane (l := { s.settleRecalled.lane with
      queue := s.settleRecalled.lane.queue.map (refreshOffer s.settleRecalled), cell := _, lastCell := _ }) rfl id id id id
  · exact .refl s

theorem carried_follows (m : Msg) (s : State) : s.Follows (carried m s) := by
  have start := State.Follows.refl s
  have held {slot : Nat} {f : Context → Context} (hf : ∀ c, (f c).kind = c.kind ∧ (f c).slot = c.slot
      ∧ (f c).role.standing = c.role.standing ∧ (f c).serving = c.serving) :
      s.Follows (onHeld slot (fun i s => s.modCtx i f) s) :=
    start.onHeld fun i hl => start.modCtx (State.slotsSound.occupied_of_lookup hl) hf
  cases m with
  | offer slot => exact held fun _ => ⟨rfl, rfl, rfl, rfl⟩
  | bid slot => exact held fun _ => ⟨rfl, rfl, rfl, rfl⟩
  | grant slot taker =>
    exact start.onHeld fun i hl => (start.modCtx (State.slotsSound.occupied_of_lookup hl)).ite start
  | returnSlot slot cause =>
    refine start.onHeld fun i hl => ?_
    split
    · next hc => exact start.setRole (r := .returning) fun _ => by rcases hc.1 with hr | hr <;> rw [hr] <;> rfl
    · exact start
  | adopt slot => exact start.setShare rfl rfl id
  | reclaim slot => exact held fun _ => ⟨rfl, rfl, rfl, rfl⟩
  | report | notice | query | run | profile | slotControl => exact start

theorem carriedEntry_follows (e : Entry) (recalled : Bool) (s : State) : s.Follows (carriedEntry e recalled s) := by
  unfold carriedEntry
  split
  · exact (State.Follows.refl s).ite (carried_follows _ s)
  · exact carried_follows _ s

theorem endCell_conforms (s : State) : s.Conforms (endCell s) := by
  unfold endCell
  split
  · exact .refl s
  · have ended := (State.Follows.refl s).settleRecalled.setLane (l := { s.settleRecalled.lane with cell := none })
      rfl id id id id
    dsimp only
    split
    · have left {e : Entry} := ended.setQueue (q := s.settleRecalled.lane.queue.erase e) (List.length_erase_le)
        fun hr => hr.sublist List.erase_sublist
      split
      · exact (ended.trans (carriedEntry_follows _ _ _)).steady.conforms
      · exact (left.trans (carriedEntry_follows _ _ _)).steady.conforms
    · exact ended.steady.trans_conforms rfl (judgeCell_conforms _ _)

end Sys2Proof.Machine

namespace Sys2Proof

open Sys2Proof.Machine

/-- The state that a command leaves. -/
def Instr.effect (c : Instr) (s : State) : State :=
  match exec c s with
  | .next t => t
  | .fault _ | .refused _ => s

/-- Every command completes. -/
theorem Machine.exec_eq_effect (c : Instr) (s : State) : exec c s = .next (c.effect s) := by
  cases c <;> rfl

/-- A message command is its message judged. -/
theorem Instr.effect_message {c : Instr} {m : Msg} (h : c.message? = some m) (s : State) : c.effect s = receive m s := by
  cases c with
  | queryUnknownPage target page argument k =>
    simp only [Instr.message?, Option.ite_none_right_eq_some, Option.some.injEq] at h
    obtain ⟨hp, rfl⟩ := h
    exact if_pos hp
  | _ => cases h <;> rfl

/-- A step leaves the effect of the front command, or the state as it stands. -/
theorem Machine.step_cases {s t : State} (h : step s = .next t) :
    t = s ∨ ∃ (c : Instr) (rest : List Instr), t = c.effect { s with pending := rest } := by
  unfold step at h
  split at h
  · cases h
    exact .inl rfl
  · next c rest _ =>
    rw [exec_eq_effect] at h
    cases h
    exact .inr ⟨c, rest, rfl⟩

/-- The two commands of the RESET input (R174). -/
def Instr.isReset : Instr → Bool
  | .resetAssertion | .resetRelease .. => true
  | _ => false

theorem Machine.onServed_follows {s : State} {slot : Nat} {act : Nat → State → State}
    (h : ∀ i, s.occupied i → s.Follows (act i s)) : s.Conforms (onServed slot act s) :=
  ((State.Follows.refl s).onServed fun i hi => h i (State.occupied_of_servedBy hi)).steady.conforms

theorem Machine.sampleSlot_follows (slot : Nat) (rin sin : Byte) (upsets : List TapUpset) (s : State) :
    s.Follows (sampleSlot slot rin sin upsets s) := by
  unfold sampleSlot
  split
  · split
    · next hi => exact (State.Follows.refl s).servedSample (State.occupied_of_servedBy hi)
    · exact (State.Follows.refl s).driveSlot
  · exact .refl s

theorem Machine.dtHangoverEnd_follows (i : Nat) (s : State) :
    s.Follows (whenDue (fun _ sv => sv.dtFlag && sv.hangover == 0) clearDtFlag i s) := by
  unfold whenDue
  split
  · next sv hsv =>
    split
    · next hc =>
      simp only [Bool.and_eq_true, beq_iff_eq] at hc
      refine (State.Follows.refl s).modServing fun sv' hsv' => ?_
      obtain rfl := Option.some.inj (hsv.symm.trans hsv')
      exact ⟨fun _ => ⟨hc.2 ▸ Nat.zero_le _, by simp [hc]⟩, id, fun _ => id⟩
    · exact .refl s
  · exact .refl s

/-- A command other than the two of RESET conforms. -/
theorem Instr.conforms (c : Instr) (s : State) (hc : Instr.isReset c = false) : s.Conforms (c.effect s) := by
  have start := State.Follows.refl s
  cases c with
  | resetAssertion => cases hc
  | resetRelease => cases hc
  | testEnd => exact (State.Steady.endTest s).ifDue.conforms
  | frameSyncPulse clock => exact (State.Steady.syncPulse clock s).unlessHeld.conforms
  | syncLock => exact (State.Steady.lockFirst s).ifDue.unlessHeld.conforms
  | syncRegain => exact (State.Steady.regain s).ifDue.unlessHeld.conforms
  | expectedPositionCheck pulse => exact (State.Steady.checkPosition pulse s).unlessHeld.conforms
  | syncLoss => exact (State.Steady.loseSync s).ifDue.unlessHeld.conforms
  | huntPeriod => exact (State.Steady.huntPeriodEnds s).unlessHeld.conforms
  | sample slot rin sin upsets => exact (sampleSlot_follows _ rin sin upsets s).steady.unlessHeld.conforms
  | callEnd slot => exact onServed_follows fun i hi => start.whenDue (start.endCall hi)
  | retirement block => exact start.retireIfDue.steady.unlessHeld.conforms
  | dtHangoverEnd slot => exact onServed_follows fun i _ => dtHangoverEnd_follows i s
  | nlpHangoverExpiry slot => exact onServed_follows fun i _ => start.whenDue start.modServing_eq
  | blockEnd slot => exact onServed_follows fun i hi => start.blockEndIfDue hi
  | pathChange slot => exact onServed_follows fun i hi => start.pathChangeIfDue hi
  | evaluation slot => exact onServed_follows fun i _ => start.evaluateIfDue
  | toneHold slot => exact onServed_follows fun i hi => start.toneHoldIfDue hi
  | toneHoldRelease slot => exact onServed_follows fun i hi => start.toneHoldReleaseIfDue hi
  | disabledRelease slot => exact onServed_follows fun i hi => start.disabledReleaseIfDue hi
  | frameBoundary others => exact (State.Steady.endFrame others s).conforms
  | orphan slot => exact start.queueAdopt.steady.conforms
  | adoptJudgement slot => exact (State.Steady.judgeAdopt slot.isLt s).inRun.conforms
  | offerWindowEnd slot => exact (start.onHeld fun _ _ => start.endOfferWindow).steady.inRun.conforms
  | bidWindowExpiry slot => exact (State.Steady.expireBid _ s).inRun.conforms
  | grantStale slot => exact start.expireGrant.steady.inRun.conforms
  | bidTimeout slot => exact (State.Steady.onHeld fun i _ => State.Steady.timeOutBid i s).inRun.conforms
  | offerMemoryExpiry slot => exact start.expireOfferMemory.steady.inRun.conforms
  | handOver slot => exact (State.Steady.onHeld fun i _ => State.Steady.handOver i s).inService.conforms
  | reclaimAgeExpiry slot => exact (start.onHeld fun _ _ => start.requeueReclaim).steady.inService.conforms
  | listenEnd => exact (State.Steady.endListen s).ifDue.conforms
  | configTimeout => exact (State.Steady.enterRun s).ifDue.conforms
  | runEntry => exact (State.Steady.enterRun s).ifDue.conforms
  | cellStart cell line => exact (startCell_follows cell line s).steady.conforms
  | cellEnd => exact (State.Conforms.refl s).ite (endCell_conforms s)
  | queryUnknownPage target page argument k => exact (receive_conforms _ s).ite (.refl s)
  | _ => exact receive_conforms _ s

/-! ### RESET -/

theorem Machine.homeCount_le (k n : Nat) (hn : 2 ≤ n) : homeCount k n ≤ 64 := by
  unfold homeCount
  split
  · have := Nat.div_le_div_left hn (by decide : 0 < 2) (a := 127 - k)
    omega
  · omega

/-- The home slots of a station number on the shelf are slots of the highway (R17). -/
theorem Machine.home_slot_lt {k n i : Nat} (hk : k < 128) (hi : i < homeCount k n) : k + i * n < 128 := by
  unfold homeCount at hi
  split at hi
  · have := (Nat.le_div_iff_mul_le (by omega)).1 (Nat.lt_succ_iff.1 hi)
    omega
  · omega

/-- No context has serving parts before the station serves (R19). -/
theorem Machine.contextsFor_serving {k n : Nat} {c : Context} (h : c ∈ contextsFor k n) : c.serving = none := by
  simp only [contextsFor, List.mem_map] at h
  obtain ⟨i, -, rfl⟩ := h
  split <;> rfl

theorem Machine.eachServing_of_tableFor {s : State} {k n : Nat} (h : s.table = tableFor k n) (p : Serving → Prop) :
    s.eachServing p := fun c hc sv hsv => by
  rw [contextsFor_serving (h ▸ hc)] at hsv
  cases hsv

theorem Machine.tableFor_length (k n : Nat) :
    (tableFor k n).contexts.length = 64 ∧ (tableFor k n).directory.length = 128 :=
  ⟨by simp [tableFor, contextsFor, Config.contexts], directoryFor_length k n⟩

theorem Machine.resetWith_sized (k n : Nat) (clamped : Bool) : (State.resetWith k n clamped).sized :=
  ⟨(tableFor_length k n).1, (tableFor_length k n).2, State.Steady.placement_length 0, rfl, rfl, rfl, rfl⟩

theorem Machine.resetWith_gainsSound (k n : Nat) (clamped : Bool) : (State.resetWith k n clamped).gainsSound := by
  refine ⟨fun p hp => ?_, eachServing_of_tableFor rfl _⟩
  obtain ⟨j, -, rfl⟩ := List.mem_map.1 hp
  exact defaultProfile_sound j

theorem Machine.resetWith_countsSound (k n : Nat) (clamped : Bool) : (State.resetWith k n clamped).countsSound := by
  refine ⟨Nat.zero_le _, Nat.zero_le _, Nat.zero_le _, Nat.zero_le _, Nat.zero_le _, Nat.zero_le _, Nat.zero_le _,
    Nat.zero_le _, fun n hn => ?_⟩
  rw [List.eq_of_mem_replicate hn]
  exact Nat.zero_le _

theorem Machine.assertReset_keeps (s : State) : s.Keeps (assertReset s) where
  sized _ := resetWith_sized _ _ _
  queue_le _ := Nat.zero_le _
  ranked _ := .nil
  counts _ := resetWith_countsSound _ _ _
  dt _ := eachServing_of_tableFor rfl _
  noise _ := eachServing_of_tableFor rfl _
  gains _ := resetWith_gainsSound _ _ _
  slots h := State.slotsSound_of_tableFor h.1 (fun _ hi => (h.home_lt hi).2) rfl

theorem Machine.releaseReset_keeps (station population : BitVec 3) (tested : List TapUpset) (s : State) :
    s.Keeps (releaseReset station population tested s) where
  sized h := ⟨(tableFor_length _ _).1, (tableFor_length _ _).2, h.2.2⟩
  queue_le := id
  ranked := id
  counts h := by
    obtain ⟨h1, h2, h3, h4, h5, h6, h7, -, h9⟩ := h
    exact ⟨h1, h2, h3, h4, h5, h6, h7, Nat.zero_le _, h9⟩
  dt _ := eachServing_of_tableFor rfl _
  noise _ := eachServing_of_tableFor rfl _
  gains h := ⟨h.1, eachServing_of_tableFor rfl _⟩
  slots _ := by
    refine State.slotsSound_of_tableFor ?_ (fun i hi => home_slot_lt ?_ hi) rfl
    · simp only [releaseReset]
      split <;> omega
    · exact Nat.lt_trans station.isLt (by decide)

theorem Instr.effect_resetRelease (station population : BitVec 3) (tested : List TapUpset) (s : State) :
    Instr.effect (.resetRelease station population tested) s
      = if s.profile.station = .held then releaseReset station population tested s else s := rfl

/-- Every command keeps the invariants. -/
theorem Instr.keeps (c : Instr) (s : State) : s.Keeps (c.effect s) := by
  cases hc : Instr.isReset c with
  | false => exact (Instr.conforms c s hc).toKeeps
  | true =>
    cases c with
    | resetAssertion => exact assertReset_keeps s
    | resetRelease station population tested =>
      rw [Instr.effect_resetRelease]
      split
      · exact releaseReset_keeps _ _ _ s
      · exact .refl s
    | _ => cases hc

/-- Every step keeps the invariants. -/
theorem Machine.step_keeps {s t : State} (h : step s = .next t) : s.Keeps t := by
  obtain rfl | ⟨c, rest, rfl⟩ := step_cases h
  · exact .refl _
  · have popped : s.Keeps { s with pending := rest } := ⟨id, id, id, id, id, id, id, id⟩
    exact popped.trans (Instr.keeps c _)

/-! ### While RESET is held -/

/-- While RESET is held, in HUNT and with nothing recalled, a command other than RESET's does nothing (R174). -/
theorem Instr.effect_held (c : Instr) (s : State) (hc : Instr.isReset c = false) (hs : s.profile.station = .held)
    (hq : s.heldQuiet) : c.effect s = s := by
  obtain ⟨hunt, quiet⟩ := hq hs
  have deaf : ∀ m, receive m s = s := fun m => Laws.receive_deaf m s (by rw [hs]; rfl)
  have still : ∀ act, unlessHeld act s = s := fun act => if_pos hs
  have notRun : ∀ act, inRun act s = s := fun act => if_neg (by rw [hs]; decide)
  have notServing : ∀ act, inService act s = s := fun act => if_neg (by rw [hs]; decide)
  have notDue : ∀ due act, due s = false → ifDue due act s = s := fun due act h => if_neg (by rw [h]; decide)
  have unserved : ∀ slot act, onServed slot act s = s := fun slot act => by
    have hnone : s.servedBy slot = none := by
      simp [State.servedBy, State.serves, hs, StationState.serves]
    rw [onServed, hnone]
  cases c with
  | resetAssertion => cases hc
  | resetRelease => cases hc
  | testEnd => exact notDue _ _ (by simp [testEndDue, hs])
  | frameSyncPulse clock => exact still _
  | syncLock => exact still _
  | syncRegain => exact still _
  | expectedPositionCheck pulse => exact still _
  | syncLoss => exact still _
  | huntPeriod => exact still _
  | sample slot rin sin upsets => exact still _
  | callEnd slot => exact unserved _ _
  | retirement block => exact still _
  | dtHangoverEnd slot => exact unserved _ _
  | nlpHangoverExpiry slot => exact unserved _ _
  | blockEnd slot => exact unserved _ _
  | pathChange slot => exact unserved _ _
  | evaluation slot => exact unserved _ _
  | toneHold slot => exact unserved _ _
  | toneHoldRelease slot => exact unserved _ _
  | disabledRelease slot => exact unserved _ _
  | frameBoundary others => exact if_neg (by rw [hunt]; decide)
  | orphan slot => exact if_neg (by simp [orphanDue, hs])
  | adoptJudgement slot => exact notRun _
  | offerWindowEnd slot => exact notRun _
  | bidWindowExpiry slot => exact notRun _
  | grantStale slot => exact notRun _
  | bidTimeout slot => exact notRun _
  | offerMemoryExpiry slot => exact notRun _
  | handOver slot => exact notServing _
  | reclaimAgeExpiry slot => exact notServing _
  | listenEnd => exact notDue _ _ (by simp [listenEndDue, hs])
  | configTimeout => exact notDue _ _ (by simp [configTimeoutDue, hs])
  | runEntry => exact notDue _ _ (by simp [runEntryDue, hs])
  | cellStart cell line => exact if_neg (by rw [hs]; decide)
  | cellEnd => exact still _
  | queryUnknownPage target page argument k => exact (ite_eq_right_iff.2 fun _ => deaf _)
  | _ => exact deaf _

/-- While RESET is held the interface stays in HUNT with no entry recalled (R14, R154, R174). -/
theorem Instr.effect_heldQuiet (c : Instr) {s : State} (h : s.heldQuiet) : (c.effect s).heldQuiet := by
  intro hheld
  cases hc : Instr.isReset c with
  | false =>
    have hs := (Instr.conforms c s hc).held hheld
    rw [Instr.effect_held c s hc hs h]
    exact h hs
  | true =>
    cases c with
    | resetAssertion => exact ⟨rfl, rfl⟩
    | resetRelease station population tested =>
      rw [Instr.effect_resetRelease] at hheld ⊢
      split at hheld
      · cases hheld
      · contradiction
    | _ => cases hc

end Sys2Proof

namespace Sys2Proof.Machine

open Sys2Proof

/-! ## The invariants of every step -/

/-- Every block is in one of the five states (R95, R97). -/
theorem State.countBlocks_sum (s : State) :
    s.countBlocks .free + s.countBlocks .assigned + s.countBlocks .reserved + s.countBlocks .spare
      + s.countBlocks .failed = s.pool.blocks.length := by
  unfold State.countBlocks
  induction s.pool.blocks with
  | nil => rfl
  | cons b bs ih =>
    rw [List.length_cons, ← ih]
    simp only [List.filter_cons]
    cases b.state <;> simp <;> omega

/-- Settles O3: the record counts are an invariant of every command. -/
theorem stepKeepsSizes : Obligations.StepKeepsSizes := by
  unfold Obligations.StepKeepsSizes
  intro s t hs h
  have hsized := (step_keeps h).sized hs
  exact ⟨hsized, t.countBlocks_sum.trans hsized.2.2.1⟩

/-! ### How a message joins the queue -/

theorem hasRank_eq_true {rank : Nat} {q : List Entry} : hasRank rank q = true ↔ ∃ x ∈ q, x.msg.kind = rank := by
  simp [hasRank]

theorem hasRank_eq_false {rank : Nat} {q : List Entry} : hasRank rank q = false ↔ ∀ x ∈ q, x.msg.kind ≠ rank := by
  simp [hasRank]

/-- A message that is to join a rank-ordered queue does as R150 and R151 say. -/
theorem joinQueueWith_joins {e : Entry} {q : List Entry} (hr : rankOrdered q) :
    e.joins q (joinQueueWith e q).1 (joinQueueWith e q).2.2 := by
  refine ⟨fun hl => ?_, fun hl => ?_⟩
  · have room : joinQueueWith e q = (insertEntry e q, true, 0) := if_pos hl
    rw [room]
    exact ⟨rfl, insertEntry_of_ordered e q hr⟩
  · have full : ¬q.length < Config.queueTop := by rw [hl]; decide
    refine ⟨?_, fun rank older newest younger hk hrank hq hn hy => ?_, fun hlow => ?_⟩
    · obtain ⟨hl', -⟩ | ⟨-, -, -, hj⟩ | ⟨-, -, -, -, hj⟩ | ⟨-, hj⟩ := joinQueueWith_cases e q
      · omega
      all_goals rw [hj]
    · have hnewest : hasRank rank q = true := hasRank_eq_true.2 ⟨newest, by simp [hq], hn⟩
      have gives : joinQueueWith e q = (insertEntry e (removeNewest rank q), true, 1) := by
        obtain rfl | ⟨rfl, hno⟩ := hrank
        · rw [joinQueueWith, if_neg full, if_pos hk, if_pos hnewest]
        · rw [joinQueueWith, if_neg full, if_pos hk, hasRank_eq_false.2 hno, if_neg Bool.false_ne_true, if_pos hnewest]
      rw [gives, hq, removeNewest_append rank older newest younger hn hy]
      exact insertEntry_of_ordered e _ ((hq ▸ hr).sublist (by simp))
    · rw [joinQueueWith, if_neg full]
      obtain hlow | hnone := hlow
      · rw [if_neg (Nat.not_le.2 hlow)]
      · rw [hasRank_eq_false.2 fun x hx => (hnone x hx).1, hasRank_eq_false.2 fun x hx => (hnone x hx).2]
        simp

/-- A message queued joins the rank-ordered queue, and the drop count takes what gave way (R151, R153). -/
theorem State.send_joins (s : State) (m : Msg) (hr : rankOrdered s.lane.queue) :
    ∃ dropped, Entry.joins ⟨m, s.frame, none⟩ s.lane.queue (s.send m).lane.queue dropped
      ∧ (s.send m).lane.drops = min 65535 (s.lane.drops + dropped) :=
  ⟨_, joinQueueWith_joins hr, rfl⟩

/-- A RUN message in RUN is refused with a NOTICE (R178). -/
theorem effect_runMessage_refused {s : State} {k target : BitVec 4} {mask idle : BitVec 12} {count : BitVec 3}
    {c1 c2 c3 c4 : BitVec 8} (h : s.hearsCard k) (ht : target.toNat = s.profile.k ∨ target = 15)
    (hs : s.profile.station = .run) (hm : maskBit s.profile.noticeMask 9 = true) :
    Instr.effect (.runMessage target mask idle count c1 c2 c3 c4 k) s
      = s.send (.notice 9 (BitVec.ofNat 16 (6 * 8 * 512)) s.me) := by
  have hk : k = 15 := h.2.1
  have haddr : addressed s target = true := by simpa [addressed] using ht
  calc Instr.effect (.runMessage target mask idle count c1 c2 c3 c4 k) s
      = deliver (.run target mask idle count c1 c2 c3 c4 k) s := Laws.hearsCard_delivers _ s k h rfl (by rw [hk]; rfl)
    _ = refuseConfig 6 0 s := by simp only [deliver, if_pos haddr, takeRun, hs]
    _ = s.send (.notice 9 (BitVec.ofNat 16 (6 * 8 * 512)) s.me) := if_pos hm

/-- A QUERY of an unknown page is answered with status 2 (R179, R180). -/
theorem effect_queryUnknownPage {s : State} {k target : BitVec 4} {page : BitVec 3} {argument : BitVec 9}
    (h : s.hearsCard k) (ht : target.toNat = s.profile.k ∨ target = 15) (hp : 5 ≤ page.toNat) :
    Instr.effect (.queryUnknownPage target page argument k) s = s.send (.report page argument (2 <<< 86) s.me) := by
  have hk : k = 15 := h.2.1
  have haddr : addressed s target = true := by simpa [addressed] using ht
  have hfields : reportFields s page.toNat argument.toNat = [(2, 2)] := by
    obtain ⟨n, hn⟩ := Nat.exists_eq_add_of_le' hp
    rw [hn]
    rfl
  calc Instr.effect (.queryUnknownPage target page argument k) s
      = receive (.query target page argument k) s := if_pos hp
    _ = deliver (.query target page argument k) s := Laws.hearsCard_delivers _ s k h rfl (by rw [hk]; rfl)
    _ = answerQuery page argument s := by simp only [deliver, if_pos haddr]
    _ = s.send (.report page argument (2 <<< 86) s.me) := by rw [answerQuery, hfields]; rfl

theorem State.slotOf_eq {s : State} {i slot : Nat} (h : (s.ctx i).slot = some slot) : s.slotOf i = slot := by
  simp [State.slotOf, h]

/-- A RECLAIMING home of age 8000 with none queued queues a RECLAIM (R170). -/
theorem effect_reclaimAgeExpiry {s : State} {slot : BitVec 7} {i : Nat} {r : Reclaim}
    (hs : s.profile.station.serves = true) (hl : s.lookup slot.toNat = some i) (hslot : (s.ctx i).slot = some slot.toNat)
    (hrole : (s.ctx i).role = .reclaiming) (hr : (s.ctx i).reclaim = some r) (hage : 8000 ≤ r.age)
    (hq : ∀ e ∈ s.lane.queue, e.isReclaim slot.toNat = false) :
    Instr.effect (.reclaimAgeExpiry slot) s = s.send (.reclaim slot s.me) := by
  have hold : s.queued (·.isReclaim slot.toNat) = false := by simpa [State.queued] using hq
  calc Instr.effect (.reclaimAgeExpiry slot) s
      = inService (onHeld slot.toNat requeueReclaim) s := rfl
    _ = requeueReclaim i s := by rw [inService, if_pos hs, onHeld, hl]
    _ = s.send (.reclaim slot s.me) := by
      simp only [requeueReclaim, hrole, hr, State.slotOf_eq hslot, hold, Config.reclaimTop, hage, decide_true,
        Bool.or_true, Bool.not_false, Bool.and_self, if_true, BitVec.ofNat_toNat, BitVec.setWidth_eq]

/-- An ADOPT joins the queue for an orphan slot (R167). -/
theorem effect_orphan {s : State} {slot : BitVec 7} (hs : s.profile.station = .run) (hhome : s.isHome slot.toNat = false)
    (habs : s.share.absence.getD slot.toNat 0 = 8) (hl : s.lookup slot.toNat = none)
    (hq : ∀ e ∈ s.lane.queue, e.isAdopt slot.toNat = false) (hadopt : ∀ a ∈ s.share.adopting, a.1 ≠ slot.toNat)
    (hfree : s.freeGuest? ≠ none) :
    Instr.effect (.orphan slot) s = s.send (.adopt slot (BitVec.ofNat 8 (min 255 s.pool.fifo.length)) s.me) := by
  have hold : s.queued (·.isAdopt slot.toNat) = false := by simpa [State.queued] using hq
  have hnone : s.share.adopting.any (·.1 == slot.toNat) = false := by simpa using hadopt
  have due : orphanDue s slot.toNat = true := by
    simp only [orphanDue, hs, hhome, habs, hl, hold, hnone, Option.isSome_iff_ne_none.2 hfree, Config.orphanAt]
    rfl
  calc Instr.effect (.orphan slot) s = queueAdopt slot.toNat s := rfl
    _ = _ := by rw [queueAdopt, if_pos due, BitVec.ofNat_toNat, BitVec.setWidth_eq]; rfl

/-- A GRANT to this station for a slot whose context is not RESERVED is answered cannot serve (R163). -/
theorem effect_grant_refused {s : State} {slot : BitVec 7} {taker k : BitVec 4} {i : Nat} (h : s.hearsStation k)
    (ht : taker.toNat = s.profile.k) (hl : s.lookup slot.toNat = some i) (hr : (s.ctx i).role ≠ .reserved) :
    Instr.effect (.grant slot taker k) s = s.send (.returnSlot slot 2 s.me) := by
  calc Instr.effect (.grant slot taker k) s
      = deliver (.grant slot taker k) s := Laws.hearsStation_delivers _ s k h rfl (decide_eq_true h.2.1)
    _ = takeGrant slot.toNat k.toNat s := by simp only [deliver, inRun, if_pos h.1, deliverGrant, if_pos ht]
    _ = s.send (.returnSlot slot 2 s.me) := by
      simp only [takeGrant, hl, if_neg hr, refuseGrant, BitVec.ofNat_toNat, BitVec.setWidth_eq]

/-- Settles O4: the invariants of the queue and of the counts, and the five commands as one message that joins. -/
theorem stepKeepsQueueAndCounts : Obligations.StepKeepsQueueAndCounts := by
  unfold Obligations.StepKeepsQueueAndCounts
  refine ⟨fun _ _ hs h => (step_keeps h).queue_le hs, fun _ _ hs h => (step_keeps h).ranked hs,
    fun _ _ hs h => (step_keeps h).counts hs, fun s c m hr _ hc => ?_⟩
  have sends : c.effect s = s.send m := by
    obtain ⟨target, mask, idle, count, c1, c2, c3, c4, k, rfl, hk, ht, hs, hm, rfl⟩
      | ⟨target, page, argument, k, rfl, hk, ht, hp, rfl⟩
      | ⟨slot, i, r, rfl, hs, hl, hslot, hrole, hreclaim, hage, hq, rfl⟩
      | ⟨slot, rfl, hs, hhome, habs, hl, hq, hadopt, hfree, rfl⟩
      | ⟨slot, taker, k, i, rfl, hk, ht, hl, hrole, rfl⟩ := hc
    · exact effect_runMessage_refused hk ht hs hm
    · exact effect_queryUnknownPage hk ht hp
    · exact effect_reclaimAgeExpiry hs hl hslot hrole hreclaim hage hq
    · exact effect_orphan hs hhome habs hl hq hadopt hfree
    · exact effect_grant_refused hk ht hl hrole
  obtain ⟨dropped, hjoins, hdrops⟩ := s.send_joins m hr
  exact ⟨c.effect s, dropped, exec_eq_effect c s, sends ▸ hjoins, sends ▸ hdrops⟩

/-- Settles O5: the acts on serving parts keep hangover, flag and noise estimate in their ranges. -/
theorem stepKeepsSignalStateSound : Obligations.StepKeepsSignalStateSound := by
  unfold Obligations.StepKeepsSignalStateSound
  exact ⟨fun _ _ hs h => (step_keeps h).dt hs, fun _ _ hs h => (step_keeps h).noise hs⟩

/-- Settles O6: level control clamps the gain indices, and a stored profile is clamped. -/
theorem stepKeepsGainsInRange : Obligations.StepKeepsGainsInRange := by
  unfold Obligations.StepKeepsGainsInRange
  exact fun _ _ hs h => (step_keeps h).gains hs

/-- Settles O8: guests are engaged and freed with their directory entries, and homes stand. -/
theorem stepKeepsSlotsSound : Obligations.StepKeepsSlotsSound := by
  unfold Obligations.StepKeepsSlotsSound
  refine ⟨fun s t hs h => (step_keeps h).slots hs, fun s t hs h => ?_⟩
  obtain rfl | ⟨c, rest, rfl⟩ := step_cases h
  · exact hs
  · exact Instr.effect_heldQuiet c (s := { s with pending := rest }) hs

/-- Settles O2: every command but the two of RESET conforms. -/
theorem queueStrapsAndConfigurationStand : Obligations.QueueStrapsAndConfigurationStand := by
  unfold Obligations.QueueStrapsAndConfigurationStand
  intro c s
  refine ⟨c.effect s, exec_eq_effect c s, ?_⟩
  cases hc : Instr.isReset c with
  | false =>
    obtain ⟨-, hpending, hstraps, hconfigured, -⟩ := Instr.conforms c s hc
    refine ⟨hpending, fun hs hq _ _ => Instr.effect_held c s hc hs hq, fun _ => by simpa using hstraps, fun hs _ => ?_⟩
    have := hconfigured hs
    simp only [State.configuration, Prod.mk.injEq] at this
    exact this.2.2
  | true =>
    cases c with
    | resetAssertion =>
      exact ⟨rfl, fun _ _ h => absurd rfl h, fun _ => ⟨rfl, rfl, rfl⟩, fun _ h => absurd rfl h⟩
    | resetRelease station population tested =>
      rw [Instr.effect_resetRelease]
      refine ⟨?_, fun _ _ _ h => absurd rfl (h _ _ _), fun h => absurd rfl (h _ _ _), fun _ _ => ?_⟩ <;> split
      · rfl
      · rfl
      · exact ⟨rfl, rfl, rfl, rfl⟩
      · exact ⟨rfl, rfl, rfl, rfl⟩
    | _ => cases hc

end Sys2Proof.Machine

namespace Sys2Proof.Machine

open Sys2Proof

/-! ## RESET, the memory test and the gain table -/

/-! ### Steps and gains -/

/-- Settles O1. -/
theorem stepTakesFrontCommand : Obligations.StepTakesFrontCommand := by
  unfold Obligations.StepTakesFrontCommand
  exact ⟨fun s c rest h => by rw [step, h], fun s h => by rw [step, h]⟩

/-- Entry i of the gain table lies in 516..16306, and is 4096 for index 0 alone (R115). -/
theorem gainTable_range : ∀ i < 61, 516 ≤ Config.gainTable.getD i 0 ∧ Config.gainTable.getD i 0 ≤ 16306
    ∧ (Config.gainTable.getD i 0 = 4096 ↔ i = 36) := by decide +kernel

/-- An integer `g` with (g ± ½)^40 on either side of x^40 lies within a half of x. -/
theorem abs_sub_lt_half_of_pow {g : ℕ} {x : ℝ} (hg : 1 ≤ g) (hx : 0 ≤ x) (low : (2 * g - 1 : ℝ) ^ 40 < (2 * x) ^ 40)
    (high : (2 * x) ^ 40 < (2 * g + 1 : ℝ) ^ 40) : |(g : ℝ) - x| < 1 / 2 := by
  have hlow := lt_of_pow_lt_pow_left₀ 40 (by positivity) low
  have hhigh := lt_of_pow_lt_pow_left₀ 40 (by positivity) high
  rw [abs_lt]
  constructor <;> linarith

/-- Settles O14: x = 4096 · 10^(G/40) is judged by its 40th power, 4096^40 · 10^G. -/
theorem gainOfEveryIndex : Obligations.GainOfEveryIndex := by
  unfold Obligations.GainOfEveryIndex
  intro G hlow hhigh
  obtain ⟨i, hi, rfl⟩ : ∃ i : ℕ, i < 61 ∧ G = (i : Int) - 36 := ⟨(G + 36).toNat, by omega, by omega⟩
  have hread : Config.gainTable.getD i 4096 = Config.gainTable.getD i 0 := by
    simp only [List.getD_eq_getElem?_getD, List.getElem?_eq_getElem (show i < Config.gainTable.length from hi),
      Option.getD_some]
  rw [Laws.linearGain_eq i hi, hread]
  obtain ⟨hnear, hnear'⟩ := Laws.gainTable_nearest i hi
  obtain ⟨hmin, hmax, hunit⟩ := gainTable_range i hi
  generalize hg : Config.gainTable.getD i 0 = g at *
  refine ⟨?_, hmin, hmax, hunit.trans (by omega)⟩
  have hpow : (2 * (4096 * (10 : ℝ) ^ ((((i : Int) - 36 : Int) : ℝ) / 40))) ^ 40 * 10 ^ 36 = 8192 ^ 40 * 10 ^ i := by
    have hten : ((10 : ℝ) ^ ((((i : Int) - 36 : Int) : ℝ) / 40)) ^ 40 * 10 ^ 36 = 10 ^ i := by
      rw [← Real.rpow_natCast, ← Real.rpow_mul (by norm_num), ← Real.rpow_natCast 10 36, ← Real.rpow_add (by norm_num),
        ← Real.rpow_natCast]
      congr 1
      push_cast
      ring
    rw [← mul_assoc, mul_pow, mul_assoc, hten]
    norm_num
  have low : ((2 * g - 1 : ℕ) : ℝ) ^ 40 * 10 ^ 36 < 8192 ^ 40 * 10 ^ i := by exact_mod_cast hnear
  have high : (8192 : ℝ) ^ 40 * 10 ^ i < (2 * g + 1) ^ 40 * 10 ^ 36 := by exact_mod_cast hnear'
  rw [← hpow] at low high
  rw [Nat.cast_sub (by omega), Nat.cast_mul, Nat.cast_ofNat, Nat.cast_one] at low
  exact_mod_cast abs_sub_lt_half_of_pow (x := 4096 * (10 : ℝ) ^ ((((i : Int) - 36 : Int) : ℝ) / 40)) (by omega) (by positivity)
    (lt_of_mul_lt_mul_right low (by positivity)) (lt_of_mul_lt_mul_right high (by positivity))

/-! ### The memory test and its placement (R98, R99) -/

/-- Bit b of the memory test's verdict: some tested bit of block b reads wrong. -/
theorem memoryTest_getLsbD (tested : List TapUpset) (b : Nat) :
    (memoryTest tested).getLsbD b = true ↔ b < 264 ∧ ∃ u ∈ tested, u.block.toNat = b ∧ 0 < u.bits := by
  have fold : ∀ m : BitVec 264, (tested.foldl (fun m u => if u.bits = 0 then m else
      m ||| BitVec.ofNat 264 (2 ^ u.block.toNat)) m).getLsbD b = true
        ↔ m.getLsbD b = true ∨ (b < 264 ∧ ∃ u ∈ tested, u.block.toNat = b ∧ 0 < u.bits) := by
    induction tested with
    | nil => simp
    | cons u us ih =>
      intro m
      rw [List.foldl_cons, ih]
      by_cases hu : u.bits = 0
      · simp [hu]
      · simp only [if_neg hu, BitVec.getLsbD_or, BitVec.getLsbD_ofNat, Nat.testBit_two_pow, Bool.or_eq_true,
          Bool.and_eq_true, decide_eq_true_eq, List.mem_cons, exists_eq_or_imp, Nat.pos_of_ne_zero hu, and_true]
        tauto
  exact (fold 0).trans (by simp)

/-- The placement of a block: FAILED, or FREE while fewer than `room` blocks before it passed, or SPARE (R99). -/
def placedState (faulty : BitVec 264) (room : Nat) (before : List Nat) (b : Nat) : BlockState :=
  if faulty.getLsbD b then .failed
  else if (before.filter fun a => !faulty.getLsbD a).length < room then .free else .spare

theorem placeFrom_eq (faulty : BitVec 264) (room : Nat) (bs : List Nat) (j b : Nat) (hb : bs[j]? = some b) :
    (placeFrom faulty room bs)[j]? = some (idleBlock (placedState faulty room (bs.take j) b)) := by
  induction bs generalizing room j with
  | nil => cases hb
  | cons a bs ih =>
    cases j with
    | zero =>
      obtain rfl := Option.some.inj hb
      unfold placeFrom placedState
      split
      · rfl
      · split <;> simp_all
    | succ j =>
      rw [List.getElem?_cons_succ] at hb
      have hcount : ∀ room', (∀ n : Nat, n < room' ↔ (n + if faulty.getLsbD a then 0 else 1) < room) →
          placedState faulty room' (bs.take j) b = placedState faulty room ((a :: bs).take (j + 1)) b := fun room' h => by
        unfold placedState
        simp only [h, List.take_succ_cons, List.filter_cons, Bool.not_eq_true']
        cases faulty.getLsbD a <;> simp
      unfold placeFrom
      split
      · next ha => rw [List.getElem?_cons_succ, ih _ _ hb, hcount room fun n => by simp [ha]]
      · split
        · next ha hr =>
          rw [List.getElem?_cons_succ, ih _ _ hb, hcount (room - 1) fun n => by simp only [ha]; simp; omega]
        · next ha hr =>
          rw [List.getElem?_cons_succ, ih _ _ hb, hcount room fun n => by simp only [ha]; simp; omega]

theorem placement_block (faulty : BitVec 264) {b : Nat} (hb : b < 264) :
    (placement faulty).blocks[b]? = some (idleBlock (placedState faulty 256 (List.range b) b)) := by
  have := placeFrom_eq faulty Config.inService (List.range Config.tapBlocks) b b (by simp [Config.tapBlocks, hb])
  rwa [List.take_range, Config.tapBlocks, Nat.min_eq_left (Nat.le_of_lt hb)] at this

theorem indicesFrom_eq_filter {α : Type} (p : α → Bool) (i : Nat) (xs : List α) :
    indicesFrom p i xs = (List.range' i xs.length).filter fun j => xs[j - i]?.any p := by
  induction xs generalizing i with
  | nil => rfl
  | cons x xs ih =>
    have tail : (List.range' (i + 1) xs.length).filter (fun j => (x :: xs)[j - i]?.any p)
        = (List.range' (i + 1) xs.length).filter fun j => xs[j - (i + 1)]?.any p := by
      refine List.filter_congr fun j hj => ?_
      obtain ⟨k, rfl⟩ := Nat.exists_eq_add_of_le (List.mem_range'_1.1 hj).1
      rw [show i + 1 + k - i = k + 1 by omega, show i + 1 + k - (i + 1) = k by omega, List.getElem?_cons_succ]
    rw [List.length_cons, List.range'_succ, List.filter_cons, tail, ← ih]
    simp [indicesFrom]

/-- The blocks in service are as many as `room` allows, and the others that passed are SPARE (R97, R99). -/
theorem placeFrom_spare (faulty : BitVec 264) (room : Nat) (bs : List Nat) :
    ((placeFrom faulty room bs).filter fun b => b.state == .spare).length
      = bs.length - room - ((placeFrom faulty room bs).filter fun b => b.state == .failed).length := by
  have pass : ∀ room, ((placeFrom faulty room bs).filter fun b => b.state == .spare).length
        = (bs.filter fun a => !faulty.getLsbD a).length - room
      ∧ ((placeFrom faulty room bs).filter fun b => b.state == .failed).length
        + (bs.filter fun a => !faulty.getLsbD a).length = bs.length := fun room => by
    induction bs generalizing room with
    | nil => simp [placeFrom]
    | cons a bs ih =>
      unfold placeFrom
      split
      · next ha =>
        obtain ⟨hs, hf⟩ := ih room
        simp [ha, idleBlock, hs]
        omega
      · next ha =>
        rw [Bool.not_eq_true] at ha
        split
        · obtain ⟨hs, hf⟩ := ih (room - 1)
          simp [ha, idleBlock, hs]
          omega
        · obtain ⟨hs, hf⟩ := ih room
          simp [ha, idleBlock, hs]
          omega
  obtain ⟨hs, hf⟩ := pass room
  omega

section Placed

variable {s : State} {faulty : BitVec 264}

theorem tapBlock_of_placement (hp : s.pool = placement faulty) {b : Nat} (hb : b < 264) :
    s.tapBlock b = idleBlock (placedState faulty 256 (List.range b) b) := by
  rw [State.tapBlock, hp, List.getD_eq_getElem?_getD, placement_block faulty hb, Option.getD_some]

/-- A block past the last reads as FAILED. -/
theorem State.tapBlock_ge {s : State} (h : s.pool.blocks.length = 264) {b : Nat} (hb : 264 ≤ b) :
    s.tapBlock b = idleBlock .failed := by
  rw [State.tapBlock, List.getD_eq_getElem?_getD, List.getElem?_eq_none (h ▸ hb), Option.getD_none]

/-- The FIFO of a placement: its FREE blocks in ascending number (R99). -/
theorem fifo_of_placement (hp : s.pool = placement faulty) :
    s.pool.fifo = (List.range 264).filter fun b => (s.tapBlock b).state == .free := by
  have hlen : (placement faulty).blocks.length = 264 := State.Steady.placement_length faulty
  calc s.pool.fifo = indicesFrom (fun b => b.state == .free) 0 (placement faulty).blocks := by rw [hp]; rfl
    _ = (List.range 264).filter fun j => (placement faulty).blocks[j - 0]?.any fun b => b.state == .free := by
      rw [indicesFrom_eq_filter, hlen, List.range_eq_range']
    _ = _ := List.filter_congr fun j hj => by
      have hj := List.mem_range.1 hj
      rw [tapBlock_of_placement hp hj, Nat.sub_zero, placement_block faulty hj]
      rfl

/-- A pool as the memory test places it keeps the laws while the station serves nothing (R97, R99). -/
theorem State.poolSound_of_placement (hp : s.pool = placement faulty) (hlen : s.table.contexts.length = 64)
    (hprofiles : ∀ p ∈ s.profile.profiles, 1 ≤ p.reach)
    (hctx : ∀ i, (s.ctx i).callState = .notServing ∧ (s.ctx i).search = none
      ∧ (s.ctx i).role = match (s.ctx i).kind with | .home => .homeServing | .guest => .guestFree) : s.poolSound := by
  have hblocks : s.pool.blocks.length = 264 := by rw [hp]; exact State.Steady.placement_length faulty
  have hshort : s.pool.shortfall = [] := by rw [hp]; rfl
  have hfifo := fifo_of_placement hp
  refine ⟨hlen, hblocks, hfifo ▸ List.nodup_range.filter _, fun b => ?_, ?_, fun b hb => ?_, fun i r hr => ?_, ?_,
    ?_, ?_, fun i hr _ => ?_, hprofiles, fun i hi => ?_, fun i _ => (hctx i).1, fun _ => ⟨hshort, hctx⟩⟩
  · simp [hfifo]
  · have := placeFrom_spare faulty Config.inService (List.range Config.tapBlocks)
    simpa only [State.countBlocks, hp, placement, List.length_range, Config.inService, Config.tapBlocks] using this
  · by_cases hlt : b < 264
    · rw [tapBlock_of_placement hp hlt] at hb
      cases hb
    · rw [State.tapBlock_ge hblocks (Nat.not_lt.mp hlt)] at hb
      cases hb
  · rw [(hctx i).2.1] at hr
    cases hr
  · rw [hshort]; exact .nil
  · exact fun h => absurd hshort h
  · rw [hshort]; simp
  · have := (hctx i).2.2
    rw [hr] at this
    cases hk : (s.ctx i).kind <;> rw [hk] at this <;> cases this
  · rw [(hctx i).2.1] at hi
    cases hi

end Placed

end Sys2Proof.Machine

namespace Sys2Proof.Machine

open Sys2Proof

/-! ## RESET and TEST -/

/-! ### The station under RESET -/

section Reset

variable (k n : Nat) (clamped : Bool)

theorem ctx_of_tableFor {s : State} {k n : Nat} (h : s.table = tableFor k n) (i : Nat) :
    s.ctx i = if i < 64 ∧ i < homeCount k n then homeContext (k + i * n) else freeGuest := by
  by_cases hi : i < 64
  · simp [State.ctx, h, tableFor, contextsFor, Config.contexts, List.getD_eq_getElem?_getD, hi]
  · simp [State.ctx, h, tableFor, contextsFor, Config.contexts, List.getD_eq_getElem?_getD, hi]

/-- A context as RESET leaves it (R19, R22). -/
def Context.atRest (c : Context) : Prop :=
  c.callState = .notServing ∧ c.serving = none ∧ c.search = none ∧ c.profile = 0 ∧ c.frozen = false
    ∧ c.transparent = false ∧ c.toneHold = false ∧ c.pendingReturn = false
    ∧ c.role = (match c.kind with | .home => .homeServing | .guest => .guestFree)
    ∧ c.server = none ∧ c.offer = none ∧ c.reservation = none ∧ c.reclaim = none ∧ c.stopAt = none ∧ c.grantee = none
    ∧ c.startAt = none

theorem atRest_of_tableFor {s : State} {k n : Nat} (h : s.table = tableFor k n) (i : Nat) : (s.ctx i).atRest := by
  rw [ctx_of_tableFor h]
  split <;> exact ⟨rfl, rfl, rfl, rfl, rfl, rfl, rfl, rfl, rfl, rfl, rfl, rfl, rfl, rfl, rfl, rfl⟩

theorem resetWith_poolSound : (State.resetWith k n clamped).poolSound := by
  refine State.poolSound_of_placement rfl (tableFor_length k n).1 (fun p hp => ?_) fun i => ?_
  · obtain ⟨j, -, rfl⟩ := List.mem_map.1 hp
    exact (defaultProfile_sound j).2.1
  · obtain ⟨hcall, -, hsearch, -, -, -, -, -, hrole, -⟩ := atRest_of_tableFor (s := State.resetWith k n clamped) rfl i
    exact ⟨hcall, hsearch, hrole⟩

/-- The home slots of the straps have their home context in the directory, and no other slot has one (R17, R18). -/
theorem lookup_of_tableFor {s : State} {k n : Nat} (h : s.table = tableFor k n) (hn : 2 ≤ n) {slot : Nat}
    (hs : slot < 128) :
    (k < n ∧ slot % n = k → ∃ i < 64, s.lookup slot = some i ∧ (s.ctx i).kind = .home ∧ (s.ctx i).slot = some slot
      ∧ (s.ctx i).role = .homeServing ∧ slot = k + i * n)
    ∧ (¬(k < n ∧ slot % n = k) → s.lookup slot = none) := by
  have hread : s.lookup slot = if k < n ∧ slot % n = k then some (slot / n) else none := by
    simp [State.lookup, h, tableFor, directoryFor, Config.slots, List.getD_eq_getElem?_getD, hs]
  refine ⟨fun hhome => ?_, fun hno => by rw [hread, if_neg hno]⟩
  obtain ⟨hkn, hmod⟩ := hhome
  have hdiv := Nat.div_add_mod slot n
  have hslot : slot = k + slot / n * n := by rw [Nat.mul_comm]; omega
  have hlt : slot / n < homeCount k n := by
    rw [homeCount, if_pos hkn, Nat.lt_succ_iff, Nat.le_div_iff_mul_le (by omega)]
    omega
  have hi : slot / n < 64 := Nat.lt_of_lt_of_le hlt (homeCount_le k n hn)
  refine ⟨slot / n, hi, by rw [hread, if_pos ⟨hkn, hmod⟩], ?_⟩
  rw [ctx_of_tableFor h, if_pos ⟨hi, hlt⟩]
  exact ⟨rfl, congrArg some hslot.symm, rfl, hslot⟩

/-- Settles O9: the state after RESET is `resetWith`, a fault-free placement and contexts at rest. -/
theorem resetLeaves : Obligations.ResetLeaves := by
  unfold Obligations.ResetLeaves
  have table : State.reset.table = tableFor 0 2 := rfl
  refine ⟨resetWith_sized 0 2 false, rfl, eachServing_of_tableFor table _, eachServing_of_tableFor table _,
    resetWith_gainsSound 0 2 false, resetWith_countsSound 0 2 false, resetWith_poolSound 0 2 false,
    State.slotsSound_of_tableFor (Nat.le_refl 2) (fun i hi => home_slot_lt (by decide) hi) rfl, fun _ => ⟨rfl, rfl⟩,
    rfl, rfl, rfl, rfl, fun i _ => ?_, fun i hi => ?_⟩
  · obtain ⟨hcall, hserving, hsearch, -⟩ := atRest_of_tableFor table i
    exact ⟨hcall, hserving, hsearch⟩
  · have hread : State.reset.profileAt i = defaultProfile i := by
      have : State.reset.profile.profiles = defaultProfiles := rfl
      simp [State.profileAt, this, defaultProfiles, List.getD_eq_getElem?_getD, hi]
    rw [hread]
    exact ⟨rfl, rfl, rfl, rfl, rfl⟩

end Reset

/-- A station that serves no slot asserts no mark (R6). -/
theorem State.marks_eq_zero {s : State} (h : s.profile.station.serves = false) : s.marks = 0 := by
  have hnone : ∀ slot, s.servedBy slot = none := fun slot => by simp [State.servedBy, State.serves, h]
  have : ∀ l : List Nat, l.foldl (fun (m : BitVec 128) slot =>
      if (s.servedBy slot).isSome then m ||| BitVec.ofNat 128 (2 ^ slot) else m) 0 = 0 := fun l => by
    induction l with
    | nil => rfl
    | cons slot l ih => rw [List.foldl_cons, hnone, if_neg (by decide), ih]
  exact this _

theorem getD_replicate_default {α : Type} (n i : Nat) (x : α) : (List.replicate n x).getD i x = x := by
  rw [List.getD_eq_getElem?_getD, List.getElem?_replicate]
  split <;> rfl

/-- Settles O15: RESET assertion leaves `resetWith` under the straps that stand. -/
theorem resetAssertion : Obligations.ResetAssertion := by
  unfold Obligations.ResetAssertion
  intro s
  have table : (assertReset s).table = tableFor s.profile.k s.profile.n := rfl
  refine ⟨assertReset s, rfl, rfl, rfl, rfl, rfl, rfl, rfl, rfl, rfl, rfl, rfl, rfl, rfl, rfl, rfl, rfl, rfl, rfl, rfl, rfl,
    rfl, fun slot => getD_replicate_default _ _ _, rfl, rfl, State.marks_eq_zero rfl, rfl, rfl, rfl, rfl, rfl, rfl, rfl,
    rfl, rfl, fun slot => ⟨getD_replicate_default _ _ _, getD_replicate_default _ _ _⟩, rfl, rfl, rfl, rfl, rfl, rfl,
    rfl, ?_, fun b hb => ?_, fun i => ?_, fun hn slot hs => ?_⟩
  · have placed : ∀ b < 264, ((assertReset s).tapBlock b).state = if b < 256 then .free else .spare := fun b hb => by
      rw [tapBlock_of_placement (faulty := 0) rfl hb]
      simp [placedState, idleBlock]
    rw [fifo_of_placement (s := assertReset s) (faulty := 0) rfl,
      List.filter_congr fun b hb => by rw [placed b (List.mem_range.1 hb)]]
    decide +kernel
  · rw [tapBlock_of_placement (faulty := 0) rfl hb]
    refine ⟨by simp [placedState, idleBlock], rfl, rfl, rfl, rfl, rfl, rfl⟩
  · exact atRest_of_tableFor table i
  · obtain ⟨home, other⟩ := lookup_of_tableFor table hn hs
    exact ⟨fun h => have ⟨i, hi, hl, hkind, hslot, _⟩ := home h; ⟨i, hi, hl, hkind, hslot⟩, other⟩

/-- Settles O16: the contexts and the directory are those of the straps as read. -/
theorem resetReleaseFixesContexts : Obligations.ResetReleaseFixesContexts := by
  unfold Obligations.ResetReleaseFixesContexts
  intro s station population tested hs
  have hn : 2 ≤ (releaseReset station population tested s).profile.n := by
    simp only [releaseReset]
    split <;> omega
  have zero : population.toNat = 0 ↔ population = 0 := by
    rw [← BitVec.toNat_inj]
    rfl
  refine ⟨releaseReset station population tested s, by rw [exec_eq_effect, Instr.effect_resetRelease, if_pos hs], rfl, rfl,
    rfl, rfl, ?_, ?_, fun b hb => ?_, fun slot hslot => lookup_of_tableFor rfl hn hslot, fun i hi hno => ?_⟩
  · simp only [releaseReset, zero]
  · simp only [releaseReset, zero, decide_eq_true_eq]
  · exact (memoryTest_getLsbD tested b).trans (by simp [hb])
  · have hhome : ¬(i < 64 ∧ i < homeCount (releaseReset station population tested s).profile.k
        (releaseReset station population tested s).profile.n) := fun h => by
      have hlt := home_slot_lt (Nat.lt_trans station.isLt (by decide)) h.2
      refine hno _ hlt ((directoryFor_getD hn (fun j hj => home_slot_lt (Nat.lt_trans station.isLt (by decide)) hj) _ i).2
        ⟨h.2, rfl⟩)
    have free : (releaseReset station population tested s).ctx i = freeGuest :=
      (ctx_of_tableFor (k := (releaseReset station population tested s).profile.k)
        (n := (releaseReset station population tested s).profile.n) rfl i).trans (if_neg hhome)
    rw [free]
    exact ⟨rfl, rfl, rfl⟩

/-- Settles O17: the blocks stand as `placement` puts them. -/
theorem testEndPlacesBlocks : Obligations.TestEndPlacesBlocks := by
  unfold Obligations.TestEndPlacesBlocks
  intro s hs hframes
  have due : testEndDue s = true := by simp [testEndDue, hs, Config.testFrames, hframes]
  have hpool : (endTest s).pool = placement s.pool.faulty := by
    unfold endTest
    dsimp only
    split <;> rfl
  refine ⟨endTest s, by rw [exec_eq_effect]; exact congrArg _ (if_pos due), ?_, fun b hb => ?_, fifo_of_placement hpool, by rw [hpool]; rfl, ?_⟩
  · unfold endTest
    dsimp only
    split <;> rfl
  · rw [tapBlock_of_placement hpool hb]
    exact ⟨rfl, rfl, rfl, rfl, rfl⟩
  · unfold endTest
    dsimp only
    split <;> exact ⟨rfl, rfl, rfl, rfl⟩

end Sys2Proof.Machine

namespace Sys2Proof.Machine

namespace PoolCounterexample

open Sys2Proof

/-! ## The laws of the pool are not inductive

The laws let a search be WAITING with blocks in its spare hand, which no rule brings about. Here context 2 waits so, with
blocks 41 and 42 and segment 15 alone left to explore, ahead of context 1, which tracks on block 40 and has one unfilled
segment. Two wrong bits fail block 40; the spare promoted goes to context 2, whose pass binds one block and gives up two.
The first fills context 1's unfilled segment; context 1 is still short of block 40 and stays in the queue, with nothing
that a second block could fill, so that one goes to the FIFO. From there it takes the place of block 40: context 1 holds
its want and waits on (R91, R93, R103). -/

/-- Block 40 on segment 0 of context 1, blocks 41 and 42 in the spare hand of context 2, every other one reserved. -/
def blockAt (b : Nat) : TapBlock :=
  if b = 40 then { idleBlock .assigned with owner := some ⟨1, 5⟩, segment := some 0, lastSegment := some 0 }
  else if b < 256 then { idleBlock .reserved with owner := some (if b = 41 ∨ b = 42 then ⟨2, 9⟩ else ⟨63, 127⟩) }
  else idleBlock .spare

/-- Slot 5 in TRACK with one segment bound and one unfilled. -/
def tracking : Context :=
  { homeContext 5 with
    callState := .track, serving := some (newServing 0 (defaultProfile 0) 5 true)
    search := some { newSearch 2 with map := [⟨0, .block 40⟩, ⟨1, .unfilled⟩] } }

/-- Slot 9 WAITING with two blocks in its spare hand. -/
def hoarding : Context :=
  { homeContext 9 with
    callState := .search, serving := some (newServing 0 (defaultProfile 0) 9 true)
    search := some { newSearch 8 with spare := [41, 42], explored := List.range 15 } }

/-- The station in RUN, with a sample of slot 5 that meets two wrong bits in block 40. -/
def before : State :=
  let s := State.resetWith 1 4 false
  { s with
    pending := [.sample 5 0x8A 0x8A [⟨40, 0, 2⟩]]
    highway := { s.highway with sync := .locked }
    profile := { s.profile with station := .run }
    table := { s.table with contexts := (s.table.contexts.set 1 tracking).set 2 hoarding }
    pool := { s.pool with blocks := (List.range 264).map blockAt, fifo := [], shortfall := [2, 1] } }

/-- The state the sample leaves. -/
def after : State := Instr.effect (.sample 5 0x8A 0x8A [⟨40, 0, 2⟩]) { before with pending := [] }

theorem before_poolSound : before.poolSound := State.poolSound_of_check (by decide +kernel)

theorem step_before : step before = .next after :=
  (stepTakesFrontCommand.1 before _ [] rfl).trans (exec_eq_effect _ _)

/-- Context 1 waits in TRACK without an unfilled segment. -/
theorem after_waits : 1 ∈ after.pool.shortfall ∧ (after.ctx 1).callState = .track
    ∧ (after.ctx 1).search.all (fun r => r.map.all fun e => e.fill != .unfilled) = true := by decide +kernel

theorem not_canTake {s : State} {h : Nat} (ht : (s.ctx h).callState = .track)
    (hr : (s.ctx h).search.all (fun r => r.map.all fun e => e.fill != .unfilled) = true) : ¬s.canTake h := by
  rintro (⟨hs, -⟩ | ⟨-, r, hsome, e, he, hfill⟩)
  · rw [ht] at hs
    cases hs
  · rw [hsome, Option.all_some, List.all_eq_true] at hr
    simpa [hfill] using hr e he

end PoolCounterexample

open PoolCounterexample in
/-- Refutes O7: after the sample of `PoolCounterexample.before` context 1 waits in the shortfall queue and can take no
block. -/
theorem not_stepKeepsPoolSound : ¬ Obligations.StepKeepsPoolSound := by
  unfold Obligations.StepKeepsPoolSound
  intro h
  obtain ⟨waits, track, filled⟩ := after_waits
  obtain ⟨-, -, -, -, -, -, -, -, -, takes, -⟩ := h before after before_poolSound step_before
  exact not_canTake track filled (takes 1 waits)

end Sys2Proof.Machine

namespace Sys2Proof.Machine

open Sys2Proof

/-! ## Frame sync (R14 to R16) -/

section Conditions

variable {s : State} {act : State → State} {due : State → Bool}

theorem unlessHeld_of_ne (h : s.profile.station ≠ .held) : unlessHeld act s = act s := if_neg h
theorem inRun_of_run (h : s.profile.station = .run) : inRun act s = act s := if_pos h
theorem inService_of_serves (h : s.profile.station.serves = true) : inService act s = act s := if_pos h
theorem ifDue_of_due (h : due s = true) : ifDue due act s = act s := if_pos h
theorem ifDue_of_not_due (h : due s = false) : ifDue due act s = s := if_neg (by rw [h]; decide)

end Conditions

/-! ### Locking -/

theorem endTest_highway (s : State) : (endTest s).highway = s.highway := by
  unfold endTest
  dsimp only
  split <;> rfl

theorem countTestFrame_highway (s : State) : (countTestFrame s).highway = s.highway := by
  unfold countTestFrame ifDue
  split
  · split
    · exact endTest_highway _
    · rfl
  · rfl

theorem lockFirst_highway (s : State) : (lockFirst s).highway = (lockInterface s).highway := by
  unfold lockFirst
  dsimp only
  split
  · rfl
  · exact countTestFrame_highway _

theorem lockFirst_of_unsynced {s : State} (h : s.profile.station = .unsynced) :
    lockFirst s = enterListen (lockInterface s) := if_pos h

theorem regain_highway (s : State) : (regain s).highway = (lockInterface s).highway := by
  rw [regain, State.notify_highway]
  rfl

/-- A notice that the mask lets through joins the queue. -/
theorem State.notify_of_mask {s : State} {kind : Nat} {fs : List Field} (h : maskBit s.profile.noticeMask kind = true) :
    s.notify kind fs = s.send (.notice (BitVec.ofNat 4 kind) (BitVec.ofNat 16 (packLeft 16 fs)) s.me) := if_pos h

/-- A pulse in HUNT that does not bring the spacing count to 8 changes the count and the clock alone (R14). -/
theorem syncPulse_counts {s : State} {clock spacing : Nat} (hunt : s.highway.sync = .hunt)
    (hcount : (if s.highway.lastPulse.elim false fun last => decide (last + Config.frameClocks = clock) then
      countUp Config.lockAt s.highway.spacing else 1) = spacing) (hlow : spacing < 8) :
    syncPulse clock s = { s with highway := { s.highway with spacing, lastPulse := some clock } } := by
  have notReached : lockReached { s with highway := { s.highway with spacing, lastPulse := some clock } } = false := by
    exact Bool.and_eq_false_iff.2 (.inr (decide_eq_false (Nat.not_le.2 hlow)))
  simp only [syncPulse, if_pos hunt, hcount]
  split
  · exact ifDue_of_not_due (by simp [regainDue, notReached])
  · exact ifDue_of_not_due (by simp [lockDue, notReached])

/-- The eighth spaced pulse locks, as a regain or as a first lock (R14, R16). -/
theorem syncPulse_locks {s : State} {clock : Nat} (hunt : s.highway.sync = .hunt) (hlast : s.highway.lastPulse = some clock)
    (hspacing : 7 ≤ s.highway.spacing) :
    syncPulse (clock + 1024) s =
      (let u := { s with highway := { s.highway with spacing := 8, lastPulse := some (clock + 1024) } }
       if lockIsRegain s then regain u else lockFirst u) := by
  have hcount : countUp Config.lockAt s.highway.spacing = 8 := by
    simp only [countUp, Config.lockAt]
    omega
  have reached : lockReached { s with highway := { s.highway with spacing := 8, lastPulse := some (clock + 1024) } } = true := by
    simp [lockReached, Config.lockAt, hunt]
  have regains : lockIsRegain { s with highway := { s.highway with spacing := 8, lastPulse := some (clock + 1024) } }
      = lockIsRegain s := rfl
  simp only [syncPulse, if_pos hunt, hlast, Option.elim_some, Config.frameClocks, decide_true, if_true, hcount, regains]
  split
  · next h => exact ifDue_of_due (by simp [regainDue, reached, regains, h])
  · next h => exact ifDue_of_due (by simp [lockDue, reached, regains, h])

/-- Settles O18: pulses by the count they reach, the lock by whether frames were lost, positions by the miss count. -/
theorem frameSyncAndTiming : Obligations.FrameSyncAndTiming := by
  unfold Obligations.FrameSyncAndTiming
  refine ⟨fun s clock hs => ?_, fun s hunt hspacing hs => ?_, fun s hs => ?_⟩
  · have pulse : exec (.frameSyncPulse clock) s = .next (syncPulse clock s) := congrArg _ (unlessHeld_of_ne hs)
    refine ⟨fun hl => ?_, fun hunt => ⟨fun hfar => ?_, fun hlast hclock hlow => ?_, fun hlast hclock hhigh => ?_⟩⟩
    · rw [pulse, syncPulse, if_neg (by rw [hl]; decide)]
    · have unspaced : (s.highway.lastPulse.elim false fun last => decide (last + Config.frameClocks = clock)) = false := by
        cases hp : s.highway.lastPulse with
        | none => rfl
        | some last =>
          have hne : last + 1024 ≠ clock := fun hc => by
            rcases hfar with hfar | hfar
            · exact hfar (by rw [hp, ← hc, Nat.add_sub_cancel])
            · omega
          exact decide_eq_false hne
      rw [pulse, syncPulse_counts (spacing := 1) hunt (by rw [unspaced]; rfl) (by decide)]
    · have spaced : (s.highway.lastPulse.elim false fun last => decide (last + Config.frameClocks = clock)) = true := by
        rw [hlast, Option.elim_some, decide_eq_true_eq, Config.frameClocks, Nat.sub_add_cancel hclock]
      have hcount : countUp Config.lockAt s.highway.spacing = s.highway.spacing + 1 := by
        simp only [countUp, Config.lockAt]
        omega
      rw [pulse, syncPulse_counts hunt (by rw [spaced, if_pos rfl, hcount]) (by omega)]
    · refine ⟨_, pulse, ?_⟩
      obtain ⟨last, rfl⟩ : ∃ last, clock = last + 1024 := ⟨clock - 1024, by omega⟩
      rw [Nat.add_sub_cancel] at hlast
      rw [syncPulse_locks hunt hlast hhigh]
      dsimp only
      split
      · rw [regain_highway]
        exact ⟨rfl, rfl, rfl, rfl, fun _ => by rw [regain, State.notify_profile]; rfl⟩
      · rw [lockFirst_highway]
        exact ⟨rfl, rfl, rfl, rfl, fun hun => by rw [lockFirst_of_unsynced (by exact hun)]; rfl⟩
  · have hheld : s.profile.station ≠ .held := by rw [hs]; decide
    have reached : lockReached s = true := by simp [lockReached, hunt, hspacing, Config.lockAt]
    refine ⟨fun hlost => ?_, fun hlost hmask hroom => ?_⟩
    · have due : lockDue s = true := by simp [lockDue, reached, lockIsRegain, hlost]
      refine ⟨lockFirst s, congrArg _ ((unlessHeld_of_ne hheld).trans (ifDue_of_due due)), ?_⟩
      rw [lockFirst_of_unsynced hs]
      exact ⟨rfl, rfl, rfl, rfl, rfl, rfl, rfl⟩
    · have due : regainDue s = true := by simp [regainDue, reached, lockIsRegain, hlost, hs]
      refine ⟨regain s, congrArg _ ((unlessHeld_of_ne hheld).trans (ifDue_of_due due)), ?_⟩
      have hjoin := (State.enqueue_of_room (enterListen (lockInterface s))
        ⟨.notice 8 (BitVec.ofNat 16 (packLeft 16 [(16, s.highway.framesLost)])) s.me, s.frame, none⟩ hroom).1
      have hnum : BitVec.ofNat 16 (packLeft 16 [(16, s.highway.framesLost)]) = BitVec.ofNat 16 s.highway.framesLost := by
        apply BitVec.eq_of_toNat_eq
        simp [packLeft, packed, widthOf]
      have hregain : regain s = (enterListen (lockInterface s)).send
          (.notice 8 (BitVec.ofNat 16 (packLeft 16 [(16, s.highway.framesLost)])) s.me) := State.notify_of_mask hmask
      rw [hregain]
      exact ⟨rfl, rfl, rfl, rfl, hjoin.trans (by rw [hnum]; rfl), rfl, rfl⟩
  · have check : ∀ pulse, exec (.expectedPositionCheck pulse) s = .next (checkPosition pulse s) := fun pulse =>
      congrArg _ (unlessHeld_of_ne hs)
    refine ⟨fun hl => ⟨?_, fun hmiss => ?_, fun hmiss => ?_⟩, fun hunt hlost htest => ?_⟩
    · rw [check, checkPosition, if_pos hl, ifDue_of_not_due (by simp [syncLossDue])]
      rfl
    · rw [check, checkPosition, if_pos hl, ifDue_of_not_due (by simp [syncLossDue, hmiss, countUp]), hmiss]
      rfl
    · refine ⟨_, check false, ?_⟩
      have htwo : countUp 2 s.highway.miss = 2 := by simp only [countUp]; omega
      rw [checkPosition, if_pos hl, ifDue_of_due (by simp [syncLossDue, hl, htwo])]
      exact ⟨rfl, rfl, rfl⟩
    · have hperiod : exec .huntPeriod s = .next (huntPeriodEnds s) := congrArg _ (unlessHeld_of_ne hs)
      rw [hperiod, huntPeriodEnds, if_pos hunt, if_neg hlost, countTestFrame, if_neg (by simpa using htest)]
      rfl

end Sys2Proof.Machine

namespace Sys2Proof.Machine

open Sys2Proof

/-! ## Tap blocks by what they hold, and the pool at sync loss (R113) -/

/-! ### Blocks that satisfy a test -/

/-- The blocks that satisfy a test, in ascending number. -/
def State.blocksWhere (s : State) (p : TapBlock → Bool) : List Nat :=
  (List.range s.pool.blocks.length).filter fun b => p (s.tapBlock b)

theorem State.indicesFrom_blocks (s : State) (p : TapBlock → Bool) : indicesFrom p 0 s.pool.blocks = s.blocksWhere p := by
  rw [indicesFrom_eq_filter, State.blocksWhere, List.range_eq_range']
  refine List.filter_congr fun b hb => ?_
  have hb : b < s.pool.blocks.length := by simpa using List.mem_range'_1.1 hb
  simp [State.tapBlock, List.getD_eq_getElem?_getD, hb]

theorem State.mem_blocksWhere {s : State} {p : TapBlock → Bool} {b : Nat} :
    b ∈ s.blocksWhere p ↔ b < s.pool.blocks.length ∧ p (s.tapBlock b) = true := by simp [State.blocksWhere]

theorem State.blocksWhere_nodup (s : State) (p : TapBlock → Bool) : (s.blocksWhere p).Nodup := List.nodup_range.filter _

theorem State.blocksWhere_sorted (s : State) (p : TapBlock → Bool) : (s.blocksWhere p).Pairwise (· < ·) :=
  List.pairwise_lt_range.sublist List.filter_sublist

theorem State.countBlocks_eq (s : State) (st : BlockState) :
    s.countBlocks st = (s.blocksWhere fun t => t.state == st).length := by
  have hread : s.pool.blocks = (List.range s.pool.blocks.length).map s.tapBlock := by
    refine List.ext_getElem (by simp) fun b hb _ => ?_
    simp [State.tapBlock, List.getD_eq_getElem?_getD, hb]
  rw [State.countBlocks, hread, List.filter_map, List.length_map]
  simp [State.blocksWhere, Function.comp_def]

section
variable {s t : State} {p : TapBlock → Bool} (hlen : t.pool.blocks.length = s.pool.blocks.length)
include hlen

theorem State.blocksWhere_congr (h : ∀ b < s.pool.blocks.length, p (t.tapBlock b) = p (s.tapBlock b)) :
    t.blocksWhere p = s.blocksWhere p := by
  rw [State.blocksWhere, State.blocksWhere, hlen]
  exact List.filter_congr fun b hb => h b (List.mem_range.1 hb)

/-- A block that no longer satisfies the test leaves the list. -/
theorem State.blocksWhere_erase {x : Nat} (h : ∀ b ≠ x, p (t.tapBlock b) = p (s.tapBlock b))
    (hx : p (t.tapBlock x) = false) : t.blocksWhere p = (s.blocksWhere p).erase x := by
  rw [(s.blocksWhere_nodup p).erase_eq_filter, State.blocksWhere, State.blocksWhere, hlen, List.filter_filter]
  refine List.filter_congr fun b _ => ?_
  by_cases hb : b = x
  · simp [hb, hx]
  · simp [hb, h b hb]

end

/-! ### A block freed or failed -/

/-- A block at the FIFO tail (R103). -/
def TapBlock.freed (t : TapBlock) : TapBlock :=
  { t with state := .free, owner := none, segment := none, lastSegment := none }

/-- A block failed with its corrected count as it stood (R108 to R110). -/
def TapBlock.retired (t : TapBlock) : TapBlock :=
  { t with state := .failed, segment := t.lastSegment, retirePending := false }

theorem State.tapBlock_freeBlock (s : State) (b k : Nat) :
    (s.freeBlock b).tapBlock k = if b = k ∧ b < s.pool.blocks.length then (s.tapBlock b).freed else s.tapBlock k :=
  State.tapBlock_modBlock s b k TapBlock.freed

theorem State.tapBlock_failBlock (s : State) (b k : Nat) :
    (s.failBlock b (s.tapBlock b).corrected).tapBlock k
      = if b = k ∧ b < s.pool.blocks.length then (s.tapBlock b).retired else s.tapBlock k :=
  State.tapBlock_modBlock s b k fun t => { t.retired with corrected := (s.tapBlock b).corrected }

/-- Blocks freed one after another. -/
theorem State.foldl_freeBlock (l : List Nat) (s : State) :
    (l.foldl (fun s b => s.freeBlock b) s).pool.fifo = s.pool.fifo ++ l
      ∧ (l.foldl (fun s b => s.freeBlock b) s).pool.blocks.length = s.pool.blocks.length
      ∧ ∀ k, (l.foldl (fun s b => s.freeBlock b) s).tapBlock k
          = if k ∈ l ∧ k < s.pool.blocks.length then (s.tapBlock k).freed else s.tapBlock k := by
  induction l generalizing s with
  | nil => simp
  | cons b l ih =>
    obtain ⟨hfifo, hlen, hread⟩ := ih (s.freeBlock b)
    refine ⟨by simpa [State.freeBlock_fifo] using hfifo, by simpa using hlen, fun k => ?_⟩
    rw [List.foldl_cons, hread, State.freeBlock_length, State.tapBlock_freeBlock]
    by_cases hbk : b = k
    · subst hbk
      by_cases hb : b < s.pool.blocks.length <;> simp [hb, TapBlock.freed]
    · simp [hbk, Ne.symm hbk]

/-! ### Sync loss -/

/-- A marked block fails and the lowest SPARE block takes its place in service (R113). -/
def failOne (s : State) (b : Nat) : State :=
  match indicesFrom (fun b => b.state == .spare) 0 (s.failBlock b (s.tapBlock b).corrected).pool.blocks with
  | [] => s.failBlock b (s.tapBlock b).corrected
  | p :: _ => (s.failBlock b (s.tapBlock b).corrected).freeBlock p

theorem failMarked_eq (s : State) :
    failMarked s = (s.blocksWhere fun t => t.retirePending).foldl failOne s := by
  rw [← State.indicesFrom_blocks]
  rfl

/-- The SPARE blocks, in ascending number. -/
def State.spares (s : State) : List Nat := s.blocksWhere fun t => t.state == .spare

theorem failOne_spares {s : State} {b : Nat} (hb : (s.tapBlock b).state ≠ .spare) :
    (failOne s b).spares = s.spares.drop 1 ∧ (failOne s b).pool.fifo = s.pool.fifo ++ s.spares.take 1
      ∧ (failOne s b).pool.blocks.length = s.pool.blocks.length
      ∧ ∀ k, (failOne s b).tapBlock k =
          if b = k ∧ b < s.pool.blocks.length then (s.tapBlock b).retired
          else if k ∈ s.spares.take 1 then (s.tapBlock k).freed else s.tapBlock k := by
  have hsame : (s.failBlock b (s.tapBlock b).corrected).spares = s.spares := by
    refine State.blocksWhere_congr (by simp) fun k _ => ?_
    rw [State.tapBlock_failBlock]
    split
    · next hk =>
      rw [← hk.1]
      simpa [TapBlock.retired] using hb
    · rfl
  unfold failOne
  rw [State.indicesFrom_blocks, ← State.spares, hsame]
  cases hsp : s.spares with
  | nil => exact ⟨by rw [hsame, hsp]; rfl, by simp [State.failBlock], by simp, fun k => by simp [State.tapBlock_failBlock]⟩
  | cons p rest =>
    obtain ⟨hp, hspare⟩ := State.mem_blocksWhere.1 (show p ∈ s.spares by simp [hsp])
    rw [beq_iff_eq] at hspare
    have hbp : b ≠ p := fun h => hb (h ▸ hspare)
    refine ⟨?_, by simp [State.freeBlock_fifo, State.failBlock], by simp, fun k => ?_⟩
    · have herase : ((s.failBlock b (s.tapBlock b).corrected).freeBlock p).spares
          = (s.failBlock b (s.tapBlock b).corrected).spares.erase p := by
        refine State.blocksWhere_erase (by simp) (fun k hk => ?_) ?_
        · rw [State.tapBlock_freeBlock, if_neg fun h => hk h.1.symm]
        · simp [State.tapBlock_freeBlock, hp, TapBlock.freed]
      rw [herase, hsame, hsp]
      simp
    · have hfp : (s.failBlock b (s.tapBlock b).corrected).tapBlock p = s.tapBlock p := by
        rw [State.tapBlock_failBlock, if_neg fun h => hbp h.1]
      rw [State.tapBlock_freeBlock, State.failBlock_length]
      by_cases hpk : p = k
      · subst hpk
        rw [if_pos ⟨rfl, hp⟩, hfp, if_neg fun h => hbp h.1, if_pos (by simp)]
      · rw [if_neg fun h => hpk h.1, State.tapBlock_failBlock]
        simp [Ne.symm hpk]

/-- Marked blocks fail in their order, each followed by the promotion of the lowest SPARE block (R113). -/
theorem foldl_failOne {l : List Nat} {s : State} (hl : l.Nodup)
    (hspare : ∀ b ∈ l, b < s.pool.blocks.length ∧ (s.tapBlock b).state ≠ .spare) :
    (l.foldl failOne s).pool.fifo = s.pool.fifo ++ s.spares.take l.length
      ∧ (l.foldl failOne s).pool.blocks.length = s.pool.blocks.length
      ∧ ∀ k, (l.foldl failOne s).tapBlock k =
          if k ∈ l then (s.tapBlock k).retired
          else if k ∈ s.spares.take l.length then (s.tapBlock k).freed else s.tapBlock k := by
  induction l generalizing s with
  | nil => simp
  | cons b l ih =>
    obtain ⟨hbl, hl⟩ := List.nodup_cons.1 hl
    obtain ⟨hblen, hb⟩ := hspare b (by simp)
    obtain ⟨hsp, hfifo, hlen, hread⟩ := failOne_spares hb
    have notSpare : ∀ k ∈ b :: l, k ∉ s.spares := fun k hk h =>
      (hspare k hk).2 (by simpa using (State.mem_blocksWhere.1 h).2)
    have kept : ∀ k ∈ l, (failOne s b).tapBlock k = s.tapBlock k := fun k hk => by
      have hne : b ≠ k := fun h => hbl (h ▸ hk)
      have hnot : k ∉ s.spares.take 1 := fun h => notSpare k (by simp [hk]) (List.mem_of_mem_take h)
      rw [hread, if_neg fun h => hne h.1, if_neg hnot]
    obtain ⟨hfifo', hlen', hread'⟩ := ih hl (s := failOne s b) fun k hk => by
      rw [hlen, kept k hk]
      exact hspare k (by simp [hk])
    have htake : s.spares.take 1 ++ (s.spares.drop 1).take l.length = s.spares.take (l.length + 1) := by
      rw [Nat.add_comm, List.take_add]
    refine ⟨by rw [List.foldl_cons, hfifo', hfifo, hsp, List.append_assoc, htake]; rfl, hlen'.trans hlen, fun k => ?_⟩
    rw [List.foldl_cons, hread', hsp, List.length_cons, ← htake]
    by_cases hk : k ∈ l
    · rw [if_pos hk, if_pos (by simp [hk]), kept k hk]
    · rw [if_neg hk]
      by_cases hbk : b = k
      · subst hbk
        have hnot : b ∉ (s.spares.drop 1).take l.length := fun h =>
          notSpare b (by simp) (List.mem_of_mem_drop (List.mem_of_mem_take h))
        rw [if_neg hnot, if_pos (by simp), hread, if_pos ⟨rfl, hblen⟩]
      · have hkl : k ∉ b :: l := by simp [hk, Ne.symm hbk]
        have hnd : s.spares.Nodup := s.blocksWhere_nodup _
        have hfirst : (failOne s b).tapBlock k = if k ∈ s.spares.take 1 then (s.tapBlock k).freed else s.tapBlock k := by
          rw [hread, if_neg fun h => hbk h.1]
        rw [if_neg hkl, hfirst]
        by_cases hk1 : k ∈ s.spares.take 1
        · have hrest : k ∉ (s.spares.drop 1).take l.length := fun h =>
            List.disjoint_take_drop hnd (Nat.le_refl 1) hk1 (List.mem_of_mem_take h)
          rw [if_neg hrest, if_pos hk1, if_pos (by simp [hk1])]
        · rw [if_neg hk1]
          simp [hk1]

end Sys2Proof.Machine

namespace Sys2Proof.Machine

open Sys2Proof

/-! ### What sync loss leaves (R15, R20, R113, R154) -/

/-- The station with an empty shortfall queue. -/
def State.unqueued (s : State) : State := { s with pool := { s.pool with shortfall := [] } }

/-- The pool after sync loss: marked blocks failed, as many SPARE blocks promoted, held blocks released (R113). -/
theorem poolSyncLoss_pool {s : State}
    (hmark : ∀ b, (s.tapBlock b).retirePending = true → (s.tapBlock b).state = .assigned ∨ (s.tapBlock b).state = .reserved) :
    let marked := s.blocksWhere fun t => t.retirePending
    let held := s.blocksWhere fun t => !t.retirePending && (t.state == .assigned || t.state == .reserved)
    let promoted := s.spares.take marked.length
    (poolSyncLoss s).pool.fifo = s.pool.fifo ++ promoted ++ held
      ∧ ∀ b, (poolSyncLoss s).tapBlock b = if b ∈ marked then (s.tapBlock b).retired
          else if b ∈ promoted ∨ b ∈ held then (s.tapBlock b).freed else s.tapBlock b := by
  intro marked held promoted
  have notSpare : ∀ b ∈ marked, b < s.pool.blocks.length ∧ (s.tapBlock b).state ≠ .spare := fun b hb => by
    obtain ⟨hlt, hm⟩ := State.mem_blocksWhere.1 hb
    refine ⟨hlt, fun hs => ?_⟩
    rcases hmark b hm with h | h <;> rw [hs] at h <;> cases h
  have hfail := foldl_failOne (s := s.unqueued) (s.blocksWhere_nodup _) notSpare
  have heq : failMarked s.unqueued
      = marked.foldl failOne s.unqueued := failMarked_eq _
  obtain ⟨hfifo, hlen, hread⟩ := hfail
  rw [← heq] at hfifo hlen hread
  have hread : ∀ b, (failMarked s.unqueued).tapBlock b
      = if b ∈ marked then (s.tapBlock b).retired else if b ∈ promoted then (s.tapBlock b).freed else s.tapBlock b := hread
  have hheld : (failMarked s.unqueued).blocksWhere
      (fun t => t.state == .assigned || t.state == .reserved) = held := by
    rw [State.blocksWhere, hlen]
    refine List.filter_congr fun b hb => ?_
    rw [hread]
    split
    · next hm => simp [TapBlock.retired, (State.mem_blocksWhere.1 hm).2]
    · next hm =>
      have hm : (s.tapBlock b).retirePending = false := by
        by_contra h
        exact hm (State.mem_blocksWhere.2 ⟨List.mem_range.1 hb, by simpa using h⟩)
      split
      · next hp =>
        have : (s.tapBlock b).state = .spare := by simpa using (State.mem_blocksWhere.1 (List.mem_of_mem_take hp)).2
        simp only [this, hm]
        rfl
      · simp [hm]
  obtain ⟨hfifo', -, hread'⟩ := State.foldl_freeBlock held (failMarked s.unqueued)
  have hloss : poolSyncLoss s = held.foldl (fun s b => s.freeBlock b)
      (failMarked s.unqueued) := by
    rw [← hheld, ← State.indicesFrom_blocks]
    rfl
  rw [hloss, hfifo', hfifo]
  refine ⟨rfl, fun b => ?_⟩
  rw [hread', hlen, hread]
  by_cases hh : b ∈ held
  · obtain ⟨hlt, hp⟩ := State.mem_blocksWhere.1 hh
    have hnm : b ∉ marked := fun hm => by simp [(State.mem_blocksWhere.1 hm).2] at hp
    have hnp : b ∉ promoted := fun hpr => by
      have : (s.tapBlock b).state = .spare := by simpa using (State.mem_blocksWhere.1 (List.mem_of_mem_take hpr)).2
      simp [this] at hp
    rw [if_pos ⟨hh, hlt⟩, if_neg hnm, if_neg hnp, if_neg hnm, if_pos (.inr hh)]
  · rw [if_neg fun h => hh h.1]
    simp [hh]

/-- After sync loss no block is held (R113). -/
theorem poolSyncLoss_unheld {s : State} {t : TapBlock} (ht : t ∈ (poolSyncLoss s).pool.blocks) :
    t.state ≠ .assigned ∧ t.state ≠ .reserved := by
  obtain ⟨b, hb, rfl⟩ := List.mem_iff_getElem.1 ht
  have hblock : (poolSyncLoss s).pool.blocks[b] = (poolSyncLoss s).tapBlock b := by
    simp [State.tapBlock, List.getD_eq_getElem?_getD, hb]
  rw [hblock]
  generalize hu : failMarked s.unqueued = u
  have hloss : poolSyncLoss s = (u.blocksWhere fun t => t.state == .assigned || t.state == .reserved).foldl
      (fun s b => s.freeBlock b) u := by rw [← State.indicesFrom_blocks, ← hu]; rfl
  obtain ⟨-, hlen, hread⟩ := State.foldl_freeBlock (u.blocksWhere fun t => t.state == .assigned || t.state == .reserved) u
  rw [← hloss] at hlen hread
  rw [hread]
  split
  · exact ⟨nofun, nofun⟩
  · next h =>
    have : ¬(u.tapBlock b).state = .assigned ∧ ¬(u.tapBlock b).state = .reserved := by
      simpa [State.mem_blocksWhere, hlen ▸ hb] using h
    exact this

theorem poolSyncLoss_fields (s : State) : (poolSyncLoss s).pool.shortfall = [] ∧ (poolSyncLoss s).highway = s.highway
    ∧ (poolSyncLoss s).profile = s.profile ∧ (poolSyncLoss s).lane = s.lane
    ∧ (poolSyncLoss s).table.contexts = s.table.contexts := by
  have keep {α : Type} (f : State → α) (hf : ∀ (s : State) b, f (s.freeBlock b) = f s)
      (hf' : ∀ (s : State) b n, f (s.failBlock b n) = f s) : f (poolSyncLoss s) = f s.unqueued := by
    have free : ∀ (l : List Nat) (u : State), f (l.foldl (fun s b => s.freeBlock b) u) = f u := fun l => by
      induction l with
      | nil => exact fun _ => rfl
      | cons b l ih => exact fun u => (ih _).trans (hf u b)
    have fail : ∀ (l : List Nat) (u : State), f (l.foldl failOne u) = f u := fun l => by
      induction l with
      | nil => exact fun _ => rfl
      | cons b l ih =>
        refine fun u => (ih _).trans ?_
        unfold failOne
        split
        · exact hf' u b _
        · exact (hf _ _).trans (hf' u b _)
    exact (free _ _).trans ((congrArg f (failMarked_eq _)).trans (fail _ _))
  exact ⟨keep (·.pool.shortfall) (fun _ _ => rfl) fun _ _ _ => rfl, keep (·.highway) (fun _ _ => rfl) fun _ _ _ => rfl,
    keep (·.profile) (fun _ _ => rfl) fun _ _ _ => rfl, keep (·.lane) (fun _ _ => rfl) fun _ _ _ => rfl,
    keep (·.table.contexts) (fun _ _ => rfl) fun _ _ _ => rfl⟩

theorem loseSync_ctx (s : State) (i : Nat) : (loseSync s).ctx i = contextSyncLoss (s.ctx i) := by
  obtain ⟨-, -, -, -, hctx⟩ := poolSyncLoss_fields s
  have hread : (poolSyncLoss s).ctx i = s.ctx i := by rw [State.ctx, hctx]; rfl
  exact (State.Steady.ctx_map_contextSyncLoss (poolSyncLoss s) i).trans (by rw [hread])

theorem contextSyncLoss_eq (c : Context) : contextSyncLoss c = match c.kind with
    | .guest => freeGuest
    | .home =>
      { c with role := .homeServing, server := none, offer := none, reservation := none, reclaim := none, stopAt := none,
               grantee := none, startAt := none, toneHold := false, pendingReturn := false, callState := .notServing,
               serving := none, search := none } := rfl

/-- Settles O19: the pool by `poolSyncLoss_pool`, the contexts one by one. -/
theorem syncLossClearsStation : Obligations.SyncLossClearsStation := by
  unfold Obligations.SyncLossClearsStation
  intro s hsync hmiss hs
  have due : syncLossDue s = true := by simp [syncLossDue, hsync, hmiss]
  obtain ⟨hshort, hhw, hprofile, hlane, -⟩ := poolSyncLoss_fields s
  refine ⟨loseSync s, congrArg _ ((unlessHeld_of_ne hs).trans (ifDue_of_due due)), rfl, rfl, rfl, rfl,
    fun slot => getD_replicate_default _ _ _, ?_, ?_, ?_, rfl, ?_, ?_, ?_, rfl, rfl, ?_, ?_, ?_, ?_, hshort,
    fun b hb => poolSyncLoss_unheld hb, fun hsound => ?_,
    fun slot => ⟨getD_replicate_default _ _ _, getD_replicate_default _ _ _⟩, fun i => ?_⟩
  · exact congrArg (·.idleCodes) hhw
  · exact congrArg (·.idleCount) hhw
  · simp only [loseSync, hprofile]
  · exact congrArg (·.profiles) hprofile
  · exact congrArg (·.runReached) hprofile
  · exact congrArg (·.noticeMask) hprofile
  · exact congrArg (·.discards) hlane
  · exact congrArg (·.drops) hlane
  · exact congrArg (·.clashes) hlane
  · exact congrArg (·.surplus) hlane
  · obtain ⟨-, hlen, -, -, -, hmark, -⟩ := hsound
    obtain ⟨hfifo, hread⟩ := poolSyncLoss_pool hmark
    simp only [State.spares, State.blocksWhere, hlen] at hfifo hread
    refine ⟨hfifo, fun b hb => ?_, fun b hb => ?_, fun b hb => ?_⟩
    · exact (hread b).trans (if_pos hb)
    · have hnm : b ∉ (List.range 264).filter fun b => (s.tapBlock b).retirePending := fun hm => by
        have hr := (List.mem_filter.1 hm).2
        rcases List.mem_append.1 hb with h | h
        · have hsp : (s.tapBlock b).state = .spare := by simpa using (List.mem_filter.1 (List.mem_of_mem_take h)).2
          rcases hmark b hr with h' | h' <;> rw [hsp] at h' <;> cases h'
        · simp [hr] at h
      have : (loseSync s).tapBlock b = (s.tapBlock b).freed :=
        (hread b).trans ((if_neg hnm).trans (if_pos (List.mem_append.1 hb)))
      rw [this]
      exact ⟨rfl, rfl, rfl, rfl⟩
    · simp only [List.mem_append, not_or] at hb
      exact (hread b).trans ((if_neg hb.1.1).trans (if_neg (not_or.2 ⟨hb.1.2, hb.2⟩)))
  · rw [loseSync_ctx, contextSyncLoss_eq]
    cases hk : (s.ctx i).kind
    · exact ⟨rfl, rfl, rfl, rfl, rfl, rfl, nofun, fun _ => ⟨rfl, rfl, rfl, rfl, rfl, rfl, rfl, rfl, rfl⟩⟩
    · exact ⟨rfl, rfl, rfl, rfl, rfl, rfl, fun _ => rfl, nofun⟩

end Sys2Proof.Machine

namespace Sys2Proof.Machine

open Sys2Proof

/-! ## Acts on the serving context of a slot -/

/-- A context with serving parts stands in the table. -/
theorem State.lt_of_serving {s : State} {i : Nat} {sv : Serving} (h : (s.ctx i).serving = some sv) :
    i < s.table.contexts.length := Nat.lt_of_not_le fun hge => by
  rw [State.ctx_ge s i hge] at h
  cases h

/-- A change of the serving parts, written out. -/
theorem State.modServing_of_some {s : State} {i : Nat} {sv : Serving} (h : (s.ctx i).serving = some sv)
    (f : Serving → Serving) : s.modServing i f = s.setCtx i { s.ctx i with serving := some (f sv) } := by
  rw [State.modServing, State.modCtx, h, Option.map_some]

section Served

variable {s : State} {slot i : Nat} {sv : Serving}

theorem State.servesWith.serves (h : s.servesWith slot i sv) : s.serves i = true := by
  simp [State.serves, h.1, h.2.2.1, h.2.2.2]

theorem State.servesWith.servedBy (h : s.servesWith slot i sv) : s.servedBy slot = some i := by
  rw [State.servedBy, h.2.1, Option.filter_some, if_pos h.serves]

theorem State.servesWith.lt (h : s.servesWith slot i sv) : i < s.table.contexts.length := State.lt_of_serving h.2.2.2

theorem State.servesWith.ne_held (h : s.servesWith slot i sv) : s.profile.station ≠ .held := fun hc => by
  have := h.1
  rw [hc] at this
  cases this

theorem State.servesWith.onServed (h : s.servesWith slot i sv) (act : Nat → State → State) :
    onServed slot act s = act i s := by rw [Machine.onServed, h.servedBy]

variable {due : Context → Serving → Bool} {act : Nat → State → State}

theorem whenDue_of_due (hsv : (s.ctx i).serving = some sv) (hdue : due (s.ctx i) sv = true) : whenDue due act i s = act i s := by
  rw [whenDue, hsv]
  exact if_pos hdue

theorem whenDue_of_not_due (hsv : (s.ctx i).serving = some sv) (hdue : due (s.ctx i) sv = false) : whenDue due act i s = s := by
  rw [whenDue, hsv]
  exact if_neg (by rw [hdue]; decide)

end Served

/-- Settles O33: each event is one change of the serving parts, taken when it is due. -/
theorem hangoverAndToneHoldEvents : Obligations.HangoverAndToneHoldEvents := by
  unfold Obligations.HangoverAndToneHoldEvents
  intro s slot i sv h
  have hsv := h.2.2.2
  have hlt := h.lt
  refine ⟨fun hflag hhang => ?_, fun hproc hnlp hlong hbound => ?_, fun hproc hqual hhold => ?_, fun hproc hhold hrecv hsend => ?_⟩
  · have due : exec (.dtHangoverEnd slot) s = .next (clearDtFlag i s) :=
      congrArg _ ((h.onServed _).trans (whenDue_of_due hsv (by simp [hflag, hhang])))
    rw [due, clearDtFlag, State.modServing_of_some hsv]
  · have expired : nlpHangover ((s.boundOf i).map (·.1)) ≤ sv.inactive :=
      (Laws.nlpHangover_le _ _).2 ⟨hlong, fun j hj => by
        obtain ⟨jb, hjb, rfl⟩ := List.mem_map.1 hj
        exact hbound jb hjb⟩
    have due : exec (.nlpHangoverExpiry slot) s = .next (openNlp i s) :=
      congrArg _ ((h.onServed fun i => whenDue (nlpExpired s i) openNlp i).trans (whenDue_of_due (due := nlpExpired s i) (act := openNlp) hsv
        (by simp [nlpExpired, hproc, hnlp, expired])))
    rw [due, openNlp, State.modServing_of_some hsv]
  · have due : toneHoldDue (s.ctx i) sv = true := by
      rcases hqual with hq | hq <;> simp [toneHoldDue, hproc, hhold, hq]
    refine ⟨setToneHold i s, congrArg _ ((h.onServed _).trans (whenDue_of_due hsv due)), ?_, fun k hk => ?_, rfl, rfl,
      by simp [setToneHold]⟩
    · rw [setToneHold, State.ctx_modServing_self _ _ _ (by simpa using hlt), State.ctx_modCtx_self _ _ _ hlt, hsv]
      rfl
    · rw [setToneHold, State.ctx_modServing_ne _ _ _ _ hk.symm, State.ctx_modCtx_ne _ _ _ _ hk.symm]
  · have due : toneHoldReleaseDue (s.ctx i) sv = true := by
      simp [toneHoldReleaseDue, releaseCondition, hproc, hhold, hrecv, hsend]
    refine ⟨releaseToneHold i s, congrArg _ ((h.onServed _).trans (whenDue_of_due hsv due)), ?_, fun k hk => ?_, rfl, rfl,
      by simp [releaseToneHold, clearTone]⟩
    · rw [releaseToneHold, clearTone, State.ctx_modServing_self _ _ _ (by simpa using hlt), State.ctx_modCtx_self _ _ _ hlt,
        hsv]
      rfl
    · rw [releaseToneHold, clearTone, State.ctx_modServing_ne _ _ _ _ hk.symm, State.ctx_modCtx_ne _ _ _ _ hk.symm]

end Sys2Proof.Machine

namespace Sys2Proof.Machine

open Sys2Proof

/-! ## Orphans, offers and their ends (R161, R167, R168) -/

/-! ### Queueing with room -/

/-- With room in the queue a message joins it and nothing else changes (R150). -/
theorem State.enqueue_eq_of_room {s : State} {e : Entry} (h : s.lane.queue.length < 16) :
    s.enqueue e = ({ s with lane := { s.lane with
      queue := insertEntry e s.lane.queue, drops := min 65535 s.lane.drops } }, true) := by
  have hjoin : joinQueueWith e s.lane.queue = (insertEntry e s.lane.queue, true, 0) := if_pos h
  rw [State.enqueue, hjoin]
  rfl

theorem State.send_of_room {s : State} {m : Msg} (h : s.lane.queue.length < 16) :
    s.send m = { s with lane := { s.lane with
      queue := insertEntry ⟨m, s.frame, none⟩ s.lane.queue, drops := min 65535 s.lane.drops } } := by
  rw [State.send, State.enqueue_eq_of_room h]

/-- A notice in a queue with room, subject to the mask (R181, R182). -/
theorem State.notify_queue {s : State} {kind : Nat} {fs : List Field} (h : s.lane.queue.length < 16) :
    (s.notify kind fs).lane.queue = if maskBit s.profile.noticeMask kind = true then
        insertEntry ⟨.notice (BitVec.ofNat 4 kind) (BitVec.ofNat 16 (packLeft 16 fs)) s.me, s.frame, none⟩ s.lane.queue
      else s.lane.queue := by
  unfold State.notify
  split
  · rw [State.send_of_room h]
  · rfl

/-- What stands in the queue after a message was to join it is that message or stood there before (R151). -/
theorem mem_of_mem_joinQueueWith {e x : Entry} {q : List Entry} (h : x ∈ (joinQueueWith e q).1) : x = e ∨ x ∈ q := by
  have removed : ∀ rank, x ∈ insertEntry e (removeNewest rank q) → x = e ∨ x ∈ q := fun rank hx =>
    ((mem_insertEntry _ _ _).1 hx).imp_right fun hx => (removeNewest_sublist rank q).mem hx
  obtain ⟨-, hj⟩ | ⟨-, -, -, hj⟩ | ⟨-, -, -, -, hj⟩ | ⟨-, hj⟩ := joinQueueWith_cases e q <;> rw [hj] at h
  · exact (mem_insertEntry _ _ _).1 h
  · exact removed 3 h
  · exact removed 4 h
  · exact .inr h

theorem State.mem_of_mem_notify {s : State} {kind : Nat} {fs : List Field} {x : Entry}
    (h : x ∈ (s.notify kind fs).lane.queue) : x.msg.kind = 3 ∨ x ∈ s.lane.queue := by
  unfold State.notify at h
  split at h
  · exact (mem_of_mem_joinQueueWith h).imp_left fun hx => by rw [hx]; rfl
  · exact .inr h

theorem Entry.kind_of_isGrant {slot : Nat} {e : Entry} (h : e.isGrant slot = true) : e.msg.kind = 13 := by
  unfold Entry.isGrant at h
  split at h
  · next hm => rw [hm]; rfl
  · cases h

theorem ofNat_slot (slot : BitVec 7) : BitVec.ofNat 7 slot.toNat = slot := by simp

/-! ### A serving start without an offer -/

section ServingStart

variable (i : Nat) (s : State)

/-- The parts of a serving start with call-present clear (R23). -/
def startedParts : Serving := newServing (s.ctx i).profile (s.profileAt (s.ctx i).profile) (s.slotOf i) false

theorem servingStart_none_ctx (hi : i < s.table.contexts.length) : (servingStart i none s).ctx i =
    { s.ctx i with
      serving := some (startedParts i s), search := none, toneHold := false
      callState := if (s.ctx i).transparent || s.profile.station != .run then .bypass else .idle } := by
  have hread : ∀ k, (s.clearPipeline (s.slotOf i)).ctx k = s.ctx k := fun _ => rfl
  unfold servingStart
  dsimp only
  rw [State.ctx_modCtx_self _ _ _ (by simpa using hi), State.ctx_modCtx_self _ _ _ (by simpa using hi), hread]
  rfl

theorem servingStart_none_ctx_ne {k : Nat} (h : k ≠ i) : (servingStart i none s).ctx k = s.ctx k := by
  unfold servingStart
  dsimp only
  rw [State.ctx_modCtx_ne _ _ _ _ h.symm, State.ctx_modCtx_ne _ _ _ _ h.symm]
  rfl

theorem servingStart_none_fields : (servingStart i none s).pool = s.pool ∧ (servingStart i none s).lane = s.lane
    ∧ (servingStart i none s).share = s.share ∧ (servingStart i none s).profile = s.profile
    ∧ (servingStart i none s).frame = s.frame
    ∧ (servingStart i none s).table.directory = s.table.directory := ⟨rfl, rfl, rfl, rfl, rfl, rfl⟩

end ServingStart

/-! ### Orphans -/

/-- The station with no ADOPT carried for a slot. -/
def State.unadopting (s : State) (slot : Nat) : State :=
  { s with share := { s.share with adopting := s.share.adopting.filter (·.1 != slot) } }

/-- A context of slot `slot` in ACTING-HOME, in the guest context i (R168). -/
def State.actingHome (s : State) (slot i : Nat) : State :=
  (s.setDirectory slot (some i)).setCtx i { freeGuest with slot := some slot, role := .actingHome }

theorem judgeAdopt_of_due {s : State} {slot a : Nat} (ha : (slot, a) ∈ s.share.adopting) (hlate : a + 1 < s.frame) :
    judgeAdopt slot s = judgeAdoption slot (s.unadopting slot) := by
  refine if_pos (List.any_eq_true.2 ⟨(slot, a), ha, ?_⟩)
  simp [hlate]

/-- An adoption takes effect in a free guest context (R37, R168). -/
theorem judgeAdoption_adopts {s : State} {slot i : Nat} (hmark : s.otherMark slot = false) (hfree : s.freeGuest? = some i)
    (hl : s.lookup slot = none) : judgeAdoption slot s = servingStart i none (s.actingHome slot i) := by
  rw [judgeAdoption, if_neg (by rw [hmark]; decide), hfree, hl]
  rfl

/-- An adoption that finds no free guest, or a directory entry, is answered cannot serve (R168). -/
theorem judgeAdoption_refuses {s : State} {slot : BitVec 7} (hmark : s.otherMark slot.toNat = false)
    (hno : s.freeGuest? = none ∨ s.lookup slot.toNat ≠ none) :
    judgeAdoption slot.toNat s = s.send (.returnSlot slot 2 s.me) := by
  rw [judgeAdoption, if_neg (by rw [hmark]; decide)]
  split
  · next hfree hl =>
    rcases hno with hno | hno
    · rw [hfree] at hno
      cases hno
    · exact absurd hl hno
  · rw [ofNat_slot]

/-- Settles O45: an orphan is one message queued, and a judgement takes one of three ways. -/
theorem orphanAdoption : Obligations.OrphanAdoption := by
  unfold Obligations.OrphanAdoption
  refine ⟨fun s slot hs hhome habs hl hq hadopt hfree hroom => ?_, fun s slot a hs ha hlate => ?_⟩
  · rw [exec_eq_effect, effect_orphan hs hhome habs hl hq hadopt hfree, State.send_of_room hroom]
  · have judged : exec (.adoptJudgement slot) s = .next (judgeAdoption slot.toNat (s.unadopting slot.toNat)) :=
      congrArg _ ((inRun_of_run hs).trans (judgeAdopt_of_due ha hlate))
    refine ⟨fun hmark => ?_, fun i hmark hfree hl hdir => ?_, fun hmark hno hroom => ?_⟩
    · rw [judged, judgeAdoption]
      exact congrArg _ (if_pos hmark)
    · obtain ⟨hi, -, -⟩ := State.freeGuest?_some hfree
      rw [judged, judgeAdoption_adopts (s := s.unadopting slot.toNat) hmark hfree hl]
      have hread : ((s.unadopting slot.toNat).actingHome slot.toNat i).ctx i
          = { freeGuest with slot := some slot.toNat, role := .actingHome } := State.ctx_setCtx_self _ _ _ hi
      have hctx := servingStart_none_ctx i ((s.unadopting slot.toNat).actingHome slot.toNat i)
        (by rw [State.actingHome, State.setCtx_contexts_length]; exact hi)
      have hstation : ((s.unadopting slot.toNat).actingHome slot.toNat i).profile.station = .run := hs
      rw [hread, hstation] at hctx
      have hlookup : ((s.unadopting slot.toNat).actingHome slot.toNat i).lookup slot.toNat = some i :=
        State.lookup_setDirectory_self (s.unadopting slot.toNat) _ _ (by rw [show
          (s.unadopting slot.toNat).table.directory.length = 128 from hdir]; exact slot.isLt)
      refine ⟨_, startedParts i ((s.unadopting slot.toNat).actingHome slot.toNat i), rfl, hlookup, ?_⟩
      rw [hctx]
      refine ⟨rfl, rfl, rfl, rfl, rfl, rfl, rfl, rfl, rfl, rfl, fun k hk => ?_⟩
      exact (servingStart_none_ctx_ne i _ hk).trans (State.ctx_setCtx_ne _ _ _ _ hk.symm)
    · rw [judged, judgeAdoption_refuses (s := s.unadopting slot.toNat) hmark hno,
        State.send_of_room (s := s.unadopting slot.toNat) hroom]
      exact ⟨_, rfl, rfl, rfl, rfl⟩

/-! ### The end of an offer -/

theorem offerUnplaced_ctx {s : State} {i : Nat} (hi : i < s.table.contexts.length) :
    (offerUnplaced i s).ctx i = { s.ctx i with role := .homeServing, offer := none } := by
  rw [offerUnplaced, State.notify_ctx, State.ctx_modCtx_self _ _ _ hi]

theorem offerUnplaced_ctx_ne {s : State} {i k : Nat} (hk : k ≠ i) : (offerUnplaced i s).ctx k = s.ctx k := by
  rw [offerUnplaced, State.notify_ctx, State.ctx_modCtx_ne _ _ _ _ hk.symm]

theorem offerUnplaced_pool (s : State) (i : Nat) : (offerUnplaced i s).pool = s.pool := by
  rw [offerUnplaced, State.notify_pool]
  rfl

/-- OFFER UNPLACED joins a queue with room when the mask lets it through (R182, R183). -/
theorem offerUnplaced_queue {s : State} {i : Nat} {slot : BitVec 7} (hslot : (s.ctx i).slot = some slot.toNat)
    (hroom : s.lane.queue.length < 16) : (offerUnplaced i s).lane.queue = if maskBit s.profile.noticeMask 4 = true then
        insertEntry ⟨.notice 4 (slot.zeroExtend 16 <<< 9) s.me, s.frame, none⟩ s.lane.queue else s.lane.queue := by
  have hnum : BitVec.ofNat 16 (packLeft 16 [(7, s.slotOf i)]) = slot.zeroExtend 16 <<< 9 := by
    rw [State.slotOf_eq hslot]
    apply BitVec.eq_of_toNat_eq
    have := slot.isLt
    simp [packLeft, packed, widthOf, Nat.shiftLeft_eq, Nat.mod_eq_of_lt this]
  rw [offerUnplaced, State.notify_queue (by exact hroom), hnum]
  rfl

/-- Settles O46: the window ends with a GRANT or unplaced, a stale GRANT unplaced, a stale memory entry forgotten. -/
theorem offerEnds : Obligations.OfferEnds := by
  unfold Obligations.OfferEnds
  intro s slot hs
  refine ⟨fun i o best hl hslot hrole hoffer hlate hstop hgrant hroom => ?_, fun i hl hi hrole hstop hstale => ?_,
    fun m hm hlate => ?_⟩
  · have ungranted : s.queued (·.isGrant slot.toNat) = false := by simpa [State.queued] using hgrant
    have due : o + 4 < s.frame ∧ (s.ctx i).stopAt = none ∧ (!s.queued (·.isGrant slot.toNat)) = true :=
      ⟨hlate, hstop, by rw [ungranted]; rfl⟩
    have hexec : exec (.offerWindowEnd slot) s = .next (endOfferWindow i s) :=
      congrArg _ ((inRun_of_run hs).trans (by rw [onHeld, hl]))
    have hi : i < s.table.contexts.length := Nat.lt_of_not_le fun hge => by
      rw [State.ctx_ge s i hge] at hrole
      cases hrole
    refine ⟨fun taker margin hbest => ⟨_, hexec, ?_⟩, fun hbest => ⟨_, hexec, ?_⟩⟩
    · have grants : endOfferWindow i s
          = (s.enqueue ⟨.grant slot (BitVec.ofNat 4 taker) s.me, s.frame, some o⟩).1 := by
        simp only [endOfferWindow, hrole, hoffer, hbest, State.slotOf_eq hslot, if_pos due, ofNat_slot,
          State.enqueue_eq_of_room hroom, if_true]
      rw [grants, State.enqueue_eq_of_room hroom]
      exact ⟨rfl, rfl, rfl⟩
    · simp only [endOfferWindow, hrole, hoffer, hbest, State.slotOf_eq hslot, if_pos due]
      exact ⟨offerUnplaced_ctx hi, offerUnplaced_pool s i, fun k hk => offerUnplaced_ctx_ne hk, offerUnplaced_queue hslot hroom⟩
  · let stale := fun e : Entry => e.isGrant slot.toNat && e.pastOffer s.frame 8
    obtain ⟨e, he, hg, o, ho, hlate⟩ := hstale
    have hany : s.queued stale = true := List.any_eq_true.2 ⟨e, he, by simp [stale, hg, Entry.pastOffer, ho, hlate]⟩
    have hi' : i < (s.withdraw stale).table.contexts.length := hi
    have hfail : expireGrant slot.toNat s = offerUnplaced i (s.withdraw stale) := by
      have hl' : (s.withdraw stale).lookup slot.toNat = some i := hl
      have hopen : ((s.withdraw stale).ctx i).role = .homeOffering ∧ ((s.withdraw stale).ctx i).stopAt = none := ⟨hrole, hstop⟩
      exact (if_pos hany).trans (by rw [onHeld, hl']; exact if_pos hopen)
    have hexec : exec (.grantStale slot) s = .next (offerUnplaced i (s.withdraw stale)) :=
      congrArg Host.Outcome.next ((inRun_of_run hs).trans hfail)
    refine ⟨_, hexec, offerUnplaced_ctx hi', offerUnplaced_pool _ i,
      fun k hk => offerUnplaced_ctx_ne hk, fun e he o hg ho => ?_⟩
    obtain hk | he := State.mem_of_mem_notify he
    · rw [Entry.kind_of_isGrant hg] at hk
      cases hk
    · have hs := ((State.mem_withdraw s stale e).1 he).2
      simpa [stale, hg, Entry.pastOffer, ho] using hs
  · have hforget : expireOfferMemory slot.toNat s = { s with share := { s.share with
        offers := s.share.offers.set slot.toNat none } } := by rw [expireOfferMemory, hm]; exact if_pos hlate
    exact congrArg _ ((inRun_of_run hs).trans hforget)

end Sys2Proof.Machine

namespace Sys2Proof.Machine

open Sys2Proof

/-! ## The start of a cell -/

/-- What a queued OFFER reads of its context at a cell's start (R158). -/
theorem refreshOffer_eq (s : State) (e : Entry) : refreshOffer s e = match e.msg with
    | .offer slot demand _ _ k => match s.lookup slot.toNat with
      | some i => ⟨.offer slot demand (BitVec.ofNat 3 (s.ctx i).profile)
          (if (s.ctx i).frozen = true then 1 else 0) k, e.eligible, e.offerFrame⟩
      | none => e
    | _ => e := by
  obtain ⟨msg, eligible, offerFrame⟩ := e
  cases msg with
  | offer slot demand profile frozen k =>
    unfold refreshOffer
    dsimp only
    cases s.lookup slot.toNat with
    | none => rfl
    | some i =>
      dsimp only
      cases (s.ctx i).frozen <;> rfl
  | _ => rfl

/-- Only a BID's offer can be too old for the cells of the frame under way (R150). -/
theorem eligible_eq (s : State) (e : Entry) : eligible s e = (decide (e.eligible ≤ s.frame)
    && (e.msg.kind != 12 || e.offerFrame.elim true fun o => decide (s.frame ≤ o + 4))) := by
  unfold eligible
  cases e.msg <;> cases e.offerFrame <;> rfl

/-- The cell that a station asserts for an entry, beside the levels of the line (R141). -/
def cellSent (name : CellName) (line : BitVec 128) (sending : Option Entry) : Cell :=
  match sending with
  | some e =>
    let lostAt := firstDifference (cellOf e.msg) line 128 0
    { name, sending, asserted := lostAt.elim (cellOf e.msg) (assertedUpTo (cellOf e.msg)), lostAt, line }
  | none => { name, sending, asserted := 0, lostAt := none, line }

theorem startCell_serving {s : State} (name : CellName) (line : BitVec 128) (hs : s.profile.station.serves = true)
    (hr : s.lane.recalled = []) :
    let queue := s.lane.queue.map (refreshOffer s)
    startCell name line s = { s with lane := { s.lane with
      queue, cell := some (cellSent name line (queue.find? (eligible s))), lastCell := name } } := by
  have receives : s.profile.station.receives = true := by
    revert hs
    cases s.profile.station <;> simp [StationState.serves, StationState.receives]
  simp only [startCell, receives, if_true, State.settleRecalled_of_nil s hr, hs]
  rfl

/-- A station loses a cell at no bit when the whole cell reads as sent (R142). -/
theorem firstDifference_none_iff_eq (sent line : BitVec 128) : firstDifference sent line 128 0 = none ↔ line = sent := by
  rw [Laws.firstDifference_none]
  exact ⟨fun h => (BitVec.eq_of_getMsbD_eq fun b hb => h b (Nat.zero_le _) (by omega)).symm, fun h b _ _ => by rw [h]⟩

/-- The bits asserted are the sent 1 bits up to the loss (R141). -/
theorem cellSent_asserted (name : CellName) (line : BitVec 128) (e : Entry) {b : Nat} (hb : b < 128) :
    let cell := cellSent name line (some e)
    cell.asserted.getMsbD b = true ↔ (cellOf e.msg).getMsbD b = true ∧ ∀ p, cell.lostAt = some p → b ≤ p := by
  simp only [cellSent]
  cases hd : firstDifference (cellOf e.msg) line 128 0 with
  | none => simp
  | some p =>
    obtain ⟨-, hp, -, -⟩ := Laws.firstDifference_some _ _ _ _ _ hd
    simp [Laws.assertedUpTo_bit _ p b (by omega) hb]

/-- Settles O49: the cell is `cellSent` of the first eligible entry of the refreshed queue. -/
theorem cellStartSendsFirstEligible : Obligations.CellStartSendsFirstEligible := by
  unfold Obligations.CellStartSendsFirstEligible
  intro s name line hs hr
  have hqueue := congrArg (s.lane.queue.map ·) (funext (refreshOffer_eq s))
  refine ⟨_, _, congrArg Host.Outcome.next (startCell_serving name line hs hr), rfl, ?_, ?_, rfl, hqueue, rfl, rfl, ?_, ?_, ?_⟩
  · cases List.find? _ _ <;> rfl
  · cases List.find? _ _ <;> rfl
  · rw [show eligible s = _ from funext (eligible_eq s)]
    cases List.find? _ _ <;> rfl
  · intro hnone
    generalize hfound : List.find? _ _ = found at hnone ⊢
    cases found with
    | none => exact ⟨rfl, rfl⟩
    | some e => exact nomatch hnone
  · intro e hsome
    generalize hfound : List.find? _ _ = found at hsome ⊢
    cases found with
    | none => exact nomatch hsome
    | some e' =>
      obtain rfl : e' = e := Option.some.inj hsome
      refine ⟨firstDifference_none_iff_eq _ _, fun p hp => ?_, fun b hb => cellSent_asserted name line e' hb⟩
      obtain ⟨-, hlt, hne, hall⟩ := Laws.firstDifference_some _ _ _ _ _ hp
      exact ⟨by omega, hne, fun b hb => hall b (Nat.zero_le _) hb⟩

end Sys2Proof.Machine

namespace Sys2Proof.Machine

open Sys2Proof

/-! ## The end of a cell -/

/-- The state at a cell's end, the entries withdrawn during the cell gone (R152). -/
def State.afterCell (s : State) : State :=
  { s with lane := { s.lane with queue := s.lane.queue.diff s.lane.recalled, recalled := [], cell := none } }

/-- The state after a won cell: its entry has left the queue too (R142). -/
def State.wonCell (s : State) (e : Entry) : State :=
  if s.lane.recalled.contains e then s.afterCell
  else { s.afterCell with lane := { s.afterCell.lane with queue := s.afterCell.lane.queue.erase e } }

section WonCell

variable (s : State) (e : Entry)

@[simp] theorem State.wonCell_table : (s.wonCell e).table = s.table := by unfold State.wonCell; split <;> rfl
@[simp] theorem State.wonCell_pool : (s.wonCell e).pool = s.pool := by unfold State.wonCell; split <;> rfl
@[simp] theorem State.wonCell_highway : (s.wonCell e).highway = s.highway := by unfold State.wonCell; split <;> rfl
@[simp] theorem State.wonCell_profile : (s.wonCell e).profile = s.profile := by unfold State.wonCell; split <;> rfl
@[simp] theorem State.wonCell_share : (s.wonCell e).share = s.share := by unfold State.wonCell; split <;> rfl
@[simp] theorem State.wonCell_frame : (s.wonCell e).frame = s.frame := by unfold State.wonCell; split <;> rfl
@[simp] theorem State.wonCell_ctx (k : Nat) : (s.wonCell e).ctx k = s.ctx k := by unfold State.wonCell; split <;> rfl
@[simp] theorem State.wonCell_lookup (k : Nat) : (s.wonCell e).lookup k = s.lookup k := by unfold State.wonCell; split <;> rfl
@[simp] theorem State.wonCell_serves (k : Nat) : (s.wonCell e).serves k = s.serves k := by unfold State.wonCell; split <;> rfl

end WonCell

section Ends

variable {s : State} {cell : Cell} {e : Entry}

theorem exec_cellEnd (hs : s.profile.station ≠ .held) : exec .cellEnd s = .next (endCell s) :=
  congrArg Host.Outcome.next (unlessHeld_of_ne hs)

theorem endCell_won (hc : s.lane.cell = some cell) (hsend : cell.sending = some e) (hlost : cell.lostAt = none) :
    endCell s = carriedEntry e (s.lane.recalled.contains e) (s.wonCell e) := by
  simp only [endCell, hc, hsend, hlost, State.wonCell]
  rfl

theorem endCell_lost (hc : s.lane.cell = some cell) (hlost : cell.sending = none ∨ cell.lostAt ≠ none) :
    endCell s = judgeCell cell.line s.afterCell := by
  simp only [endCell, hc]
  cases hsend : cell.sending with
  | none => rfl
  | some e =>
    cases hl : cell.lostAt with
    | none => exact absurd hl (hlost.resolve_left (by simp [hsend]))
    | some p => rfl

/-- The record of a won entry, but for an OFFER withdrawn during its cell (R142, R161). -/
theorem carriedEntry_eq {recalled : Bool} (h : e.msg.kind ≠ 9 ∨ recalled = false) (t : State) :
    carriedEntry e recalled t = carried e.msg t := by
  unfold carriedEntry
  split
  · next hm =>
    obtain rfl : recalled = false := by simpa [hm, Msg.kind] using h
    rw [hm]
    rfl
  · rfl

/-- A carried record leaves the lane, the pool, the highway and the configuration alone. -/
theorem carried_fields (m : Msg) (t : State) : (carried m t).lane = t.lane ∧ (carried m t).pool = t.pool
    ∧ (carried m t).highway = t.highway ∧ (carried m t).profile = t.profile := by
  unfold carried
  split
  case h_3 | h_4 =>
    unfold onHeld
    split
    · dsimp only
      split <;> exact ⟨rfl, rfl, rfl, rfl⟩
    · exact ⟨rfl, rfl, rfl, rfl⟩
  case h_1 | h_2 | h_6 =>
    unfold onHeld
    split <;> exact ⟨rfl, rfl, rfl, rfl⟩
  all_goals exact ⟨rfl, rfl, rfl, rfl⟩

theorem carriedEntry_fields (recalled : Bool) (t : State) : (carriedEntry e recalled t).lane = t.lane
    ∧ (carriedEntry e recalled t).pool = t.pool ∧ (carriedEntry e recalled t).highway = t.highway
    ∧ (carriedEntry e recalled t).profile = t.profile := by
  unfold carriedEntry
  split
  · split
    · exact ⟨rfl, rfl, rfl, rfl⟩
    · exact carried_fields _ t
  · exact carried_fields _ t

end Ends

/-! ### The tests of a cell not won -/

/-- The surplus count set. -/
def State.withSurplus (s : State) (n : Nat) : State := { s with lane := { s.lane with surplus := n } }

section Judged

variable {line : BitVec 128} {m : Msg}

theorem line_ne_zero_of_parse (h : parseCell line = some m) : line ≠ 0 := by
  rintro rfl
  exact absurd h (by rw [show parseCell 0 = none from rfl]; exact nofun)

/-- With a sound check the surplus positions are clear exactly in a message's own cell (R148). -/
theorem hasSurplus_eq_false_iff (hcheck : checkPasses line = true) : hasSurplus line m = false ↔ line = cellOf m := by
  have split : line = line.extractLsb' 16 112 ++ line.extractLsb' 0 16 := by
    rw [BitVec.extractLsb'_append_extractLsb'_eq_extractLsb' (by decide)]
    simp
  have check : crc (line.extractLsb' 16 112) = line.extractLsb' 0 16 := by simpa [checkPasses] using hcheck
  have surplus : hasSurplus line m = false ↔ line.extractLsb' 16 112 = cellBody m := by simp [hasSurplus]
  rw [surplus]
  constructor
  · intro h
    rw [split, ← check, h, cellOf]
  · intro h
    rw [h, cellOf, BitVec.extractLsb'_append_eq_of_le (by decide)]
    simp

/-- A cell that fails a test is discarded (R145, R153). -/
theorem judgeCell_discards (t : State) (h : line ≠ 0) (hbad : checkPasses line = false ∨ parseCell line = none
    ∨ ∃ m, parseCell line = some m ∧ senderFits m = false) : judgeCell line t = discard t := by
  rw [judgeCell, if_neg h]
  cases hcheck : checkPasses line with
  | false => rfl
  | true =>
    cases hparse : parseCell line with
    | none => rfl
    | some m =>
      have unfit : senderFits m = false := by simpa [hcheck, hparse] using hbad
      simp [judgeMessage, unfit]

theorem judgeCell_message (t : State) (hparse : parseCell line = some m) (hcheck : checkPasses line = true) :
    judgeCell line t = judgeMessage m (hasSurplus line m) t := by
  rw [judgeCell, if_neg (line_ne_zero_of_parse hparse), hcheck, hparse]
  rfl

/-- A message of another sender that fits is received, its surplus counted first (R148, R149). -/
theorem judgeMessage_eq_receive {t : State} {surplus : Bool} (hfit : senderFits m = true)
    (hk : m.sender ≠ t.profile.k) (hr : t.profile.station.receives = true) :
    judgeMessage m surplus t = receive m (t.withSurplus (if surplus then countUp 65535 t.lane.surplus else t.lane.surplus)) := by
  have delivers : ∀ n, receive m (t.withSurplus n) = deliver m (t.withSurplus n) := fun n =>
    Laws.receive_delivers m (t.withSurplus n) hr hfit hk
  rw [delivers, judgeMessage, hfit]
  refine (if_neg hk).trans ?_
  cases surplus <;> rfl

end Judged

/-- A lane cell's number in a notice (R183). -/
def cellPlace : CellName → Nat
  | .a => 1
  | .b => 2
  | .c => 3

/-- The clash count set. -/
def State.withClashes (s : State) (n : Nat) : State := { s with lane := { s.lane with clashes := n } }

theorem stationClash_eq (m : Msg) (s : State) : stationClash m s
    = (s.withClashes (countUp 65535 s.lane.clashes)).notify 10 [(4, m.kind), (2, cellPlace s.lane.lastCell)] := rfl

/-- The notice of a station clash: its kind and its cell, with room in the queue (R147, R183). -/
theorem stationClash_of_room {s : State} {m : Msg} {name : CellName} (hmask : maskBit s.profile.noticeMask 10 = true)
    (hroom : s.lane.queue.length < 16) (hname : s.lane.lastCell = name) (hdrops : s.lane.drops ≤ 65535) :
    stationClash m s = { s with lane := { s.lane with
      clashes := min 65535 (s.lane.clashes + 1)
      queue := insertEntry ⟨.notice 10 (BitVec.ofNat 16 (m.kind * 4096 + cellPlace name * 1024)) s.me, s.frame, none⟩ s.lane.queue } } := by
  have layout : ∀ place < 4, packLeft 16 [(4, m.kind), (2, place)] = m.kind * 4096 + place * 1024 := by
    intro place hp
    have hkind : m.kind < 16 := by cases m <;> simp [Msg.kind]
    simp only [packLeft, packed, widthOf, List.foldl]
    omega
  have hplace : cellPlace s.lane.lastCell = cellPlace name := congrArg cellPlace hname
  rw [stationClash_eq, hplace, State.notify_of_mask (s := s.withClashes (countUp 65535 s.lane.clashes)) hmask,
    State.send_of_room (s := s.withClashes (countUp 65535 s.lane.clashes)) hroom,
    layout _ (by cases name <;> decide)]
  unfold State.withClashes
  dsimp only
  rw [Nat.min_eq_right hdrops]
  rfl

/-- Settles O50: a won cell leaves the queue, and the tests of a cell not won are `judgeCell`'s. -/
theorem cellEndJudges : Obligations.CellEndJudges := by
  unfold Obligations.CellEndJudges
  intro s cell hs hc
  refine ⟨fun e hsend hlost => ?_, fun hlost => ?_⟩
  · have ⟨hlane, hpool, hhighway, hprofile⟩ := carriedEntry_fields (e := e) (s.lane.recalled.contains e) (s.wonCell e)
    refine ⟨_, (exec_cellEnd hs).trans (congrArg _ (endCell_won hc hsend hlost)), ?_⟩
    rw [hlane, hpool, hhighway, hprofile]
    unfold State.wonCell
    by_cases hmem : e ∈ s.lane.recalled <;> simp [hmem, State.afterCell]
  · have ends : exec .cellEnd s = .next (judgeCell cell.line s.afterCell) :=
      (exec_cellEnd hs).trans (congrArg _ (endCell_lost hc hlost))
    rw [ends]
    refine ⟨fun h0 => ?_, fun h0 hbad => ?_, fun m hparse hcheck hfit => ⟨fun hk hmask hroom hname hdrops => ?_,
      fun hk hr c hm => ?_⟩⟩
    · rw [judgeCell, if_pos h0]
      rfl
    · rw [judgeCell_discards _ h0 hbad]
      rfl
    · have clash : judgeMessage m (hasSurplus cell.line m) s.afterCell = stationClash m s.afterCell := by
        rw [judgeMessage, hfit]
        exact if_pos hk
      have room : s.afterCell.lane.queue.length < 16 := (State.settleRecalled_queue_le s).trans_lt hroom
      rw [judgeCell_message _ hparse hcheck, clash, stationClash_of_room (s := s.afterCell) hmask room hname hdrops]
      cases cell.name <;> rfl
    · have surplus : (if cell.line = cellOf m then s.lane.surplus else min 65535 (s.lane.surplus + 1))
          = if hasSurplus cell.line m then countUp 65535 s.lane.surplus else s.lane.surplus := by
        have := hasSurplus_eq_false_iff (m := m) hcheck
        cases h : hasSurplus cell.line m <;> simp_all [countUp]
      rw [judgeCell_message _ hparse hcheck, judgeMessage_eq_receive (t := s.afterCell) hfit hk hr, exec_eq_effect, Instr.effect_message hm,
        surplus]
      rfl

/-! ### Carried records -/

section Carried

variable {s t : State} {i : Nat}

/-- The state after a record that changes one context: that context, and every other one as it stood. -/
theorem State.modCtx_table_ctx (htable : t.table = s.table) (hi : i < s.table.contexts.length) (f : Context → Context) :
    (t.modCtx i f).ctx i = f (s.ctx i) ∧ ∀ n, n ≠ i → (t.modCtx i f).ctx n = s.ctx n := by
  have ctx_eq : ∀ n, t.ctx n = s.ctx n := fun n => by rw [State.ctx, htable]; rfl
  refine ⟨?_, fun n hn => ?_⟩
  · rw [State.ctx_modCtx_self _ _ _ (by rwa [htable]), ctx_eq]
  · rw [State.ctx_modCtx_ne _ _ _ _ (Ne.symm hn), ctx_eq]

end Carried

/-- Settles O51: the carried record of a won entry changes the context that holds the slot. -/
theorem carriedRecords : Obligations.CarriedRecords := by
  unfold Obligations.CarriedRecords
  intro s cell e slot k hs hc hsend hlost
  have ends : e.msg.kind ≠ 9 ∨ e ∉ s.lane.recalled → exec .cellEnd s = .next (carried e.msg (s.wonCell e)) := fun h => by
    rw [exec_cellEnd hs, endCell_won hc hsend hlost, carriedEntry_eq (h.imp_right fun h => by simpa using h)]
  refine ⟨fun margin hm hr => ?_, fun demand profile frozen hm hr => ?_, fun i hl hi => ?_⟩
  · refine ⟨_, ends (.inr hr), ?_⟩
    rw [hm]
    simp [carried]
  · refine ⟨s.wonCell e, ?_, s.wonCell_table e, s.wonCell_share e⟩
    have : s.lane.recalled.contains e = true := by simpa using hr
    rw [exec_cellEnd hs, endCell_won hc hsend hlost, carriedEntry, hm, this]
    rfl
  · have record : ∀ f, e.msg.kind ≠ 9 ∨ e ∉ s.lane.recalled →
        carried e.msg (s.wonCell e) = (s.wonCell e).modCtx i f →
        ∃ t, exec .cellEnd s = .next t ∧ t.ctx i = f (s.ctx i) ∧ ∀ n, n ≠ i → t.ctx n = s.ctx n := fun f h hf =>
      ⟨_, (ends h).trans (congrArg _ hf), State.modCtx_table_ctx (s.wonCell_table e) hi f⟩
    have held : ∀ act, onHeld slot.toNat act (s.wonCell e) = act i (s.wonCell e) := fun act => by
      simp [onHeld, hl]
    refine ⟨fun o ho demand profile frozen hm hr => ?_, fun r hres margin hm => ?_, fun taker hm hkind hserves => ?_,
      fun cause hm hrole hcause => ?_, fun r hrec hm => ?_⟩
    · have := record (fun c => { c with offer := c.offer.map fun o => { o with frame := some s.frame } }) (.inr hr)
        (by rw [hm, carried, held, State.wonCell_frame])
      rwa [ho] at this
    · have := record (fun c => { c with reservation := c.reservation.map fun r => { r with bidFrame := some s.frame } })
        (.inl (by simp [hm, Msg.kind])) (by rw [hm, carried, held, State.wonCell_frame])
      rwa [hres] at this
    · refine record (fun c => { c with stopAt := some (s.frame + 2), grantee := some taker.toNat })
        (.inl (by simp [hm, Msg.kind])) ?_
      rw [hm, carried, held, if_pos (by simp [hkind, hserves]), State.wonCell_frame]
    · refine record (fun c => { c with role := .returning, pendingReturn := false, stopAt := some (s.frame + 2) })
        (.inl (by simp [hm, Msg.kind])) ?_
      rw [hm, carried, held, if_pos ⟨by simpa using hrole, hcause⟩, State.wonCell_frame]
    · have := record (fun c => { c with reclaim := c.reclaim.map fun r => { r with age := 0, carried := some s.frame } })
        (.inl (by simp [hm, Msg.kind])) (by rw [hm, carried, held, State.wonCell_frame])
      rwa [hrec] at this

end Sys2Proof.Machine

namespace Sys2Proof.Machine

open Sys2Proof

/-! ## What the pool's acts do to the send queue

`State.OnlyNotices s t`: the lane of `t` is that of `s` with NOTICES queued and OFFERS and GRANTS recalled. The tasks of
the pool and of the searches do nothing else to it (R112, R161). -/

inductive State.OnlyNotices (s : State) : State → Prop
  | of_lane {t : State} (h : t.lane = s.lane) : s.OnlyNotices t
  | same {t u : State} (h : s.OnlyNotices t) (hu : u.lane = t.lane) : s.OnlyNotices u
  | notify {t : State} (h : s.OnlyNotices t) (kind : Nat) (fs : List Field) : s.OnlyNotices (t.notify kind fs)
  | recalled {t : State} (h : s.OnlyNotices t) (slot : Nat) :
    s.OnlyNotices (t.recall fun e => e.isOffer slot || e.isGrant slot)

theorem Entry.not_offered {e : Entry} (hk : e.msg.kind ≠ 9) (hk' : e.msg.kind ≠ 13) (slot : Nat) :
    (e.isOffer slot || e.isGrant slot) = false := by
  unfold Entry.isOffer Entry.isGrant
  cases hm : e.msg <;> simp_all [Msg.kind]

/-- A NOTICE displaces nothing (R151). -/
theorem State.mem_notify_of_mem {s : State} {kind : Nat} {fs : List Field} {x : Entry} (h : x ∈ s.lane.queue) :
    x ∈ (s.notify kind fs).lane.queue := by
  have joined : ∀ e : Entry, e.msg.kind = 3 → x ∈ (joinQueueWith e s.lane.queue).1 := fun e he => by
    unfold joinQueueWith
    split
    · exact (mem_insertEntry _ _ _).2 (.inr h)
    · rw [if_neg (by rw [he]; decide)]
      exact h
  unfold State.notify
  split
  · exact joined _ rfl
  · exact h

namespace State.OnlyNotices

variable {s t u : State}

theorem trans (h : s.OnlyNotices t) (h' : t.OnlyNotices u) : s.OnlyNotices u := by
  induction h' with
  | of_lane hu => exact h.same hu
  | same _ hu ih => exact ih.same hu
  | notify _ kind fs ih => exact ih.notify kind fs
  | recalled _ slot ih => exact ih.recalled slot

/-- What is queued beside the NOTICES was queued before. -/
theorem mem_queue (h : s.OnlyNotices t) {e : Entry} (he : e ∈ t.lane.queue) : e.msg.kind = 3 ∨ e ∈ s.lane.queue := by
  induction h with
  | of_lane h => exact .inr (h ▸ he)
  | same _ hu ih => exact ih (hu ▸ he)
  | notify _ kind fs ih => exact (State.mem_of_mem_notify he).elim .inl ih
  | recalled _ slot ih =>
    refine ih ?_
    unfold State.recall at he
    split at he
    · exact ((State.mem_withdraw _ _ e).1 he).1
    · exact he

/-- What is queued stays queued, but for a recalled OFFER or GRANT. -/
theorem queue_stays (h : s.OnlyNotices t) {e : Entry} (he : e ∈ s.lane.queue) (hk : e.msg.kind ≠ 9) (hk' : e.msg.kind ≠ 13) :
    e ∈ t.lane.queue := by
  induction h with
  | of_lane h => exact h ▸ he
  | same _ hu ih => exact hu ▸ ih
  | notify _ kind fs ih => exact State.mem_notify_of_mem ih
  | recalled _ slot ih =>
    unfold State.recall
    split
    · exact (State.mem_withdraw _ _ e).2 ⟨ih, Entry.not_offered hk hk' slot⟩
    · exact ih

/-- What is recalled stays recalled, but for an OFFER or GRANT. -/
theorem recalled_stays (h : s.OnlyNotices t) {e : Entry} (he : e ∈ s.lane.recalled) (hk : e.msg.kind ≠ 9) (hk' : e.msg.kind ≠ 13) :
    e ∈ t.lane.recalled := by
  induction h with
  | of_lane h => exact h ▸ he
  | same _ hu ih => exact hu ▸ ih
  | notify _ kind fs ih => rw [State.notify_recalled]; exact ih
  | recalled _ slot ih =>
    unfold State.recall
    split
    · exact ih
    · exact List.mem_append_left _ (List.mem_filter.2 ⟨ih, Bool.not_eq_true' _ ▸ Entry.not_offered hk hk' slot⟩)

theorem modSearch (h : s.OnlyNotices t) (i : Nat) (f : SearchRecord → SearchRecord) : s.OnlyNotices (t.modSearch i f) := h.same rfl

theorem modServing (h : s.OnlyNotices t) (i : Nat) (f : Serving → Serving) : s.OnlyNotices (t.modServing i f) := h.same rfl

theorem toTrack (h : s.OnlyNotices t) (i : Nat) : s.OnlyNotices (t.toTrack i) := h.same rfl

theorem cancelOffer (h : s.OnlyNotices t) (i : Nat) : s.OnlyNotices (t.cancelOffer i) := by
  unfold State.cancelOffer
  dsimp only
  split
  · exact (h.recalled _).same rfl
  · exact h

theorem leaveShortfall (h : s.OnlyNotices t) (i : Nat) : s.OnlyNotices (t.leaveShortfall i) := by
  unfold State.leaveShortfall
  split
  · exact cancelOffer (t := { t with pool := { t.pool with shortfall := t.pool.shortfall.erase i } }) (h.same rfl) i
  · exact h

theorem leaveIfMet (h : s.OnlyNotices t) (i : Nat) : s.OnlyNotices (t.leaveIfMet i) := by
  unfold State.leaveIfMet
  split
  · exact h.leaveShortfall i
  · exact h

theorem joinShortfall (h : s.OnlyNotices t) (i : Nat) : s.OnlyNotices (t.joinShortfall i) := by
  unfold State.joinShortfall
  split
  · exact h
  · exact notify (t := { t with pool := { t.pool with shortfall := t.pool.shortfall ++ [i] } }) (h.same rfl) _ _

end State.OnlyNotices

/-! ### Acts that leave the lane alone -/

theorem State.lane_foldl {α : Type} (f : State → α → State) (hf : ∀ s a, (f s a).lane = s.lane) (l : List α) (s : State) :
    (l.foldl f s).lane = s.lane := by
  induction l generalizing s with
  | nil => rfl
  | cons a l ih => rw [List.foldl_cons, ih, hf]

@[simp] theorem State.fillMap_lane (s : State) (i : Nat) (map : List Segment) (bs : List Nat) :
    (s.fillMap i map bs).1.lane = s.lane := by
  refine (State.modSearch_lane _ _ _).trans (State.lane_foldl (fun (s : State) (jb : Nat × Nat) => s.bindBlock i jb.1 jb.2)
    (fun _ _ => rfl) _ _)

theorem placeBlock_onlyNotices (b : Nat) (s : State) : s.OnlyNotices (placeBlock b s).1 := by
  unfold placeBlock
  split
  · exact .of_lane rfl
  · split
    · exact .of_lane rfl
    · split
      · refine .leaveIfMet ?_ _
        exact .of_lane rfl
      · exact .of_lane rfl
    · exact .of_lane rfl

theorem promoteTask_onlyNotices (s : State) : s.OnlyNotices (promoteTask s).1 := by
  unfold promoteTask
  split
  · exact .of_lane rfl
  · refine .trans ?_ (placeBlock_onlyNotices _ _)
    split
    · exact .notify (.of_lane rfl) _ _
    · exact .of_lane rfl

theorem releaseTask_onlyNotices (b : Nat) (s : State) : s.OnlyNotices (releaseTask b s).1 := by
  unfold releaseTask
  split
  · refine .trans ?_ (promoteTask_onlyNotices _)
    refine .notify ?_ _ _
    exact .of_lane rfl
  · exact placeBlock_onlyNotices b s

theorem passStartTask_onlyNotices (i : Nat) (s : State) : s.OnlyNotices (passStartTask i s).1 := by
  have bound : ∀ l : List (Nat × Nat), (l.foldl (fun s jb => s.bindBlock i jb.1 jb.2) s).lane = s.lane := fun l =>
    State.lane_foldl (fun s jb => s.bindBlock i jb.1 jb.2) (fun _ _ => rfl) l s
  unfold passStartTask
  split
  · dsimp only
    split
    · exact .of_lane rfl
    · split
      · exact .of_lane ((State.modSearch_lane _ _ _).trans (bound _))
      · exact .leaveShortfall (.of_lane ((State.modSearch_lane _ _ _).trans (bound _))) i
  · exact .of_lane rfl

theorem searchEndTask_onlyNotices (i : Nat) (s : State) : s.OnlyNotices (searchEndTask i s).1 := by
  unfold searchEndTask
  split
  · exact .of_lane rfl
  · split
    · exact .toTrack (.modSearch (.leaveShortfall (.of_lane (State.modSearch_lane _ _ _)) i) i _) i
    · dsimp only
      refine .toTrack ?_ i
      split
      · refine .leaveShortfall ?_ i
        exact .of_lane (State.fillMap_lane _ _ _ _)
      · exact .of_lane (State.fillMap_lane _ _ _ _)

theorem requestForPlan_onlyNotices (i : Nat) (s : State) : s.OnlyNotices (requestForPlan i s) := by
  unfold requestForPlan
  dsimp only
  split
  · exact .of_lane rfl
  · split
    · exact .joinShortfall (.of_lane rfl) i
    · split
      · exact .of_lane (State.fillMap_lane _ _ _ _)
      · refine .joinShortfall ?_ i
        exact .of_lane (State.fillMap_lane _ _ _ _)

theorem finishSearchTask_onlyNotices (i : Nat) (s : State) : s.OnlyNotices (finishSearchTask i s).1 :=
  (((requestForPlan_onlyNotices i s).modSearch i _).modServing i _).notify _ _

theorem doTask_onlyNotices (t : Task) (s : State) : s.OnlyNotices (doTask t s).1 := by
  cases t with
  | release b => exact releaseTask_onlyNotices b s
  | promote => exact promoteTask_onlyNotices s
  | passStart i => exact passStartTask_onlyNotices i s
  | checkMet i => exact .leaveIfMet (.of_lane rfl) i
  | searchEnd i => exact searchEndTask_onlyNotices i s
  | finishSearch i => exact finishSearchTask_onlyNotices i s

theorem runTasks_onlyNotices (fuel : Nat) (ts : List Task) (s : State) : s.OnlyNotices (runTasks fuel ts s) := by
  induction fuel generalizing ts s with
  | zero => exact .of_lane rfl
  | succ n ih =>
    cases ts with
    | nil => exact .of_lane rfl
    | cons t ts => exact (doTask_onlyNotices t s).trans (ih _ _)

theorem perform_onlyNotices (ts : List Task) (s : State) : s.OnlyNotices (perform ts s) := runTasks_onlyNotices _ _ _

/-! ## Blocks released while no context waits -/

/-- The blocks of a list freed in its order (R103). -/
def State.freeAll (s : State) (bs : List Nat) : State := bs.foldl (fun s b => s.freeBlock b) s

section FreeAll

variable (s : State) (bs : List Nat)

/-- Freeing blocks changes the blocks and the FIFO alone. -/
theorem State.freeAll_eq : s.freeAll bs = { s with pool := { s.pool with
    blocks := (s.freeAll bs).pool.blocks, fifo := (s.freeAll bs).pool.fifo } } := by
  induction bs generalizing s with
  | nil => rfl
  | cons b bs ih => exact ih (s.freeBlock b)

@[simp] theorem State.freeAll_table : (s.freeAll bs).table = s.table := by rw [State.freeAll_eq]
@[simp] theorem State.freeAll_lane : (s.freeAll bs).lane = s.lane := by rw [State.freeAll_eq]
@[simp] theorem State.freeAll_share : (s.freeAll bs).share = s.share := by rw [State.freeAll_eq]
@[simp] theorem State.freeAll_profile : (s.freeAll bs).profile = s.profile := by rw [State.freeAll_eq]
@[simp] theorem State.freeAll_highway : (s.freeAll bs).highway = s.highway := by rw [State.freeAll_eq]
@[simp] theorem State.freeAll_frame : (s.freeAll bs).frame = s.frame := by rw [State.freeAll_eq]
@[simp] theorem State.freeAll_pending : (s.freeAll bs).pending = s.pending := by rw [State.freeAll_eq]
@[simp] theorem State.freeAll_shortfall : (s.freeAll bs).pool.shortfall = s.pool.shortfall := by
  rw [State.freeAll_eq]
@[simp] theorem State.freeAll_faulty : (s.freeAll bs).pool.faulty = s.pool.faulty := by
  rw [State.freeAll_eq]
@[simp] theorem State.freeAll_ctx (k : Nat) : (s.freeAll bs).ctx k = s.ctx k := by
  rw [State.ctx, State.freeAll_table, State.ctx]
@[simp] theorem State.freeAll_lookup (k : Nat) : (s.freeAll bs).lookup k = s.lookup k := by
  rw [State.lookup, State.freeAll_table, State.lookup]
@[simp] theorem State.freeAll_fifo : (s.freeAll bs).pool.fifo = s.pool.fifo ++ bs := (State.foldl_freeBlock bs s).1
@[simp] theorem State.freeAll_length : (s.freeAll bs).pool.blocks.length = s.pool.blocks.length :=
  (State.foldl_freeBlock bs s).2.1

theorem State.freeAll_tapBlock (k : Nat) : (s.freeAll bs).tapBlock k
    = if k ∈ bs ∧ k < s.pool.blocks.length then (s.tapBlock k).freed else s.tapBlock k :=
  (State.foldl_freeBlock bs s).2.2 k

end FreeAll

@[simp] theorem runTasks_nil (fuel : Nat) (s : State) : runTasks fuel [] s = s := by cases fuel <;> rfl

/-- Unmarked blocks released while no context waits join the FIFO tail one after another (R103). -/
theorem runTasks_release {bs : List Nat} {s : State} (fuel : Nat) (ts : List Task) (hq : s.pool.shortfall = [])
    (hmark : ∀ b ∈ bs, (s.tapBlock b).retirePending = false) :
    runTasks (bs.length + fuel) (bs.map .release ++ ts) s = runTasks fuel ts (s.freeAll bs) := by
  induction bs generalizing s with
  | nil => rw [List.length_nil, Nat.zero_add]; rfl
  | cons b bs ih =>
    have released : releaseTask b s = (s.freeBlock b, []) := by
      rw [releaseTask, if_neg (by simp [hmark b]), placeBlock, hq]
    rw [List.length_cons, Nat.add_right_comm]
    refine Eq.trans ?_ (ih (s := s.freeBlock b) hq fun c hc => ?_)
    · rw [List.map_cons, List.cons_append, runTasks, doTask, released]
      rfl
    · rw [State.tapBlock_freeBlock]
      split
      · next h => exact hmark b (by simp)
      · exact hmark c (by simp [hc])

theorem perform_release {bs : List Nat} {s : State} (hq : s.pool.shortfall = [])
    (hmark : ∀ b ∈ bs, (s.tapBlock b).retirePending = false) (hfew : bs.length ≤ 4096) :
    perform (bs.map .release) s = s.freeAll bs := by
  have h := runTasks_release (4096 - bs.length) [] hq hmark
  rw [Nat.add_sub_of_le hfew, List.append_nil, runTasks_nil] at h
  exact h

/-! ## A bid withdrawn -/

theorem State.reservedFor_eq (s : State) (i : Nat) : s.reservedFor i
    = s.blocksWhere fun b => b.state == .reserved && b.owner.elim false (·.context == i) := s.indicesFrom_blocks _

theorem State.mem_reservedFor {s : State} {i b : Nat} (h : b ∈ s.reservedFor i) : b < s.pool.blocks.length := by
  rw [State.reservedFor_eq] at h
  exact (State.mem_blocksWhere.1 h).1

theorem State.reservedFor_length_le (s : State) (i : Nat) : (s.reservedFor i).length ≤ s.pool.blocks.length := by
  rw [State.reservedFor_eq, State.blocksWhere]
  exact (List.length_filter_le _ _).trans (by simp)

section Withdraw

variable {s : State} {slot i : Nat}

/-- A bid withdrawn, before its blocks are released (R160). -/
def State.unbid (s : State) (slot i : Nat) : State :=
  ((s.withdraw fun e => e.isBid slot).setDirectory slot none).setCtx i freeGuest

theorem withdrawBid_eq (hslot : (s.ctx i).slot = some slot) (hrole : (s.ctx i).role = .reserved)
    (hstart : (s.ctx i).startAt = none) :
    withdrawBid i s = perform ((s.reservedFor i).map .release) (s.unbid slot i) := by
  have hof : s.slotOf i = slot := by rw [State.slotOf, hslot]; rfl
  have hfree : (s.withdraw fun e => e.isBid slot).freeGuestAt i = s.unbid slot i := by
    rw [State.freeGuestAt, State.withdraw_ctx, hslot]
    rfl
  rw [withdrawBid, if_pos ⟨hrole, hstart⟩, hof]
  dsimp only
  rw [hfree]

theorem State.unbid_ctx (hrole : (s.ctx i).role = .reserved) : (s.unbid slot i).ctx i = freeGuest := by
  refine State.ctx_setCtx_self _ _ _ (Nat.lt_of_not_le fun hge => ?_)
  rw [State.ctx_ge s i hge] at hrole
  cases hrole

theorem State.unbid_ctx_ne {k : Nat} (h : k ≠ i) : (s.unbid slot i).ctx k = s.ctx k :=
  State.ctx_setCtx_ne _ _ _ _ (Ne.symm h)

/-- What a withdrawn bid leaves: the context free, no entry in the directory, no BID queued (R160). -/
theorem withdrawBid_leaves (hslot : (s.ctx i).slot = some slot) (hrole : (s.ctx i).role = .reserved)
    (hstart : (s.ctx i).startAt = none) (hdir : slot < s.table.directory.length) :
    (withdrawBid i s).ctx i = freeGuest ∧ (withdrawBid i s).lookup slot = none
      ∧ (∀ e ∈ (withdrawBid i s).lane.queue, e.isBid slot = false) ∧ (withdrawBid i s).share = s.share
      ∧ ∀ k, k ≠ i → ((withdrawBid i s).ctx k).steady = (s.ctx k).steady := by
  have outside : (perform ((s.reservedFor i).map .release) (s.unbid slot i)).outside = (s.unbid slot i).outside :=
    outside_perform _ _
  rw [withdrawBid_eq hslot hrole hstart]
  refine ⟨?_, ?_, fun e he => ?_, (State.outside_share outside).trans rfl, fun k hk => ?_⟩
  · rw [perform_release_passive _ _ _ (by rw [State.unbid_ctx hrole]; rfl), State.unbid_ctx hrole]
  · rw [State.outside_lookup outside]
    exact State.lookup_setDirectory_self (s.withdraw fun e => e.isBid slot) slot none hdir
  · rcases (perform_onlyNotices _ _).mem_queue he with h3 | hmem
    · unfold Entry.isBid
      split
      · next hm => simp [hm, Msg.kind] at h3
      · rfl
    · exact ((State.mem_withdraw s _ e).1 hmem).2
  · rw [steady_perform, State.unbid_ctx_ne hk]

/-- With no context waiting and no mark on them, the reserved blocks join the FIFO tail (R103, R160). -/
theorem withdrawBid_of_no_wait (hslot : (s.ctx i).slot = some slot) (hrole : (s.ctx i).role = .reserved)
    (hstart : (s.ctx i).startAt = none) (hq : s.pool.shortfall = []) (hlen : s.pool.blocks.length = 264)
    (hmark : ∀ b ∈ s.reservedFor i, (s.tapBlock b).retirePending = false) :
    withdrawBid i s = (s.unbid slot i).freeAll (s.reservedFor i) := by
  rw [withdrawBid_eq hslot hrole hstart]
  exact perform_release hq hmark ((s.reservedFor_length_le i).trans (by rw [hlen]; decide))

theorem withdrawBid_frees (hslot : (s.ctx i).slot = some slot) (hrole : (s.ctx i).role = .reserved)
    (hstart : (s.ctx i).startAt = none) (hq : s.pool.shortfall = []) (hlen : s.pool.blocks.length = 264)
    (hmark : ∀ b ∈ s.reservedFor i, (s.tapBlock b).retirePending = false) :
    (withdrawBid i s).pool.fifo = s.pool.fifo ++ s.reservedFor i
      ∧ (∀ b ∈ s.reservedFor i, ((withdrawBid i s).tapBlock b).state = .free ∧ ((withdrawBid i s).tapBlock b).owner = none)
      ∧ ∀ k, k ≠ i → (withdrawBid i s).ctx k = s.ctx k := by
  rw [withdrawBid_of_no_wait hslot hrole hstart hq hlen hmark]
  refine ⟨State.freeAll_fifo _ _, fun b hb => ?_, fun k hk => ?_⟩
  · rw [State.freeAll_tapBlock, if_pos ⟨hb, State.mem_reservedFor hb⟩]
    exact ⟨rfl, rfl⟩
  · rw [State.freeAll_ctx, State.unbid_ctx_ne hk]

end Withdraw

/-- Settles O47: both deadlines withdraw the bid. -/
theorem bidEnds : Obligations.BidEnds := by
  unfold Obligations.BidEnds
  intro s slot i c hs hl hdir hslot hrole _ hstart hq hlen hmark hc
  have slot_lt : slot.toNat < s.table.directory.length := by rw [hdir]; exact slot.isLt
  have ends : ∃ p : Entry → Bool, exec c s = .next (withdrawBid i (s.withdraw p)) ∨ exec c s = .next (withdrawBid i s) := by
    rcases hc with ⟨rfl, e, he, hbid, o, ho, hlate⟩ | ⟨rfl, r, b, hr, hb, hlate⟩
    · refine ⟨fun e => e.isBid slot.toNat && e.pastOffer s.frame 4, .inl (congrArg _ ((inRun_of_run hs).trans ?_))⟩
      have stale : s.queued (fun e => e.isBid slot.toNat && e.pastOffer s.frame 4) = true :=
        List.any_eq_true.2 ⟨e, he, by simp [hbid, Entry.pastOffer, ho, hlate]⟩
      rw [expireBid, if_pos stale, onHeld, State.withdraw_lookup, hl]
    · refine ⟨fun _ => false, .inr (congrArg _ ((inRun_of_run hs).trans ?_))⟩
      rw [onHeld, hl]
      simp [timeOutBid, hr, hb, hlate]
  obtain ⟨p, h | h⟩ := ends
  · have leaves := withdrawBid_leaves (s := s.withdraw p) hslot hrole hstart slot_lt
    have frees := withdrawBid_frees (s := s.withdraw p) hslot hrole hstart hq hlen hmark
    exact ⟨_, h, leaves.1, leaves.2.1, leaves.2.2.1, frees.1, leaves.2.2.2.1, frees.2.1, frees.2.2⟩
  · have leaves := withdrawBid_leaves hslot hrole hstart slot_lt
    have frees := withdrawBid_frees hslot hrole hstart hq hlen hmark
    exact ⟨_, h, leaves.1, leaves.2.1, leaves.2.2.1, frees.1, leaves.2.2.2.1, frees.2.1, frees.2.2⟩

end Sys2Proof.Machine

namespace Sys2Proof.Machine

open Sys2Proof

/-! ## Blocks reserved -/

/-- A block reserved for an owner (R96, R105). -/
def TapBlock.reservedBy (o : Owner) (t : TapBlock) : TapBlock := { t with state := .reserved, owner := some o, segment := none }

/-- The blocks of a list reserved for context i (R105). -/
def State.reserveAll (s : State) (i : Nat) (bs : List Nat) : State := bs.foldl (fun s b => s.reserveBlock i b) s

section ReserveAll

variable (s : State) (i : Nat) (bs : List Nat)

/-- Reserving blocks changes the blocks alone. -/
theorem State.reserveAll_eq : s.reserveAll i bs = { s with pool := { s.pool with
    blocks := (s.reserveAll i bs).pool.blocks } } := by
  induction bs generalizing s with
  | nil => rfl
  | cons b bs ih => exact ih (s.reserveBlock i b)

@[simp] theorem State.reserveAll_table : (s.reserveAll i bs).table = s.table := by rw [State.reserveAll_eq]
@[simp] theorem State.reserveAll_lane : (s.reserveAll i bs).lane = s.lane := by rw [State.reserveAll_eq]
@[simp] theorem State.reserveAll_share : (s.reserveAll i bs).share = s.share := by rw [State.reserveAll_eq]
@[simp] theorem State.reserveAll_profile : (s.reserveAll i bs).profile = s.profile := by rw [State.reserveAll_eq]
@[simp] theorem State.reserveAll_frame : (s.reserveAll i bs).frame = s.frame := by rw [State.reserveAll_eq]
@[simp] theorem State.reserveAll_fifo : (s.reserveAll i bs).pool.fifo = s.pool.fifo := by rw [State.reserveAll_eq]
@[simp] theorem State.reserveAll_shortfall : (s.reserveAll i bs).pool.shortfall = s.pool.shortfall := by
  rw [State.reserveAll_eq]
@[simp] theorem State.reserveAll_ctx (k : Nat) : (s.reserveAll i bs).ctx k = s.ctx k := by
  rw [State.ctx, State.reserveAll_table, State.ctx]
@[simp] theorem State.reserveAll_lookup (k : Nat) : (s.reserveAll i bs).lookup k = s.lookup k := by
  rw [State.lookup, State.reserveAll_table, State.lookup]
@[simp] theorem State.reserveAll_length : (s.reserveAll i bs).pool.blocks.length = s.pool.blocks.length := by
  induction bs generalizing s with
  | nil => rfl
  | cons b bs ih => exact (ih (s.reserveBlock i b)).trans (State.reserveBlock_length s i b)

theorem State.tapBlock_reserveBlock (b k : Nat) : (s.reserveBlock i b).tapBlock k
    = if b = k ∧ b < s.pool.blocks.length then (s.tapBlock b).reservedBy ⟨i, s.slotOf i⟩ else s.tapBlock k :=
  State.tapBlock_modBlock s b k (TapBlock.reservedBy ⟨i, s.slotOf i⟩)

theorem State.reserveAll_tapBlock (k : Nat) : (s.reserveAll i bs).tapBlock k
    = if k ∈ bs ∧ k < s.pool.blocks.length then (s.tapBlock k).reservedBy ⟨i, s.slotOf i⟩ else s.tapBlock k := by
  induction bs generalizing s with
  | nil => simp [State.reserveAll]
  | cons b bs ih =>
    have step : s.reserveAll i (b :: bs) = (s.reserveBlock i b).reserveAll i bs := rfl
    rw [step, ih, State.reserveBlock_length, State.tapBlock_reserveBlock,
      show (s.reserveBlock i b).slotOf i = s.slotOf i from rfl]
    by_cases hbk : b = k
    · subst hbk
      by_cases hb : b < s.pool.blocks.length <;> simp [hb, TapBlock.reservedBy]
    · simp [hbk, Ne.symm hbk]

end ReserveAll

/-! ### A reservation (R37, R105, R159) -/

section Reserve

variable {s : State} {i slot demand profile : Nat} {frozen : Bool}

/-- The context of a new reservation, its BID's margin not yet fixed. -/
def bidder (slot demand profile : Nat) (frozen : Bool) : Context :=
  { freeGuest with slot := some slot, role := .reserved, profile, frozen, reservation := some ⟨demand, profile, 0, none⟩ }

/-- The state on whose FIFO a reservation draws. -/
def State.bidding (s : State) (i slot demand profile : Nat) (frozen : Bool) : State :=
  (s.setCtx i (bidder slot demand profile frozen)).setDirectory slot (some i)

theorem reserve_eq : reserve i slot demand profile frozen s
    = ((s.bidding i slot demand profile frozen).takeBlocks demand).2.reserveAll i (s.pool.fifo.take demand) := rfl

@[simp] theorem reserve_lane : (reserve i slot demand profile frozen s).lane = s.lane := State.reserveAll_lane _ _ _
@[simp] theorem reserve_share : (reserve i slot demand profile frozen s).share = s.share := State.reserveAll_share _ _ _
@[simp] theorem reserve_profile : (reserve i slot demand profile frozen s).profile = s.profile := State.reserveAll_profile _ _ _
@[simp] theorem reserve_frame : (reserve i slot demand profile frozen s).frame = s.frame := State.reserveAll_frame _ _ _
@[simp] theorem reserve_fifo : (reserve i slot demand profile frozen s).pool.fifo = s.pool.fifo.drop demand :=
  State.reserveAll_fifo _ _ _

theorem reserve_contexts_length :
    (reserve i slot demand profile frozen s).table.contexts.length = s.table.contexts.length := by
  rw [reserve_eq, State.reserveAll_table]
  exact State.setCtx_contexts_length s i _

theorem reserve_ctx (hi : i < s.table.contexts.length) :
    (reserve i slot demand profile frozen s).ctx i = bidder slot demand profile frozen := by
  rw [reserve_eq, State.reserveAll_ctx]
  exact State.ctx_setCtx_self s i _ hi

theorem reserve_ctx_ne {k : Nat} (hk : k ≠ i) : (reserve i slot demand profile frozen s).ctx k = s.ctx k := by
  rw [reserve_eq, State.reserveAll_ctx]
  exact State.ctx_setCtx_ne s i k _ (Ne.symm hk)

theorem reserve_lookup (hslot : slot < s.table.directory.length) :
    (reserve i slot demand profile frozen s).lookup slot = some i := by
  rw [reserve_eq, State.reserveAll_lookup]
  exact State.lookup_setDirectory_self (s.setCtx i _) slot (some i) hslot

theorem reserve_tapBlock (hi : i < s.table.contexts.length) {b : Nat} (hb : b ∈ s.pool.fifo.take demand)
    (hlt : b < s.pool.blocks.length) :
    (reserve i slot demand profile frozen s).tapBlock b = (s.tapBlock b).reservedBy ⟨i, slot⟩ := by
  have hread : (s.bidding i slot demand profile frozen).ctx i = bidder slot demand profile frozen :=
    State.ctx_setCtx_self s i _ hi
  have hslot : ((s.bidding i slot demand profile frozen).takeBlocks demand).2.slotOf i = slot := by
    rw [State.slotOf, State.takeBlocks_ctx, hread]
    rfl
  rw [reserve_eq, State.reserveAll_tapBlock, hslot, if_pos ⟨hb, hlt⟩]
  rfl

/-- A reservation whose BID offers a margin (R159). -/
def bidWith (i slot demand profile : Nat) (frozen : Bool) (margin : Nat) (s : State) : State :=
  (reserve i slot demand profile frozen s).modCtx i fun c =>
    { c with reservation := c.reservation.map fun r => { r with margin } }

theorem bidWith_ctx (hi : i < s.table.contexts.length) (margin : Nat) :
    (bidWith i slot demand profile frozen margin s).ctx i
      = { bidder slot demand profile frozen with reservation := some ⟨demand, profile, margin, none⟩ } := by
  rw [bidWith, State.ctx_modCtx_self _ _ _ (by rw [reserve_contexts_length]; exact hi), reserve_ctx hi]
  rfl

theorem bidWith_ctx_ne {k : Nat} (hk : k ≠ i) (margin : Nat) :
    (bidWith i slot demand profile frozen margin s).ctx k = s.ctx k := by
  rw [bidWith, State.ctx_modCtx_ne _ _ _ _ (Ne.symm hk), reserve_ctx_ne hk]

/-- With room for the demand an OFFER leads to a BID (R159). -/
theorem takeOffer_bids {slot : BitVec 7} {sender : Nat} (hl : s.lookup slot.toNat = none) (hfree : s.freeGuest? = some i)
    (hpos : 1 ≤ demand) (h16 : demand ≤ 16) (hroom : demand ≤ s.pool.fifo.length) (hqueue : s.lane.queue.length < 16) :
    let margin := min 255 (s.pool.fifo.length - demand)
    takeOffer slot.toNat demand profile frozen sender s
      = ((bidWith i slot.toNat demand profile frozen margin
          (s.setOffer slot.toNat (some ⟨sender, demand, profile, frozen, s.frame⟩))).enqueue
        ⟨.bid slot (BitVec.ofNat 8 margin) s.me, s.frame + 1, some s.frame⟩).1 := by
  have hfree2 : ∀ t : State, (reserve i slot.toNat demand profile frozen t).free = t.pool.fifo.length - demand := fun t => by
    rw [State.free, reserve_fifo, List.length_drop]
  generalize hm : (⟨sender, demand, profile, frozen, s.frame⟩ : OfferMemory) = memory
  have hl1 : (s.setOffer slot.toNat (some memory)).lookup slot.toNat = none := hl
  have hg1 : (s.setOffer slot.toNat (some memory)).freeGuest? = some i := hfree
  have bids : ∀ margin, (bidWith i slot.toNat demand profile frozen margin (s.setOffer slot.toNat (some memory))).me = s.me
      ∧ (bidWith i slot.toNat demand profile frozen margin (s.setOffer slot.toNat (some memory))).frame = s.frame
      ∧ (bidWith i slot.toNat demand profile frozen margin (s.setOffer slot.toNat (some memory))).lane = s.lane :=
    fun margin => ⟨by rw [State.me, bidWith, State.modCtx_profile, reserve_profile]; rfl, reserve_frame, reserve_lane⟩
  intro margin
  obtain ⟨hme, hframe, hlane⟩ := bids margin
  have joins : ∀ e, ((bidWith i slot.toNat demand profile frozen margin
      (s.setOffer slot.toNat (some memory))).enqueue e).2 = true := fun e =>
    (State.enqueue_of_room _ e (by rw [hlane]; exact hqueue)).2
  rw [takeOffer, hm]
  dsimp only
  rw [hl1, hg1]
  dsimp only
  rw [if_pos ⟨hpos, h16, hroom⟩, hfree2, ofNat_slot]
  refine (if_pos (joins _)).trans ?_
  rw [← hme, ← hframe]
  rfl

end Reserve

/-! ## Station messages in RUN -/

section Heard

variable {s : State} {slot : BitVec 7} {k : BitVec 4}

theorem exec_offer (h : s.hearsStation k) (demand : BitVec 5) (profile : BitVec 3) (frozen : BitVec 1) :
    exec (.offer slot demand profile frozen k) s
      = .next (takeOffer slot.toNat demand.toNat profile.toNat (frozen == 1) k.toNat s) :=
  congrArg Host.Outcome.next
    ((Laws.hearsStation_delivers (.offer slot demand profile frozen k) s k h rfl (decide_eq_true h.2.1)).trans (inRun_of_run h.1))

theorem exec_bid (h : s.hearsStation k) (margin : BitVec 8) :
    exec (.bid slot margin k) s = .next (takeBid slot.toNat margin.toNat k.toNat s) :=
  congrArg Host.Outcome.next
    ((Laws.hearsStation_delivers (.bid slot margin k) s k h rfl (decide_eq_true h.2.1)).trans (inRun_of_run h.1))

theorem exec_grant (h : s.hearsStation k) (taker : BitVec 4) :
    exec (.grant slot taker k) s = .next (deliverGrant slot.toNat taker.toNat k.toNat s) :=
  congrArg Host.Outcome.next
    ((Laws.hearsStation_delivers (.grant slot taker k) s k h rfl (decide_eq_true h.2.1)).trans (inRun_of_run h.1))

theorem exec_reclaim (h : s.hearsStation k) :
    exec (.reclaim slot k) s = .next (takeReclaim slot.toNat k.toNat s) :=
  congrArg Host.Outcome.next
    ((Laws.hearsStation_delivers (.reclaim slot k) s k h rfl (decide_eq_true h.2.1)).trans (inRun_of_run h.1))

theorem exec_adopt (hs : s.profile.station.receives = true) (hk : k.toNat < 8) (hne : k.toNat ≠ s.profile.k)
    (margin : BitVec 8) : exec (.adopt slot margin k) s = .next (deliverAdopt slot.toNat s) :=
  congrArg Host.Outcome.next (Laws.receive_delivers (.adopt slot margin k) s hs (decide_eq_true hk) hne)

theorem exec_return (hs : s.profile.station.serves = true) (hk : k.toNat < 8) (hne : k.toNat ≠ s.profile.k)
    (cause : BitVec 3) :
    exec (.returnSlot slot cause k) s = .next (takeReturn slot.toNat k.toNat (orphanAgain slot.toNat cause s)) := by
  have receives : s.profile.station.receives = true := by
    revert hs
    cases s.profile.station <;> simp [StationState.serves, StationState.receives]
  exact congrArg Host.Outcome.next ((Laws.receive_delivers (.returnSlot slot cause k) s receives (decide_eq_true hk) hne).trans
    (if_pos hs))

end Heard

/-- Settles O52: an OFFER is remembered, and a bid is a reservation with a BID behind it. -/
theorem offerDelivered : Obligations.OfferDelivered := by
  unfold Obligations.OfferDelivered
  intro s slot demand profile frozen k h hoffers
  have hbit : (frozen == 1) = decide (frozen = 1) := rfl
  rw [exec_offer h, hbit]
  generalize decide (frozen = 1) = isFrozen
  generalize hm : (⟨k.toNat, demand.toNat, profile.toNat, isFrozen, s.frame⟩ : OfferMemory) = memory
  refine ⟨fun hno => ?_, fun i hl hfree h0 h16 hroom hqueue hdir hfifo => ?_⟩
  · refine congrArg _ ?_
    unfold takeOffer
    rw [hm]
    dsimp only
    cases hl : (s.setOffer slot.toNat (some memory)).lookup slot.toNat with
    | some j => rfl
    | none =>
      cases hg : (s.setOffer slot.toNat (some memory)).freeGuest? with
      | none => rfl
      | some i =>
        refine if_neg fun ⟨h1, h2, h3⟩ => ?_
        rcases hno with hno | hno | hno | hno | hno
        · exact hno hl
        · exact nomatch hno.symm.trans hg
        · rw [hno] at h1
          exact absurd h1 (by decide)
        · exact absurd h2 (by omega)
        · exact absurd (show demand.toNat ≤ s.pool.fifo.length from h3) (by omega)
  · obtain ⟨hi, -, -⟩ := State.freeGuest?_some hfree
    intro margin
    have hpos : 1 ≤ demand.toNat := by
      have : demand.toNat ≠ 0 := fun h => h0 (BitVec.eq_of_toNat_eq (by rw [h]; rfl))
      omega
    refine ⟨_, congrArg _ (takeOffer_bids hl hfree hpos h16 hroom hqueue), ?_⟩
    rw [hm, State.enqueue_ctx, bidWith_ctx (s := s.setOffer slot.toNat (some memory)) hi]
    refine ⟨?_, ?_, rfl, rfl, rfl, rfl, rfl, rfl, ?_, fun b hb => ?_, ?_, fun n hn => ?_⟩
    · rw [State.enqueue_share, bidWith, State.modCtx_share, reserve_share]
      have : slot.toNat < s.share.offers.length := by rw [hoffers]; exact slot.isLt
      simp [State.setOffer, List.getD_eq_getElem?_getD, this]
    · rw [State.enqueue_lookup, bidWith, State.modCtx_lookup, reserve_lookup]
      rw [show (s.setOffer slot.toNat (some memory)).table.directory.length = 128 from hdir]
      exact slot.isLt
    · rw [State.enqueue_pool, bidWith, State.modCtx_pool, reserve_fifo]
      rfl
    · have := reserve_tapBlock (s := s.setOffer slot.toNat (some memory)) (slot := slot.toNat) (profile := profile.toNat)
        (frozen := isFrozen) hi hb (hfifo b (List.mem_of_mem_take hb))
      rw [State.enqueue_tapBlock, bidWith, State.modCtx_tapBlock, this]
      exact ⟨rfl, rfl, rfl⟩
    · rw [State.enqueue_queue, bidWith, State.modCtx_lane, reserve_lane]
      exact (State.enqueue_of_room s _ hqueue).1
    · rw [State.enqueue_ctx, bidWith_ctx_ne hn]
      rfl

theorem beats_iff {margin station margin' station' : Nat} : beats margin station margin' station' = true
    ↔ margin' < margin ∨ (margin' = margin ∧ station' < station) := by
  simp only [beats, Bool.or_eq_true, Bool.and_eq_true, decide_eq_true_eq, beq_iff_eq]
  exact or_congr_right (and_congr_left' eq_comm)

/-- A BID at a home whose OFFER has been carried (R161). -/
theorem takeBid_home {s : State} {slot margin sender i o : Nat} {best : Option (Nat × Nat)} (hl : s.lookup slot = some i)
    (hrole : (s.ctx i).role = .homeOffering) (hoffer : (s.ctx i).offer = some ⟨some o, best⟩) :
    takeBid slot margin sender s = if best.elim true fun b => beats margin sender b.2 b.1 then
      s.modCtx i fun c => { c with offer := some ⟨some o, some (sender, margin)⟩ } else s := by
  rw [takeBid, onHeld, hl]
  dsimp only
  rw [hrole, hoffer]

/-- A BID at a RESERVED bidder (R160). -/
theorem takeBid_bidder {s : State} {slot margin sender i : Nat} {r : Reservation} (hl : s.lookup slot = some i)
    (hrole : (s.ctx i).role = .reserved) (hres : (s.ctx i).reservation = some r) :
    takeBid slot margin sender s = if beats margin sender r.margin s.profile.k then withdrawBid i s else s := by
  rw [takeBid, onHeld, hl]
  dsimp only
  rw [hrole, hres]

/-- Settles O53: the best bid of a home, and the withdrawal of a bidder beaten. -/
theorem bidDelivered : Obligations.BidDelivered := by
  unfold Obligations.BidDelivered
  intro s slot margin k i h hl hi
  rw [exec_bid h]
  refine ⟨fun r hr o ho hrole => ?_, fun r hres hrole _ hslot _ hstart hdir => ?_⟩
  · obtain ⟨f, best⟩ := r
    obtain rfl : f = some o := ho
    rw [takeBid_home hl hrole hr]
    refine ⟨fun hbest => congrArg _ ((if_pos ?_).trans rfl), fun b hb hnot => ?_⟩
    · cases best with
      | none => rfl
      | some b => exact beats_iff.2 (hbest b rfl)
    · obtain rfl : best = some b := hb
      exact congrArg _ (if_neg fun hb => hnot (beats_iff.1 hb))
  · rw [takeBid_bidder hl hrole hres]
    refine ⟨fun hbeat => ?_, fun hnot => congrArg _ (if_neg fun hb => hnot (beats_iff.1 hb))⟩
    rw [if_pos (beats_iff.2 hbeat)]
    obtain ⟨hctx, hlookup, hqueue, hshare, hothers⟩ := withdrawBid_leaves hslot hrole hstart (by rw [hdir]; exact slot.isLt)
    refine ⟨_, rfl, hctx, hlookup, hqueue, hshare, fun hq hlen hmark => ?_, hothers⟩
    obtain ⟨hfifo, hfreed, -⟩ := withdrawBid_frees hslot hrole hstart hq hlen hmark
    exact ⟨hfifo, hfreed⟩

/-- Settles O54: the four cases of a GRANT that names this station, and the withdrawal of a bidder it does not name. -/
theorem grantDelivered : Obligations.GrantDelivered := by
  unfold Obligations.GrantDelivered
  intro s slot taker k h
  rw [exec_grant h]
  have refused : ∀ cause, s.lane.queue.length < 16 → (refuseGrant slot.toNat cause s).table = s.table
      ∧ (refuseGrant slot.toNat cause s).pool = s.pool ∧ (refuseGrant slot.toNat cause s).lane.queue
        = insertEntry ⟨.returnSlot slot cause s.me, s.frame, none⟩ s.lane.queue := fun cause hq => by
    rw [refuseGrant, ofNat_slot, State.send_of_room hq]
    exact ⟨rfl, rfl, rfl⟩
  refine ⟨fun i hl ht hrole => ?_, fun i hl ht hrole hq => ?_, fun ht hl hno hq => ?_, fun m hm i hfree ht hl hsend hroom hdir hfifo => ?_,
    fun i hl ht hi hrole hstart hslot _ hdir => ?_⟩
  · rw [deliverGrant, if_pos ht, takeGrant, hl]
    exact congrArg _ (if_pos hrole)
  · rw [deliverGrant, if_pos ht, takeGrant, hl]
    exact ⟨_, congrArg _ (if_neg hrole), refused 2 hq⟩
  · rw [deliverGrant, if_pos ht, takeGrant, hl]
    refine ⟨_, congrArg _ ?_, refused 1 hq⟩
    dsimp only
    cases hm : s.share.offers.getD slot.toNat none with
    | none => rfl
    | some m =>
      dsimp only
      by_cases hsend : m.sender = k.toNat
      · rw [if_neg (not_not.2 hsend)]
        cases hg : s.freeGuest? with
        | none => rfl
        | some i =>
          refine if_neg fun hle => ?_
          rcases hno m hm with hno | hno | hno
          · exact hno hsend
          · exact nomatch hno.symm.trans hg
          · exact absurd (show m.demand ≤ s.pool.fifo.length from hle) (by omega)
      · rw [if_pos hsend]
  · obtain ⟨hi, -, -⟩ := State.freeGuest?_some hfree
    have taken : deliverGrant slot.toNat taker.toNat k.toNat s
        = acceptGrant i (reserve i slot.toNat m.demand m.profile m.frozen s) := by
      rw [deliverGrant, if_pos ht, takeGrant, hl]
      dsimp only
      rw [hm]
      dsimp only
      rw [if_neg (not_not.2 hsend), hfree]
      exact if_pos hroom
    have hctx : (acceptGrant i (reserve i slot.toNat m.demand m.profile m.frozen s)).ctx i
        = { bidder slot.toNat m.demand m.profile m.frozen with startAt := some (s.frame + 2) } := by
      rw [acceptGrant, State.ctx_modCtx_self _ _ _ (by rw [reserve_contexts_length]; exact hi), reserve_ctx hi, reserve_frame]
    refine ⟨_, congrArg _ taken, reserve_lookup (by rw [hdir]; exact slot.isLt), ?_⟩
    rw [hctx]
    refine ⟨rfl, rfl, rfl, rfl, rfl, rfl, rfl, reserve_fifo, fun b hb => ?_, reserve_lane, fun n hn => ?_⟩
    · have := reserve_tapBlock (slot := slot.toNat) (profile := m.profile) (frozen := m.frozen) hi hb
        (hfifo b (List.mem_of_mem_take hb))
      rw [acceptGrant, State.modCtx_tapBlock, this]
      exact ⟨rfl, rfl⟩
    · rw [acceptGrant, State.ctx_modCtx_ne _ _ _ _ (Ne.symm hn), reserve_ctx_ne hn]
  · rw [deliverGrant, if_neg ht, onHeld, hl]
    obtain ⟨hctx, hlookup, hqueue, -, -⟩ := withdrawBid_leaves hslot hrole hstart (by rw [hdir]; exact slot.isLt)
    exact ⟨_, rfl, hctx, hlookup, hqueue⟩

end Sys2Proof.Machine

namespace Sys2Proof.Machine

open Sys2Proof

/-! ## RETURN, ADOPT and RECLAIM -/

section Return

variable {s : State} {slot sender i : Nat}

/-- The hand-over frame r+2 of a home whose slot returns (R165). -/
def State.resumeAt (s : State) (i : Nat) : State := s.modCtx i fun c => { c with startAt := some (s.frame + 2) }

theorem takeReturn_home (hl : s.lookup slot = some i) (hkind : (s.ctx i).kind = .home) : takeReturn slot sender s =
    match (s.ctx i).role with
    | .handed => if (s.ctx i).server = some sender then s.resumeAt i else s
    | .reclaiming => s.resumeAt i
    | .homeOffering =>
      if (s.ctx i).grantee = some sender then
        if (s.ctx i).stopAt = some (s.frame + 2) then
          s.modCtx i fun c => { c with role := .homeServing, offer := none, stopAt := none, grantee := none }
        else if (s.ctx i).stopAt.isSome then s.resumeAt i else s
      else s
    | _ => s := by
  rw [takeReturn, onHeld, hl]
  dsimp only
  rw [hkind]
  cases (s.ctx i).role <;> rfl

theorem takeReturn_guest (h : ∀ i, s.lookup slot = some i → (s.ctx i).kind = .guest) : takeReturn slot sender s = s := by
  rw [takeReturn, onHeld]
  cases hl : s.lookup slot with
  | none => rfl
  | some i =>
    dsimp only
    rw [h i hl]

end Return

/-- Settles O55: what a RETURN does by the home's role, and the absence count of an orphan that cannot be served. -/
theorem returnDelivered : Obligations.ReturnDelivered := by
  unfold Obligations.ReturnDelivered
  intro s slot cause k hs hk hne
  rw [exec_return hs hk hne]
  refine ⟨fun i hl hhome hkind => ?_, fun hhome hguest => ⟨fun hrun hcause => ?_, fun hno => ?_⟩⟩
  · have kept : orphanAgain slot.toNat cause s = s := if_neg fun h => by simp [hhome] at h
    rw [kept, takeReturn_home hl hkind]
    refine ⟨?_, fun hrole hgrantee => ?_, ?_⟩
    · rintro (⟨hrole, hserver⟩ | hrole)
      · simp only [hrole, if_pos hserver, State.resumeAt]
        rw [State.modCtx, hrole]
      · simp only [hrole, State.resumeAt]
        rw [State.modCtx, hrole]
    · simp only [hrole, if_pos hgrantee]
      refine ⟨fun hstop => congrArg _ ((if_pos hstop).trans rfl), fun f hstop hf => ?_⟩
      rw [if_neg (by simp [hstop, hf]), if_pos (by simp [hstop]), State.resumeAt, State.modCtx, hrole]
    · rintro (hrole | ⟨hrole, hserver⟩)
      · simp only [hrole]
      · simp only [hrole, if_neg hserver]
  · have again : orphanAgain slot.toNat cause s = s.setAbsence slot.toNat 8 := if_pos ⟨hrun, hcause, by simp [hhome]⟩
    rw [again]
    exact congrArg _ (takeReturn_guest (s := s.setAbsence slot.toNat 8) hguest)
  · have kept : orphanAgain slot.toNat cause s = s := if_neg fun ⟨hrun, hcause, _⟩ =>
      hno.elim (fun hc => nomatch hc.symm.trans hrun) fun hc => hc hcause
    rw [kept, takeReturn_guest hguest]

/-- A RECLAIM from the home of the slot, at a server that has no RETURN queued (R170). -/
theorem takeReclaim_server {s : State} {slot sender i : Nat} (hhome : slot % s.profile.n = sender)
    (hl : s.lookup slot = some i) (hrole : (s.ctx i).role = .taken ∨ (s.ctx i).role = .actingHome)
    (hq : ∀ e ∈ s.lane.queue, e.isReturn slot = false) :
    takeReclaim slot sender s = if (s.ctx i).callState = .idle then
        sendReturn i (s.modCtx i fun c => { c with pendingReturn := true })
      else s.modCtx i fun c => { c with pendingReturn := true } := by
  have none : s.queued (·.isReturn slot) = false := List.any_eq_false.2 fun e he => by simp [hq e he]
  rw [takeReclaim, if_pos hhome, onHeld, hl]
  dsimp only
  rw [none, if_pos ⟨hrole, rfl⟩]

/-- The home slots in the LISTEN record (R169). -/
theorem listenAdopt_bit (record : BitVec 128) (slot : BitVec 7) {b : Nat} (hb : b < 128) :
    (record ||| BitVec.ofNat 128 (2 ^ slot.toNat)).getLsbD b = true ↔ record.getLsbD b = true ∨ b = slot.toNat := by
  rw [BitVec.getLsbD_or, Bool.or_eq_true, BitVec.getLsbD_ofNat, Nat.testBit_two_pow]
  simp only [hb, decide_true, Bool.true_and, decide_eq_true_eq]
  exact or_congr_right eq_comm

/-- Settles O56: an ADOPT by station state, a RECLAIM by the server's call state, and the RECLAIM queued again. -/
theorem adoptAndReclaim : Obligations.AdoptAndReclaim := by
  unfold Obligations.AdoptAndReclaim
  refine fun s slot => ⟨fun k margin h => ?_, fun k margin hs hk hne => ?_,
    fun k i h hhome hl hi hslot hrole hq => ?_, fun i r hs hl hslot hrole hr hage hq hroom => ?_⟩
  · obtain ⟨hs, hk, hne⟩ := h
    rw [exec_adopt (by rw [hs]; rfl) hk hne, deliverAdopt, if_neg (by rw [hs]; exact nofun)]
    rfl
  · refine ⟨_, exec_adopt (by rw [hs]; rfl) hk hne margin, ?_⟩
    rw [deliverAdopt, if_pos hs]
    split
    · next hhome =>
      refine ⟨rfl, fun b hb => (listenAdopt_bit _ _ hb).trans (or_congr_right ?_)⟩
      exact ⟨fun h => ⟨h, h ▸ hhome⟩, And.left⟩
    · next hhome =>
      refine ⟨rfl, fun b hb => ?_⟩
      have : ¬(b = slot.toNat ∧ s.isHome b = true) := fun h => hhome (h.1 ▸ h.2)
      simp [this]
  · rw [exec_reclaim h, takeReclaim_server hhome hl hrole hq]
    refine ⟨fun hbusy => congrArg _ ((if_neg hbusy).trans rfl), fun hidle hroom => ?_⟩
    rw [if_pos hidle]
    have hctx : (s.modCtx i fun c => { c with pendingReturn := true }).ctx i = { s.ctx i with pendingReturn := true } :=
      State.ctx_modCtx_self _ _ _ hi
    have returns : sendReturn i (s.modCtx i fun c => { c with pendingReturn := true })
        = (s.modCtx i fun c => { c with pendingReturn := true }).send (.returnSlot slot 3 s.me) := by
      rw [sendReturn, hctx, State.slotOf, hctx]
      dsimp only
      rw [hslot, Option.getD_some, ofNat_slot]
      rfl
    refine ⟨_, rfl, ?_, fun n hn => ?_, ?_, ?_⟩
    · rw [returns, State.send_ctx, hctx]
    · rw [returns, State.send_ctx, State.ctx_modCtx_ne _ _ _ _ (Ne.symm hn)]
    · rw [returns, State.send_pool, State.modCtx_pool]
    · rw [returns, State.send_of_room (s := s.modCtx i _) hroom]
      rfl
  · refine ⟨_, (exec_eq_effect _ _).trans (congrArg _ (effect_reclaimAgeExpiry hs hl hslot hrole hr hage hq)), rfl, rfl, ?_⟩
    rw [State.send_of_room hroom]

/-! ## Configuration messages -/

/-- A message of the card that asks this station. -/
theorem addressed_of {s : State} {target : BitVec 4} (h : target.toNat = s.profile.k ∨ target = 15) :
    addressed s target = true := by simpa [addressed] using h

theorem clampNat_eq {low high : Nat} (h : low ≤ high) (v : Nat) : clampNat low high v = max low (min high v) := by
  unfold clampNat
  split
  · omega
  · split <;> omega

theorem clampInt_eq {low high : Int} (h : low ≤ high) (v : Int) : clampInt low high v = max low (min high v) := by
  unfold clampInt
  omega

/-- CONFIG REFUSED changes the queue alone (R178). -/
theorem refuseConfig_of_room {s : State} {kind index : Nat} (hkind : kind < 16) (hindex : index < 8)
    (hmask : maskBit s.profile.noticeMask 9 = true) (hroom : s.lane.queue.length < 16) :
    (refuseConfig kind index s).profile = s.profile ∧ (refuseConfig kind index s).highway = s.highway
      ∧ (refuseConfig kind index s).table = s.table ∧ (refuseConfig kind index s).pool = s.pool
      ∧ (refuseConfig kind index s).lane.queue
        = insertEntry ⟨.notice 9 (BitVec.ofNat 16 ((kind * 8 + index) * 512)) s.me, s.frame, none⟩ s.lane.queue := by
  have layout : packLeft 16 [(4, kind), (3, index)] = (kind * 8 + index) * 512 := by
    simp only [packLeft, packed, widthOf, List.foldl]
    omega
  rw [refuseConfig, State.notify_of_mask hmask, layout, State.send_of_room hroom]
  exact ⟨rfl, rfl, rfl, rfl, rfl⟩

/-- Settles O59: stored and clamped in CONFIG, refused in RUN. -/
theorem configurationMessages : Obligations.ConfigurationMessages := by
  unfold Obligations.ConfigurationMessages
  intro s target k h haddr
  have hk : k = 15 := h.2.1
  have addr := addressed_of haddr
  refine ⟨fun index budget reach stp switches sendT recvT sendG recvG => ?_, fun mask idle count c1 c2 c3 c4 => ?_⟩
  · have takes : exec (.profileMessage target index budget reach stp switches sendT recvT sendG recvG k) s
        = .next (takeProfile index.toNat (storedProfile budget reach stp switches sendT recvT sendG recvG) s) :=
      congrArg Host.Outcome.next ((Laws.hearsCard_delivers
        (.profile target index budget reach stp switches sendT recvT sendG recvG k) s k h rfl
        (by rw [hk]; rfl)).trans (if_pos addr))
    rw [takes]
    refine ⟨fun hs hlen => ?_, fun hs hmask hroom => ?_⟩
    · have stored : ∀ p, takeProfile index.toNat p s
          = { s with profile := { s.profile with profiles := s.profile.profiles.set index.toNat p } } := fun p => by
        rw [takeProfile, hs]
      have hindex : index.toNat < s.profile.profiles.length := by rw [hlen]; exact index.isLt
      refine ⟨_, _, congrArg _ (stored _), rfl, ?_, rfl, clampNat_eq (by decide) _, clampNat_eq (by decide) _,
        ?_, ?_, ?_, ?_, ?_, ?_, ?_, clampInt_eq (by decide) _, clampInt_eq (by decide) _⟩
      · simp [State.profileAt, List.getD_eq_getElem?_getD, hindex]
      all_goals simp [storedProfile, BitVec.getMsbD, clampNat_eq]
    · rw [takeProfile, hs]
      exact ⟨_, rfl, refuseConfig_of_room (by decide) index.isLt hmask hroom⟩
  · have takes : exec (.runMessage target mask idle count c1 c2 c3 c4 k) s
        = .next (takeRun mask idle.toNat (storedCodes count [c1, c2, c3, c4]) s) :=
      congrArg Host.Outcome.next ((Laws.hearsCard_delivers (.run target mask idle count c1 c2 c3 c4 k) s k h rfl
        (by rw [hk]; rfl)).trans (if_pos addr))
    rw [takes]
    refine ⟨fun hs => ?_, fun hs hmask hroom => ?_⟩
    · rw [takeRun, hs]
      refine ⟨_, rfl, rfl, ?_, rfl, rfl, rfl, rfl⟩
      rw [storedCodes, clampNat_eq (by decide), clampNat_eq (by decide)]
    · rw [takeRun, hs]
      exact ⟨_, rfl, refuseConfig_of_room (by decide) (by decide) hmask hroom⟩

end Sys2Proof.Machine

namespace Sys2Proof.Machine

open Sys2Proof

/-! ## Fields in a row (R139, R183) -/

theorem foldl_add_width (fs : List Field) (w : Nat) : fs.foldl (fun w f => w + f.1) w = w + widthOf fs := by
  unfold widthOf
  induction fs generalizing w with
  | nil => rfl
  | cons f fs ih => rw [List.foldl_cons, List.foldl_cons, ih, ih (0 + f.1)]; omega

theorem widthOf_cons (f : Field) (fs : List Field) : widthOf (f :: fs) = f.1 + widthOf fs := by
  rw [widthOf, List.foldl_cons, foldl_add_width]
  omega

theorem widthOf_append (fs gs : List Field) : widthOf (fs ++ gs) = widthOf fs + widthOf gs := by
  rw [widthOf, List.foldl_append, foldl_add_width]
  rfl

theorem foldl_packed (fs : List Field) (v : Nat) :
    fs.foldl (fun v f => v * 2 ^ f.1 + f.2 % 2 ^ f.1) v = v * 2 ^ widthOf fs + packed fs := by
  unfold packed
  induction fs generalizing v with
  | nil => simp [widthOf]
  | cons f fs ih =>
    rw [List.foldl_cons, List.foldl_cons, ih, ih (0 * 2 ^ f.1 + _), widthOf_cons, Nat.pow_add]
    ring

theorem packed_cons (f : Field) (fs : List Field) : packed (f :: fs) = f.2 % 2 ^ f.1 * 2 ^ widthOf fs + packed fs := by
  rw [packed, List.foldl_cons, foldl_packed, Nat.zero_mul, Nat.zero_add]

theorem packed_append (fs gs : List Field) : packed (fs ++ gs) = packed fs * 2 ^ widthOf gs + packed gs := by
  rw [packed, List.foldl_append, foldl_packed]
  rfl

theorem packed_lt (fs : List Field) : packed fs < 2 ^ widthOf fs := by
  induction fs with
  | nil => decide
  | cons f fs ih =>
    have hf : f.2 % 2 ^ f.1 < 2 ^ f.1 := Nat.mod_lt _ (Nat.two_pow_pos _)
    rw [packed_cons, widthOf_cons, Nat.pow_add]
    calc f.2 % 2 ^ f.1 * 2 ^ widthOf fs + packed fs
        < f.2 % 2 ^ f.1 * 2 ^ widthOf fs + 2 ^ widthOf fs := by omega
      _ = (f.2 % 2 ^ f.1 + 1) * 2 ^ widthOf fs := by ring
      _ ≤ 2 ^ f.1 * 2 ^ widthOf fs := Nat.mul_le_mul_right _ hf

theorem packLeft_lt {total : Nat} {fs : List Field} (h : widthOf fs ≤ total) : packLeft total fs < 2 ^ total := by
  rw [packLeft, ← Nat.add_sub_cancel' h, Nat.add_sub_cancel_left, Nat.pow_add]
  exact Nat.mul_lt_mul_of_pos_right (packed_lt fs) (Nat.two_pow_pos _)

theorem widthOf_take_le {i w v : Nat} {fs : List Field} (hfs : fs[i]? = some (w, v)) :
    widthOf (fs.take i) + w ≤ widthOf fs := by
  obtain ⟨hi, hget⟩ := List.getElem?_eq_some_iff.1 hfs
  have split : fs = fs.take i ++ (w, v) :: fs.drop (i + 1) := by
    rw [← hget, ← List.drop_eq_getElem_cons hi, List.take_append_drop]
  have := congrArg widthOf split
  rw [widthOf_append, widthOf_cons] at this
  dsimp only at this
  omega

/-- Each field stands where the widths before it put it. -/
theorem packLeft_field {total i w v : Nat} {fs : List Field} (hfs : fs[i]? = some (w, v)) (h : widthOf fs ≤ total) :
    packLeft total fs / 2 ^ (total - widthOf (fs.take i) - w) % 2 ^ w = v % 2 ^ w := by
  obtain ⟨hi, hget⟩ := List.getElem?_eq_some_iff.1 hfs
  have split : fs = fs.take i ++ (w, v) :: fs.drop (i + 1) := by
    rw [← hget, ← List.drop_eq_getElem_cons hi, List.take_append_drop]
  generalize fs.take i = before, fs.drop (i + 1) = after at split ⊢
  subst split
  rw [widthOf_append, widthOf_cons] at h
  have hexp : total - widthOf before - w = (total - widthOf (before ++ (w, v) :: after)) + widthOf after := by
    rw [widthOf_append, widthOf_cons]
    dsimp only at *
    omega
  rw [hexp, packLeft, Nat.pow_add, ← Nat.div_div_eq_div_mul, Nat.mul_div_cancel _ (Nat.two_pow_pos _), packed_append,
    packed_cons, widthOf_cons, Nat.pow_add, ← Nat.add_assoc, ← Nat.mul_assoc, ← Nat.add_mul,
    Nat.mul_comm _ (2 ^ widthOf after), Nat.mul_add_div (Nat.two_pow_pos _), Nat.div_eq_of_lt (packed_lt after),
    Nat.add_zero]
  rw [Nat.mul_comm, Nat.mul_add_mod, Nat.mod_mod]

/-! ### The cells of messages -/

/-- Kind and fields of a message, as its cell holds them (R139). -/
def cellFields (m : Msg) : List Field := (4, m.kind) :: m.fields

theorem cellFields_width (m : Msg) : widthOf (cellFields m) ≤ 112 := by
  rw [cellFields, widthOf_cons]
  exact (Laws.MessageFits.fits m).1

theorem toNat_cellBody (m : Msg) : (cellBody m).toNat = packLeft 112 (cellFields m) := by
  rw [cellBody, BitVec.toNat_ofNat]
  exact Nat.mod_eq_of_lt (packLeft_lt (cellFields_width m))

theorem extract_cellOf (m : Msg) : (cellOf m).extractLsb' 16 112 = cellBody m := by
  rw [cellOf, BitVec.extractLsb'_append_eq_of_le (by decide)]
  simp

/-- Each field is read back from its place (R139). -/
theorem fieldAt_cellOf {m : Msg} (i : Nat) {w : Nat} {x : BitVec w} (hx : (cellFields m)[i]? = some (w, x.toNat)) :
    fieldAt (cellOf m) (widthOf ((cellFields m).take i)) w = x := by
  have hw := (widthOf_take_le hx).trans (cellFields_width m)
  have shift : 128 - widthOf ((cellFields m).take i) - w = 16 + (112 - widthOf ((cellFields m).take i) - w) := by omega
  have body : (cellOf m).toNat / 2 ^ 16 = packLeft 112 (cellFields m) := by
    have := congrArg BitVec.toNat (extract_cellOf m)
    rw [BitVec.extractLsb'_toNat, toNat_cellBody, Nat.shiftRight_eq_div_pow] at this
    rw [← this, Nat.mod_eq_of_lt (by omega)]
  refine BitVec.eq_of_toNat_eq ?_
  rw [fieldAt, BitVec.extractLsb'_toNat, Nat.shiftRight_eq_div_pow, shift, Nat.pow_add, ← Nat.div_div_eq_div_mul, body,
    packLeft_field hx (cellFields_width m), Nat.mod_eq_of_lt x.isLt]

theorem checkPasses_cellOf (m : Msg) : checkPasses (cellOf m) = true := by
  rw [checkPasses, extract_cellOf, beq_iff_eq, cellOf, BitVec.extractLsb'_append_eq_of_add_le (by decide)]
  simp

theorem kind_lt (m : Msg) : m.kind < 16 := by cases m <;> simp [Msg.kind]

theorem fieldAt_kind (m : Msg) : fieldAt (cellOf m) 0 4 = BitVec.ofNat 4 m.kind := by
  have hkind : m.kind = (BitVec.ofNat 4 m.kind).toNat := by
    rw [BitVec.toNat_ofNat, Nat.mod_eq_of_lt (kind_lt m)]
  exact fieldAt_cellOf 0 (by rw [← hkind]; rfl)

/-- Every message is read back from its own cell (R143). -/
theorem parseCell_cellOf (m : Msg) : parseCell (cellOf m) = some m := by
  have field := @fieldAt_cellOf m
  unfold parseCell
  dsimp only
  rw [fieldAt_kind, BitVec.toNat_ofNat, Nat.mod_eq_of_lt (kind_lt m)]
  cases m with
  | notice => exact congrArg some ((Msg.notice.injEq ..).mpr ⟨field 1 rfl, field 2 rfl, field 3 rfl⟩)
  | report => exact congrArg some ((Msg.report.injEq ..).mpr ⟨field 1 rfl, field 2 rfl, field 3 rfl, field 4 rfl⟩)
  | query => exact congrArg some ((Msg.query.injEq ..).mpr ⟨field 1 rfl, field 2 rfl, field 3 rfl, field 4 rfl⟩)
  | run => exact congrArg some ((Msg.run.injEq ..).mpr ⟨field 1 rfl, field 2 rfl, field 3 rfl, field 4 rfl,
      field 5 rfl, field 6 rfl, field 7 rfl, field 8 rfl, field 9 rfl⟩)
  | profile => exact congrArg some ((Msg.profile.injEq ..).mpr ⟨field 1 rfl, field 2 rfl, field 3 rfl, field 4 rfl,
      field 5 rfl, field 6 rfl, field 7 rfl, field 8 rfl, field 9 rfl, field 10 rfl, field 11 rfl⟩)
  | slotControl => exact congrArg some ((Msg.slotControl.injEq ..).mpr ⟨field 1 rfl, field 2 rfl, field 3 rfl,
      field 4 rfl⟩)
  | offer => exact congrArg some ((Msg.offer.injEq ..).mpr ⟨field 1 rfl, field 2 rfl, field 3 rfl, field 4 rfl,
      field 5 rfl⟩)
  | reclaim => exact congrArg some ((Msg.reclaim.injEq ..).mpr ⟨field 1 rfl, field 2 rfl⟩)
  | adopt => exact congrArg some ((Msg.adopt.injEq ..).mpr ⟨field 1 rfl, field 2 rfl, field 3 rfl⟩)
  | bid => exact congrArg some ((Msg.bid.injEq ..).mpr ⟨field 1 rfl, field 2 rfl, field 3 rfl⟩)
  | grant => exact congrArg some ((Msg.grant.injEq ..).mpr ⟨field 1 rfl, field 2 rfl, field 3 rfl⟩)
  | returnSlot => exact congrArg some ((Msg.returnSlot.injEq ..).mpr ⟨field 1 rfl, field 2 rfl, field 3 rfl⟩)

/-- Of two numbers of four bits the greater holds the 1 where they first differ. -/
theorem first_difference_of_lt : ∀ x y : BitVec 4, x < y → ∃ b < 4, y.getMsbD b = true ∧ x.getMsbD b = false
    ∧ ∀ a < b, y.getMsbD a = x.getMsbD a := by decide

/-- The first four cell bits are the kind code (R139). -/
theorem getMsbD_cellOf (m : Msg) {b : Nat} (hb : b < 4) : (cellOf m).getMsbD b = (BitVec.ofNat 4 m.kind).getMsbD b := by
  have place : 128 - (128 - 0 - 4 + 4 - b) = b := by omega
  rw [← fieldAt_kind, fieldAt, BitVec.getMsbD_extractLsb', place, decide_eq_true hb, decide_eq_true (by omega)]
  rfl

/-- Settles O10: the fields stand in the cell one after another, the kind code first. -/
theorem cellsReadBackAndRank : Obligations.CellsReadBackAndRank := by
  unfold Obligations.CellsReadBackAndRank
  refine ⟨fun m => ⟨checkPasses_cellOf m, parseCell_cellOf m,
    (hasSurplus_eq_false_iff (checkPasses_cellOf m)).2 rfl⟩, fun m m' h => ⟨?_, ?_⟩⟩
  · have kind : ∀ m, m.kind = (cellOf m).toNat / 2 ^ 124 := fun m => by
      have := congrArg BitVec.toNat (fieldAt_kind m)
      rw [fieldAt, BitVec.extractLsb'_toNat, Nat.shiftRight_eq_div_pow, BitVec.toNat_ofNat, Nat.mod_eq_of_lt (kind_lt m),
        Nat.mod_eq_of_lt (by omega)] at this
      exact this.symm
    rw [kind m, kind m'] at h
    omega
  · obtain ⟨b, hb, h1, h0, hsame⟩ := first_difference_of_lt (BitVec.ofNat 4 m'.kind) (BitVec.ofNat 4 m.kind) (by
      rw [BitVec.lt_def, BitVec.toNat_ofNat, BitVec.toNat_ofNat, Nat.mod_eq_of_lt (kind_lt m),
        Nat.mod_eq_of_lt (kind_lt m')]
      exact h)
    refine ⟨b, hb, ?_, ?_, fun a ha => ?_⟩
    · rw [getMsbD_cellOf m hb, h1]
    · rw [getMsbD_cellOf m' hb, h0]
    · rw [getMsbD_cellOf m (by omega), getMsbD_cellOf m' (by omega), hsame a ha]

end Sys2Proof.Machine

namespace Sys2Proof.Machine

open Sys2Proof

/-! ## Report bodies (R183) -/

/-! ### Sets of segments as bits -/

theorem insertNum_sorted (x : Nat) {xs : List Nat} (h : xs.Pairwise (· < ·)) : (insertNum x xs).Pairwise (· < ·) := by
  induction xs with
  | nil => simp [insertNum]
  | cons y ys ih =>
    have ⟨hy, hys⟩ := List.pairwise_cons.1 h
    unfold insertNum
    split
    · next hxy => exact List.pairwise_cons.2 ⟨fun z hz => (List.mem_cons.1 hz).elim (· ▸ hxy) fun hz => hxy.trans (hy z hz), h⟩
    · split
      · exact h
      · refine List.pairwise_cons.2 ⟨fun z hz => ?_, ih hys⟩
        rcases (Laws.mem_insertNum x z ys).1 hz with rfl | hz
        · omega
        · exact hy z hz

theorem sortNums_sorted (xs : List Nat) : (sortNums xs).Pairwise (· < ·) := by
  induction xs with
  | nil => exact .nil
  | cons x xs ih => exact insertNum_sorted x ih

/-- Bits added in ascending order are the members of the list. -/
theorem testBit_foldl_two_pow {l : List Nat} {m : Nat} (hl : l.Pairwise (· < ·)) (hm : ∀ x ∈ l, m < 2 ^ x) (j : Nat) :
    (l.foldl (fun m j => m + 2 ^ j) m).testBit j = true ↔ m.testBit j = true ∨ j ∈ l := by
  induction l generalizing m with
  | nil => simp
  | cons x xs ih =>
    obtain ⟨hx, hxs⟩ := List.pairwise_cons.1 hl
    have hmx := hm x (by simp)
    have add : m + 2 ^ x = 2 ^ x ||| m := by
      have := Nat.two_pow_add_eq_or_of_lt hmx 1
      rw [Nat.mul_one] at this
      omega
    rw [List.foldl_cons, ih hxs fun y hy => ?_, add, Nat.testBit_or, Bool.or_eq_true, Nat.testBit_two_pow, decide_eq_true_eq,
      List.mem_cons, eq_comm (a := x)]
    · tauto
    · calc m + 2 ^ x < 2 ^ x + 2 ^ x := by omega
        _ = 2 ^ (x + 1) := by ring
        _ ≤ 2 ^ y := Nat.pow_le_pow_right (by decide) (hx y hy)

theorem testBit_segmentBits (js : List Nat) (j : Nat) : (segmentBits js).testBit j = true ↔ j ∈ js := by
  rw [segmentBits, testBit_foldl_two_pow (sortNums_sorted js) (fun x _ => Nat.two_pow_pos x), Laws.mem_sortNums]
  simp

/-- The 16 bits of a set of segments (R183). -/
theorem segmentBits_bit (js : List Nat) {j : Nat} (hj : j < 16) :
    (BitVec.ofNat 16 (segmentBits js)).getLsbD j = true ↔ j ∈ js := by
  rw [BitVec.getLsbD_ofNat, decide_eq_true hj, Bool.true_and, testBit_segmentBits]

/-! ### The pages -/

theorem toNat_append_add {n m : Nat} (x : BitVec n) (y : BitVec m) : (x ++ y).toNat = x.toNat * 2 ^ m + y.toNat := by
  rw [BitVec.toNat_append, ← Nat.shiftLeft_add_eq_or_of_lt y.isLt, Nat.shiftLeft_eq]

/-- A body is the bits whose number its fields spell. -/
theorem body_eq {fs : List Field} {x : BitVec 88} (h : packLeft 88 fs = x.toNat) : BitVec.ofNat 88 (packLeft 88 fs) = x := by
  rw [h, BitVec.ofNat_toNat, BitVec.setWidth_eq]

theorem toNat_mod_two (b : Bool) : b.toNat % 2 = b.toNat := by cases b <;> rfl

theorem Role.code_eq (r : Role) : r.code = [Role.homeServing, .homeOffering, .handed, .reclaiming, .guestFree, .reserved,
    .taken, .actingHome, .returning].idxOf r := by cases r <;> rfl

theorem CallState.code_eq (st : CallState) :
    st.code = [CallState.notServing, .idle, .search, .track, .bypass, .disabled].idxOf st := by cases st <;> rfl

theorem BlockState.code_eq (st : BlockState) :
    st.code = [BlockState.free, .assigned, .reserved, .spare, .failed].idxOf st := by cases st <;> rfl

theorem AtLimit.code_eq (l : AtLimit) : l.code = [AtLimit.clear, .lower, .upper].idxOf l := by cases l <;> rfl

theorem identity_body (s : State) : BitVec.ofNat 88 (packLeft 88 ((2, 0) :: pageIdentity s))
    = 0#2 ++ 0x5B3#12 ++ 0x6A4#12 ++ 1#4 ++ BitVec.ofNat 3 s.profile.k ++ BitVec.ofNat 4 s.profile.n
      ++ BitVec.ofBool s.profile.clamped ++ 64#7 ++ 264#9 ++ 0#34 := by
  refine body_eq ?_
  simp only [toNat_append_add, BitVec.toNat_ofNat, BitVec.toNat_ofBool]
  simp [packLeft, packed, widthOf, pageIdentity, toNat_mod_two, Config.vendorCode, Config.partCode, Config.revision,
    Config.contexts, Config.tapBlocks]

/-- The state of a station that answers (R183). -/
theorem station_bits (st : StationState) : st.receives = true →
    BitVec.ofNat 3 st.code = match st with | .listen => 1#3 | .config => 2#3 | _ => 3#3 := by
  cases st <;> simp [StationState.receives, StationState.code]

theorem pool_body (s : State) : BitVec.ofNat 88 (packLeft 88 ((2, 0) :: pagePool s))
    = 0#2 ++ BitVec.ofNat 3 s.profile.station.code ++ BitVec.ofNat 9 (s.countBlocks .free)
      ++ BitVec.ofNat 9 (s.countBlocks .assigned) ++ BitVec.ofNat 9 (s.countBlocks .reserved)
      ++ BitVec.ofNat 4 (s.countBlocks .spare) ++ BitVec.ofNat 9 (s.countBlocks .failed)
      ++ BitVec.ofNat 7 s.pool.shortfall.length ++ 0#36 := by
  refine body_eq ?_
  simp only [toNat_append_add, BitVec.toNat_ofNat]
  simp [packLeft, packed, widthOf, pagePool]

theorem counts_body (s : State) : BitVec.ofNat 88 (packLeft 88 ((2, 0) :: pageCounts s))
    = 0#2 ++ BitVec.ofNat 16 s.lane.discards ++ BitVec.ofNat 16 s.lane.drops ++ BitVec.ofNat 16 s.lane.clashes
      ++ BitVec.ofNat 16 s.lane.surplus ++ 0#22 := by
  refine body_eq ?_
  simp only [toNat_append_add, BitVec.toNat_ofNat]
  simp [packLeft, packed, widthOf, pageCounts]

theorem channelA_body (c : Context) : BitVec.ofNat 88 (packLeft 88 ((2, 0) :: pageChannelA c))
    = 0#2
      ++ BitVec.ofNat 4 ([Role.homeServing, .homeOffering, .handed, .reclaiming, .guestFree, .reserved, .taken,
          .actingHome, .returning].idxOf c.role)
      ++ BitVec.ofNat 3 ([CallState.notServing, .idle, .search, .track, .bypass, .disabled].idxOf c.callState)
      ++ BitVec.ofBool c.frozen ++ BitVec.ofBool c.transparent ++ BitVec.ofBool c.toneHold ++ BitVec.ofBool c.pendingReturn
      ++ BitVec.ofNat 3 c.profile ++ BitVec.ofNat 3 (c.serving.elim 0 (·.profile)) ++ BitVec.ofNat 4 (c.server.getD 15)
      ++ BitVec.ofNat 4 ((c.offer.bind (·.best)).elim 15 (·.1)) ++ BitVec.ofNat 8 ((c.offer.bind (·.best)).elim 0 (·.2))
      ++ BitVec.ofNat 16 (segmentBits (c.search.elim [] fun r => r.bound.map (·.1)))
      ++ BitVec.ofNat 16 (segmentBits (c.search.elim [] (·.explored)))
      ++ BitVec.ofNat 8 (c.search.elim 0 (·.pass)) ++ BitVec.ofNat 7 (c.search.elim 0 (·.dwell))
      ++ BitVec.ofNat 5 (c.reservation.elim (c.search.elim 0 (·.want)) (·.demand)) ++ 0#1 := by
  have best : (c.offer.bind (·.best)).getD (15, 0)
      = ((c.offer.bind (·.best)).elim 15 (·.1), (c.offer.bind (·.best)).elim 0 (·.2)) := by
    cases c.offer.bind (·.best) <;> rfl
  have want : wantShown c = c.reservation.elim (c.search.elim 0 (·.want)) (·.demand) := by
    unfold wantShown
    cases c.reservation <;> rfl
  rw [← Role.code_eq, ← CallState.code_eq]
  refine body_eq ?_
  simp only [toNat_append_add, BitVec.toNat_ofNat, BitVec.toNat_ofBool]
  simp [packLeft, packed, widthOf, pageChannelA, toNat_mod_two, best, want]

theorem signedField_toNat (w : Nat) (v : Int) : (v % 2 ^ w).toNat % 2 ^ w = (BitVec.ofInt w v).toNat := by
  have h : (v % 2 ^ w).toNat < 2 ^ w := by
    have := Int.emod_lt_of_pos v (show (0 : Int) < 2 ^ w by positivity)
    have := Int.emod_nonneg v (show (2 : Int) ^ w ≠ 0 by positivity)
    zify
    omega
  rw [Nat.mod_eq_of_lt h, BitVec.toNat_ofInt]
  norm_cast

theorem channelB_body (sv : Serving) {c : Context} (h : c.serving = some sv) :
    BitVec.ofNat 88 (packLeft 88 ((2, 0) :: pageChannelB c))
      = 0#2 ++ BitVec.ofInt 7 sv.send.gain ++ BitVec.ofInt 7 sv.receive.gain
        ++ BitVec.ofNat 2 ([AtLimit.clear, .lower, .upper].idxOf sv.send.limit)
        ++ BitVec.ofNat 2 ([AtLimit.clear, .lower, .upper].idxOf sv.receive.limit)
        ++ BitVec.ofNat 16 (reportNumber (sv.power / 256)) ++ BitVec.ofNat 16 (reportNumber sv.msSin)
        ++ BitVec.ofNat 16 (reportNumber sv.msErr) ++ BitVec.ofNat 16 (reportNumber sv.noise) ++ 0#4 := by
  have gain := signedField_toNat 7
  rw [← AtLimit.code_eq, ← AtLimit.code_eq]
  refine body_eq ?_
  simp only [toNat_append_add, BitVec.toNat_ofNat, ← gain]
  simp [packLeft, packed, widthOf, pageChannelB, h, signedField]

theorem block_body (t : TapBlock) : BitVec.ofNat 88 (packLeft 88 ((2, 0) :: pageBlock t))
    = 0#2 ++ BitVec.ofNat 3 ([BlockState.free, .assigned, .reserved, .spare, .failed].idxOf t.state)
      ++ BitVec.ofBool t.owner.isSome ++ BitVec.ofNat 7 (t.owner.elim 0 (·.slot)) ++ BitVec.ofBool t.segment.isSome
      ++ BitVec.ofNat 4 (t.segment.getD 0) ++ BitVec.ofNat 8 t.corrected ++ 0#62 := by
  rw [← BlockState.code_eq]
  refine body_eq ?_
  simp only [toNat_append_add, BitVec.toNat_ofNat, BitVec.toNat_ofBool]
  simp [packLeft, packed, widthOf, pageBlock, toNat_mod_two]

/-! ### The answer to a QUERY -/

/-- The body of a page (R180, R183). -/
def reportBody (s : State) (page argument : Nat) : BitVec 88 := BitVec.ofNat 88 (packLeft 88 (reportFields s page argument))

section Query

variable {s : State} {target k : BitVec 4} {page : BitVec 3} {argument : BitVec 9}

/-- A QUERY addressed here queues one REPORT and changes nothing else (R179). -/
theorem receive_query (h : s.hearsCard k) (haddr : target.toNat = s.profile.k ∨ target = 15)
    (hroom : s.lane.queue.length < 16) :
    receive (.query target page argument k) s = { s with lane := { s.lane with
      queue := insertEntry ⟨.report page argument (reportBody s page.toNat argument.toNat) s.me, s.frame, none⟩ s.lane.queue
      drops := min 65535 s.lane.drops } } := by
  have hk : k = 15 := h.2.1
  calc receive (.query target page argument k) s
      = answerQuery page argument s := (Laws.hearsCard_delivers (.query target page argument k) s k h rfl
        (by rw [hk]; rfl)).trans (if_pos (addressed_of haddr))
    _ = _ := by rw [answerQuery, State.send_of_room hroom]; rfl

end Query

/-- Settles O60: each page's body field by field, what other parties report, and senders that do not fit. -/
theorem queriesAndReports : Obligations.QueriesAndReports := by
  unfold Obligations.QueriesAndReports
  refine ⟨fun s target k argument c page h haddr hroom hc => ?_, fun s page argument body kind arg k h => ?_,
    fun s c m hm hr hfit => ?_⟩
  · have message : c.message? = some (.query target page argument k) := by
      rcases hc with ⟨rfl, rfl⟩ | ⟨rfl, rfl⟩ | ⟨rfl, rfl⟩ | ⟨rfl, rfl⟩ | ⟨rfl, rfl⟩ | ⟨rfl, hpage⟩
      exacts [rfl, rfl, rfl, rfl, rfl, if_pos hpage]
    have answers := receive_query (page := page) (argument := argument) h haddr hroom
    refine ⟨_, reportBody s page.toNat argument.toNat, (exec_eq_effect c s).trans (congrArg _
      ((Instr.effect_message message s).trans answers)), rfl, rfl, rfl, rfl, rfl, rfl, ?_, ?_, ?_, ?_, ?_, ?_, ?_, ?_⟩
    · rintro rfl
      exact identity_body s
    · rintro rfl rfl
      refine (pool_body s).trans ?_
      rw [station_bits _ h.1] <;> rfl
    · rintro rfl rfl
      exact counts_body s
    · intro i hl hlt
      have fields : ∀ f, channelPage s argument.toNat f = (2, 0) :: f (s.ctx i) := fun f => by
        rw [channelPage, if_neg (by omega), hl]
      refine ⟨?_, ?_, fun sv hsv => ?_⟩
      · rintro rfl
        refine ⟨BitVec.ofNat 16 (segmentBits _), BitVec.ofNat 16 (segmentBits _), fun j hj => ?_, fun j hj => segmentBits_bit _ hj,
          (congrArg (fun fs => BitVec.ofNat 88 (packLeft 88 fs)) (fields pageChannelA)).trans (channelA_body (s.ctx i))⟩
        rw [segmentBits_bit _ hj, State.boundOf]
        cases (s.ctx i).search <;> rfl
      · rintro rfl hnone
        refine (congrArg (fun fs => BitVec.ofNat 88 (packLeft 88 fs)) (fields pageChannelB)).trans ?_
        rw [pageChannelB, hnone]
        rfl
      · rintro rfl
        exact (congrArg (fun fs => BitVec.ofNat 88 (packLeft 88 fs)) (fields pageChannelB)).trans (channelB_body sv hsv)
    · rintro rfl hlt
      refine (congrArg (fun fs => BitVec.ofNat 88 (packLeft 88 fs)) ?_).trans (block_body (s.tapBlock argument.toNat))
      exact if_neg (Nat.not_le.2 hlt)
    · intro hpage hlt hl
      have unheld : ∀ f, channelPage s argument.toNat f = [(2, 1)] := fun f => by
        rw [channelPage, if_neg (by omega), hl]
      rcases hpage with rfl | rfl
      · exact congrArg (fun fs => BitVec.ofNat 88 (packLeft 88 fs)) (unheld pageChannelA)
      · exact congrArg (fun fs => BitVec.ofNat 88 (packLeft 88 fs)) (unheld pageChannelB)
    · intro hpage
      obtain ⟨n, hn⟩ := Nat.exists_eq_add_of_le' hpage
      rw [hn]
      rfl
    · rintro (⟨rfl, hargument⟩ | ⟨rfl | rfl, hargument⟩ | ⟨rfl, hargument⟩)
      · have : reportFields s 1 argument.toNat = [(2, 3)] := by
          rw [reportFields, if_neg (by omega), if_neg (by omega)]
        exact congrArg (fun fs => BitVec.ofNat 88 (packLeft 88 fs)) this
      · exact congrArg (fun fs => BitVec.ofNat 88 (packLeft 88 fs)) (if_pos hargument)
      · exact congrArg (fun fs => BitVec.ofNat 88 (packLeft 88 fs)) (if_pos hargument)
      · exact congrArg (fun fs => BitVec.ofNat 88 (packLeft 88 fs)) (if_pos hargument)
  · exact ⟨congrArg _ (Laws.hearsStation_delivers (.report page argument body k) s k h rfl (decide_eq_true h.2.1)),
      congrArg _ (Laws.hearsStation_delivers (.notice kind arg k) s k h rfl (decide_eq_true h.2.1))⟩
  · exact (exec_eq_effect c s).trans (congrArg _ ((Instr.effect_message hm s).trans (Laws.receive_unfit m s hr hfit)))

end Sys2Proof.Machine

namespace Sys2Proof.Machine

open Sys2Proof

/-! ## One sample of a served slot (R2, R12, R13, R45) -/

/-! ### Records that a sample touches twice -/

theorem State.setCtx_setCtx (s : State) (i : Nat) (c d : Context) : (s.setCtx i c).setCtx i d = s.setCtx i d := by
  simp [State.setCtx]

/-- Changed serving parts read back. -/
theorem State.ctx_modServing_some {s : State} {i : Nat} {sv : Serving} (h : (s.ctx i).serving = some sv) (f : Serving → Serving) :
    (s.modServing i f).ctx i = { s.ctx i with serving := some (f sv) } := by
  rw [State.modServing_of_some h, State.ctx_setCtx_self _ _ _ (State.lt_of_serving h)]

/-- Blocks are changed beside the contexts. -/
theorem State.setCtx_modBlock (s : State) (i b : Nat) (c : Context) (f : TapBlock → TapBlock) :
    (s.setCtx i c).modBlock b f = (s.modBlock b f).setCtx i c := rfl

theorem gatherGradients_setCtx (parts : List (Nat × Nat)) (e : Int) (window : List Int) (s : State) (i : Nat) (c : Context) :
    gatherGradients parts e window (s.setCtx i c) = (gatherGradients parts e window s).setCtx i c := by
  unfold gatherGradients
  induction parts generalizing s with
  | nil => rfl
  | cons jb parts ih =>
    rw [List.foldl_cons, List.foldl_cons, State.setCtx_modBlock]
    exact ih _

theorem driveSlot_modBlock (s : State) (slot b : Nat) (served : Bool) (f : TapBlock → TapBlock) :
    (driveSlot slot served s).modBlock b f = driveSlot slot served (s.modBlock b f) := rfl

theorem gatherGradients_driveSlot (parts : List (Nat × Nat)) (e : Int) (window : List Int) (s : State) (slot : Nat) (served : Bool) :
    gatherGradients parts e window (driveSlot slot served s) = driveSlot slot served (gatherGradients parts e window s) := by
  unfold gatherGradients
  induction parts generalizing s with
  | nil => rfl
  | cons jb parts ih =>
    rw [List.foldl_cons, List.foldl_cons, driveSlot_modBlock]
    exact ih _

/-- The gradients change tap blocks alone. -/
theorem gatherGradients_table (parts : List (Nat × Nat)) (e : Int) (window : List Int) (s : State) :
    (gatherGradients parts e window s).table = s.table := by
  unfold gatherGradients
  induction parts generalizing s with
  | nil => rfl
  | cons jb parts ih => exact ih _

theorem gatherGradients_queues (parts : List (Nat × Nat)) (e : Int) (window : List Int) (s : State) :
    (gatherGradients parts e window s).pool.fifo = s.pool.fifo
      ∧ (gatherGradients parts e window s).pool.shortfall = s.pool.shortfall
      ∧ (gatherGradients parts e window s).lane = s.lane := by
  unfold gatherGradients
  induction parts generalizing s with
  | nil => exact ⟨rfl, rfl, rfl⟩
  | cons jb parts ih => exact ih _

theorem gatherGradients_ctx (parts : List (Nat × Nat)) (e : Int) (window : List Int) (s : State) (k : Nat) :
    (gatherGradients parts e window s).ctx k = s.ctx k := by
  rw [State.ctx, gatherGradients_table]
  rfl

/-! ### Idle recognition -/

/-- The serving parts once idle recognition has heard a sample (R12, R13). -/
def heard (s : State) (rin sin : Byte) (sv : Serving) : Serving :=
  { sv with
    callPresent := sv.callPresent || !silent s.highway.idleCodes rin sin
    idleRun := if silent s.highway.idleCodes rin sin then countUp 4095 sv.idleRun else 0
    ending := silent s.highway.idleCodes rin sin && sv.callPresent
      && decide (s.highway.idleCount ≤ if silent s.highway.idleCodes rin sin then countUp 4095 sv.idleRun else 0) }

/-- Context i with the serving parts of idle recognition. -/
def hear (i : Nat) (rin sin : Byte) (sv : Serving) (s : State) : State :=
  s.setCtx i { s.ctx i with serving := some (heard s rin sin sv) }

theorem recognise_eq {s : State} {i : Nat} {sv : Serving} (hsv : (s.ctx i).serving = some sv) (rin sin : Byte) :
    recognise i rin sin s =
      if silent s.highway.idleCodes rin sin then
        if callEndDue (heard s rin sin sv) then endCall i (hear i rin sin sv s) else hear i rin sin sv s
      else if sv.callPresent then hear i rin sin sv s else callStarted i (hear i rin sin sv s) := by
  have set : s.modServing i (fun _ => heard s rin sin sv) = hear i rin sin sv s := State.modServing_of_some hsv _
  rw [recognise, hsv, ← set]
  rfl

/-- A sample within a call that does not complete the idle run (R13). -/
structure Serving.goesOn (sv : Serving) (s : State) (rin sin : Byte) : Prop where
  call : sv.callPresent = true
  run : silent s.highway.idleCodes rin sin = true → sv.idleRun + 1 < s.highway.idleCount

theorem Serving.goesOn.heard_eq {s : State} {rin sin : Byte} {sv : Serving} (h : sv.goesOn s rin sin) :
    heard s rin sin sv = { sv with
      idleRun := if silent s.highway.idleCodes rin sin = true then min 4095 (sv.idleRun + 1) else 0, ending := false } := by
  obtain ⟨call, run⟩ := h
  cases hq : silent s.highway.idleCodes rin sin with
  | false => simp [heard, hq, call]
  | true =>
    simp [heard, hq, call, countUp, run hq]

/-- Within a call, idle recognition writes the idle run alone. -/
theorem Serving.goesOn.recognise {s : State} {i : Nat} {rin sin : Byte} {sv : Serving} (h : sv.goesOn s rin sin)
    (hsv : (s.ctx i).serving = some sv) : recognise i rin sin s = hear i rin sin sv s := by
  have noEnd : callEndDue (heard s rin sin sv) = false := by simp [callEndDue, h.heard_eq]
  rw [recognise_eq hsv, noEnd, h.call]
  simp

/-! ### The estimate over the segments that take part -/

theorem tapSum_eq_sum (ts : List TapEntry) (xs : List Int) (n : Nat) (hn : xs.length ≤ n) :
    tapSum ts xs = ((List.range n).map fun k => (ts.getD k ⟨0, 0, 0⟩).h * xs.getD k 0).sum := by
  induction ts generalizing xs n with
  | nil =>
    have zero : ∀ k ∈ List.range n, (([] : List TapEntry).getD k ⟨0, 0, 0⟩).h * xs.getD k 0 = 0 := by simp
    rw [List.map_congr_left zero]
    simp [tapSum]
  | cons t ts ih =>
    cases xs with
    | nil => simp [tapSum]
    | cons x xs =>
      obtain ⟨m, rfl⟩ : ∃ m, n = m + 1 := ⟨n - 1, by simp at hn; omega⟩
      rw [tapSum, ih xs m (by simpa using hn), List.range_succ_eq_map, List.map_cons, List.sum_cons, List.map_map]
      rfl

theorem tapSum_windowOf (ts : List TapEntry) (window : List Int) (j : Nat) :
    tapSum ts (windowOf window j) =
      ((List.range 64).map fun k => (ts.getD k ⟨0, 0, 0⟩).h * window.getD (64 * j + k) 0).sum := by
  rw [tapSum_eq_sum ts _ 64 (by simp [windowOf])]
  exact congrArg List.sum (List.map_congr_left fun k hk => by rw [Laws.windowOf_getD _ _ _ (List.mem_range.1 hk)])

theorem echoEstimate_eq (s : State) (parts : List (Nat × Nat)) (window : List Int) :
    echoEstimate s parts window = s.estimateOver parts window := by
  have sums : parts.foldl (fun a jb => a + tapSum (s.tapBlock jb.2).entries (windowOf window jb.1)) 0 =
      (parts.map fun jb => tapSum (s.tapBlock jb.2).entries (windowOf window jb.1)).sum := by
    rw [List.sum_eq_foldl, List.foldl_map]
  rw [echoEstimate, State.estimateOver, sums]
  simp only [tapSum_windowOf]

/-- With nothing failed, every bound segment takes part (R44). -/
theorem takingPart_self (bound : List (Nat × Nat)) : takingPart bound bound [] = bound :=
  List.filter_eq_self.2 fun jb hjb => by
    simp only [List.contains_nil, Bool.not_false, Bool.and_true, List.any_eq_true]
    exact ⟨jb, hjb, by simp⟩

/-! ### The stages behind the tap reads -/

/-- The serving parts and the SOUT code of a sample in SEARCH or TRACK, over the segments `parts` (R42 to R76). -/
def sampleParts (s : State) (i : Nat) (rin sin : Byte) (bound : List Nat) (parts : List (Nat × Nat)) (sv : Serving) :
    Serving × Byte :=
  sendPath (s.ctx i) (s.profileOf i) sv (receivePath sv rin) bound (expand sin) (s.errorOver parts sv rin sin) (expand rin)

/-- The gradients of a sample are gathered when it contributes (R46, R47). -/
def gatherIf (p : Bool) (parts : List (Nat × Nat)) (e : Int) (window : List Int) (s : State) : State :=
  if p then gatherGradients parts e window s else s

/-- The sample of context i contributes to adaptation (R46). -/
def sampleContributes (s : State) (i : Nat) (rin : Byte) (sv sv' : Serving) : Bool :=
  contributes (s.ctx i) (refActive (receivePath sv rin).power) sv'.dtFlag

/-- The stages of a sample behind its tap reads, with the blocks bound at its start and the segments that failed. -/
def stagesOf (i : Nat) (rin sin : Byte) (atStart : List (Nat × Nat)) (failed : List Nat) (sv : Serving) (s : State) : State × CodePair :=
  let parts := takingPart atStart (s.boundOf i) failed
  let out := sampleParts s i rin sin (atStart.map (·.1)) parts sv
  ((gatherIf (sampleContributes s i rin sv out.1) parts (s.errorOver parts sv rin sin) (sv.windowAt rin) s).setCtx i
      { s.ctx i with serving := some { out.1 with failed } },
    ⟨(receivePath sv rin).rout, out.2⟩)

theorem gatherIf_ctx (p : Bool) (parts : List (Nat × Nat)) (e : Int) (window : List Int) (s : State) (k : Nat) :
    (gatherIf p parts e window s).ctx k = s.ctx k := by
  cases p with
  | false => rfl
  | true => exact gatherGradients_ctx parts e window s k

theorem gatherIf_outside (p : Bool) (parts : List (Nat × Nat)) (e : Int) (window : List Int) (s : State) :
    (gatherIf p parts e window s).outside = s.outside := by
  cases p with
  | false => rfl
  | true => exact outside_gatherGradients parts e window s

/-- Gathering works on the blocks alone, beside the contexts and the highway. -/
theorem gatherIf_hear (p : Bool) (parts : List (Nat × Nat)) (e : Int) (window : List Int) (s : State) (slot i : Nat) (rin sin : Byte)
    (sv : Serving) : (gatherIf p parts e window (hear i rin sin sv (driveSlot slot true s))).pool =
      (gatherIf p parts e window s).pool := by
  cases p with
  | false => rfl
  | true =>
    rw [gatherIf, if_pos rfl, hear, gatherGradients_setCtx, gatherGradients_driveSlot]
    rfl

theorem gatherIf_table (p : Bool) (parts : List (Nat × Nat)) (e : Int) (window : List Int) (s : State) :
    (gatherIf p parts e window s).table = s.table := by
  cases p with
  | false => rfl
  | true => exact gatherGradients_table parts e window s

/-- A sample is its tap reads and the stages behind them (R45). -/
theorem processSample_eq (i : Nat) (rin sin : Byte) (upsets : List TapUpset) {s u : State} {sv : Serving}
    (hu : readBlocks i (s.boundOf i) (strike upsets s) = u) (hsv : (u.ctx i).serving = some sv) :
    processSample i rin sin upsets s =
      stagesOf i rin sin (s.boundOf i) (failedSegments (strike upsets s) (s.boundOf i)) sv u := by
  have set : ∀ w : State, w.ctx i = u.ctx i → ∀ x : Serving,
      w.modServing i (fun _ => x) = w.setCtx i { u.ctx i with serving := some x } := fun w hw x => by
    rw [State.modServing_of_some (hw ▸ hsv), hw]
  rw [processSample, hu]
  simp only [hsv]
  rw [echoEstimate_eq]
  refine Prod.ext (set _ ?_ _) rfl
  exact gatherIf_ctx _ _ _ _ _ _

/-! ### A sample that ends no block -/

/-- The end of a sample that ends no block: the codes are placed and the block phase rises (R2, R45). -/
def endSample (slot i : Nat) (out : State × CodePair) : State :=
  (placeCodes slot out.2 out.1).modServing i fun sv => { sv with phase := sv.phase + 1 }

section Stages

variable {s u : State} {slot i : Nat} {sv v : Serving} {rin sin : Byte} {upsets : List TapUpset}

/-- A sample of a served slot, up to its block end (R2, R45). -/
theorem exec_sample (h : s.servesWith slot i sv) (locked : s.highway.sync = .locked) :
    sampleSlot slot rin sin upsets s = blockEndIfDue i (endSample slot i
      (processByState i rin sin upsets (recognise i rin sin (driveSlot slot true s)))) := by
  rw [sampleSlot, if_pos locked, h.servedBy]
  rfl

/-- A block that goes on ends with no sample of it (R45). -/
theorem blockEndIfDue_of_lt (hv : (s.ctx i).serving = some v) (hp : v.phase < 32) : blockEndIfDue i s = s :=
  whenDue_of_not_due hv (decide_eq_false (Nat.not_le.2 hp))

theorem CallState.processes_iff {st : CallState} : st.processes = true ↔ st = .search ∨ st = .track := by
  cases st <;> simp [CallState.processes]

theorem processByState_of_processes (h : (s.ctx i).callState.processes = true) :
    processByState i rin sin upsets s = processSample i rin sin upsets s := by
  rcases CallState.processes_iff.1 h with hc | hc <;> rw [processByState, hc]

/-- In the other call states the codes pass (R7). -/
theorem processByState_of_passes (h : (s.ctx i).callState.processes = false) :
    (processByState i rin sin upsets s).2 = ⟨rin, sin⟩ := by
  unfold processByState
  split
  · next hc => rw [hc] at h; cases h
  · next hc => rw [hc] at h; cases h
  all_goals rfl

/-! ### The pipeline of the slot -/

theorem driveSlot_pipeline (served : Bool) (hslot : slot < s.highway.pipeline.length) :
    (driveSlot slot served s).highway.pipeline.getD slot [] =
      (s.highway.pipeline.getD slot []).filter fun p => decide (s.frame < p.frame) := by
  simp [driveSlot, List.getD_eq_getElem?_getD, hslot]

theorem driveSlot_pipeline_ne (served : Bool) {k : Nat} (hk : k ≠ slot) :
    (driveSlot slot served s).highway.pipeline.getD k [] = s.highway.pipeline.getD k [] := by
  simp [driveSlot, List.getD_eq_getElem?_getD, List.getElem?_set_ne hk.symm]

/-- Of a served slot the pairs that are still to come stay, and the pair of this sample joins them (R2). -/
theorem endSample_pipeline {out : State × CodePair} (hh : out.1.highway = (driveSlot slot true s).highway)
    (hf : out.1.frame = s.frame) (hslot : slot < s.highway.pipeline.length) :
    (endSample slot i out).highway.pipeline.getD slot [] =
      (s.highway.pipeline.getD slot []).filter (fun p => decide (s.frame < p.frame)) ++ [⟨s.frame + 2, out.2⟩] := by
  have len : slot < (driveSlot slot true s).highway.pipeline.length := by simpa [driveSlot] using hslot
  rw [← driveSlot_pipeline true hslot]
  simp only [endSample, placeCodes, State.modServing_highway, hh, hf]
  simp [List.getD_eq_getElem?_getD, len]

theorem endSample_pipeline_ne {out : State × CodePair} (hh : out.1.highway = (driveSlot slot true s).highway) {k : Nat}
    (hk : k ≠ slot) : (endSample slot i out).highway.pipeline.getD k [] = s.highway.pipeline.getD k [] := by
  refine Eq.trans ?_ (driveSlot_pipeline_ne true hk)
  simp only [endSample, placeCodes, State.modServing_highway, hh]
  simp [List.getD_eq_getElem?_getD, List.getElem?_set_ne hk.symm]

theorem endSample_ctx {out : State × CodePair} (hv : (out.1.ctx i).serving = some v) :
    (endSample slot i out).ctx i = { out.1.ctx i with serving := some { v with phase := v.phase + 1 } } :=
  State.ctx_modServing_some (s := placeCodes slot out.2 out.1) hv _

theorem endSample_ctx_ne {out : State × CodePair} {k : Nat} (hk : k ≠ i) : (endSample slot i out).ctx k = out.1.ctx k :=
  State.ctx_modServing_ne _ _ _ _ hk.symm

theorem stagesOf_ctx {atStart : List (Nat × Nat)} {failed : List Nat} (hi : i < u.table.contexts.length) :
    (stagesOf i rin sin atStart failed v u).1.ctx i = { u.ctx i with
      serving := some { (sampleParts u i rin sin (atStart.map (·.1)) (takingPart atStart (u.boundOf i) failed) v).1 with failed } } :=
  State.ctx_setCtx_self _ _ _ (by rw [gatherIf_table]; exact hi)

theorem stagesOf_ctx_ne {atStart : List (Nat × Nat)} {failed : List Nat} {k : Nat} (hk : k ≠ i) :
    (stagesOf i rin sin atStart failed v u).1.ctx k = u.ctx k :=
  (State.ctx_setCtx_ne _ _ _ _ hk.symm).trans (gatherIf_ctx _ _ _ _ _ _)

/-- A sample in SEARCH or TRACK that ends no call and no block is its tap reads, the stages behind them and the placing of
its codes (R2, R45). -/
theorem exec_sample_stages (h : s.servesWith slot i sv) (locked : s.highway.sync = .locked)
    (proc : (s.ctx i).callState.processes = true) (on : sv.goesOn s rin sin) (phase : sv.phase + 1 < 32)
    (hu : readBlocks i (s.boundOf i) (strike upsets (hear i rin sin sv (driveSlot slot true s))) = u)
    (hsv : (u.ctx i).serving = some v) (hv : v.phase = sv.phase) :
    sampleSlot slot rin sin upsets s = endSample slot i (stagesOf i rin sin (s.boundOf i)
      (failedSegments (strike upsets (hear i rin sin sv (driveSlot slot true s))) (s.boundOf i)) v u) := by
  have hlt : i < u.table.contexts.length := State.lt_of_serving hsv
  have hears : recognise i rin sin (driveSlot slot true s) = hear i rin sin sv (driveSlot slot true s) :=
    Serving.goesOn.recognise (s := driveSlot slot true s) ⟨on.call, on.run⟩ h.2.2.2
  have self : (hear i rin sin sv (driveSlot slot true s)).ctx i =
      { s.ctx i with serving := some (heard s rin sin sv) } := State.ctx_setCtx_self _ _ _ h.lt
  have bound : (hear i rin sin sv (driveSlot slot true s)).boundOf i = s.boundOf i := by
    rw [State.boundOf, self]
    rfl
  have proc' := processByState_of_processes (s := hear i rin sin sv (driveSlot slot true s)) (rin := rin) (sin := sin)
    (upsets := upsets) (by rw [self]; exact proc)
  rw [exec_sample h locked, hears, proc', processSample_eq i rin sin upsets (by rw [bound]; exact hu) hsv, bound]
  have served := congrArg Context.serving (endSample_ctx (slot := slot) (out := stagesOf i rin sin (s.boundOf i)
    (failedSegments (strike upsets (hear i rin sin sv (driveSlot slot true s))) (s.boundOf i)) v u)
    (congrArg Context.serving (stagesOf_ctx hlt)))
  exact blockEndIfDue_of_lt served (by rw [← hv] at phase; exact phase)

/-- A plain sample: no tap read shows an error (R45). -/
theorem exec_sample_plain (h : s.plainSample slot i sv rin sin) :
    sampleSlot slot rin sin [] s = endSample slot i (stagesOf i rin sin (s.boundOf i) [] (heard s rin sin sv)
      (hear i rin sin sv (driveSlot slot true s))) := by
  obtain ⟨⟨serves, locked, proc, call, run, clean⟩, phase⟩ := h
  have self : (hear i rin sin sv (driveSlot slot true s)).ctx i =
      { s.ctx i with serving := some (heard s rin sin sv) } := State.ctx_setCtx_self _ _ _ serves.lt
  have noFail : failedSegments (strike [] (hear i rin sin sv (driveSlot slot true s))) (s.boundOf i) = [] :=
    failedSegments_clean _ _ clean
  have sound : ∀ jb ∈ (hear i rin sin sv (driveSlot slot true s)).boundOf i,
      ((hear i rin sin sv (driveSlot slot true s)).tapBlock jb.2).wrong = [] := by
    rw [State.boundOf, self]
    exact clean
  rw [exec_sample_stages (upsets := []) serves locked proc ⟨call, run⟩ phase (readBlocks_clean i _ _ sound) (congrArg Context.serving self) rfl,
    noFail, strike_nil]

end Stages

end Sys2Proof.Machine

namespace Sys2Proof.Machine

open Sys2Proof

/-! ## The rules of a plain sample (R10, R38 to R76, R116, R118, R129) -/

section Plain

/-- What a plain sample writes into the serving parts, and the SOUT code, over the blocks bound at its start. -/
def plainParts (s : State) (i : Nat) (rin sin : Byte) (sv : Serving) : Serving × Byte :=
  sampleParts s i rin sin ((s.boundOf i).map (·.1)) (s.boundOf i) (heard s rin sin sv)

/-- The state after a plain sample. -/
def plainSampled (s : State) (slot i : Nat) (rin sin : Byte) (sv : Serving) : State :=
  endSample slot i (stagesOf i rin sin (s.boundOf i) [] (heard s rin sin sv) (hear i rin sin sv (driveSlot slot true s)))

variable {s : State} {slot i : Nat} {sv : Serving} {rin sin : Byte}

theorem hear_ctx (h : i < s.table.contexts.length) :
    (hear i rin sin sv (driveSlot slot true s)).ctx i = { s.ctx i with serving := some (heard s rin sin sv) } :=
  State.ctx_setCtx_self _ _ _ h

theorem hear_boundOf (h : i < s.table.contexts.length) :
    (hear i rin sin sv (driveSlot slot true s)).boundOf i = s.boundOf i := by
  rw [State.boundOf, hear_ctx h]
  rfl

theorem hear_profileOf (hsv : (s.ctx i).serving = some sv) :
    (hear i rin sin sv (driveSlot slot true s)).profileOf i = s.profileOf i := by
  rw [State.profileOf, hear_ctx (State.lt_of_serving hsv), State.profileOf, hsv]
  rfl

/-- The stages read of the context only what idle recognition leaves alone. -/
theorem sampleParts_hear (hsv : (s.ctx i).serving = some sv) :
    sampleParts (hear i rin sin sv (driveSlot slot true s)) i rin sin ((s.boundOf i).map (·.1)) (s.boundOf i)
      (heard s rin sin sv) = plainParts s i rin sin sv := by
  rw [sampleParts, hear_profileOf hsv, hear_ctx (State.lt_of_serving hsv)]
  rfl

theorem plainSampled_ctx (hsv : (s.ctx i).serving = some sv) :
    (plainSampled s slot i rin sin sv).ctx i = { s.ctx i with
      serving := some { (plainParts s i rin sin sv).1 with failed := [], phase := sv.phase + 1 } } := by
  have hlt := State.lt_of_serving hsv
  have stages := stagesOf_ctx (u := hear i rin sin sv (driveSlot slot true s)) (v := heard s rin sin sv) (rin := rin) (sin := sin)
    (atStart := s.boundOf i) (failed := []) (by simpa [hear, State.setCtx, driveSlot] using hlt)
  rw [hear_boundOf hlt, takingPart_self, sampleParts_hear hsv] at stages
  rw [plainSampled, endSample_ctx (congrArg Context.serving stages), stages, hear_ctx hlt]
  rfl

theorem plainSampled_ctx_ne {k : Nat} (hk : k ≠ i) : (plainSampled s slot i rin sin sv).ctx k = s.ctx k := by
  rw [plainSampled, endSample_ctx_ne hk, stagesOf_ctx_ne hk]
  exact State.ctx_setCtx_ne _ _ _ _ hk.symm

theorem stagesOf_plain (hsv : (s.ctx i).serving = some sv) :
    stagesOf i rin sin (s.boundOf i) [] (heard s rin sin sv) (hear i rin sin sv (driveSlot slot true s)) =
      ((gatherIf (sampleContributes s i rin sv (plainParts s i rin sin sv).1) (s.boundOf i)
          (s.errorOver (s.boundOf i) sv rin sin) (sv.windowAt rin) (hear i rin sin sv (driveSlot slot true s))).setCtx i
        { s.ctx i with serving := some { (plainParts s i rin sin sv).1 with failed := [] } },
       ⟨(receivePath sv rin).rout, (plainParts s i rin sin sv).2⟩) := by
  have hlt := State.lt_of_serving hsv
  rw [stagesOf, hear_boundOf hlt, takingPart_self, sampleParts_hear hsv, hear_ctx hlt, sampleContributes, hear_ctx hlt]
  rfl

/-- The pool after a plain sample: its gradients are gathered when it contributes (R46, R47). -/
theorem plainSampled_pool (hsv : (s.ctx i).serving = some sv) :
    (plainSampled s slot i rin sin sv).pool =
      (gatherIf (sampleContributes s i rin sv (plainParts s i rin sin sv).1) (s.boundOf i)
        (s.errorOver (s.boundOf i) sv rin sin) (sv.windowAt rin) s).pool := by
  rw [plainSampled, stagesOf_plain hsv]
  exact gatherIf_hear _ _ _ _ _ _ _ _ _ _

theorem plainSampled_outside (hsv : (s.ctx i).serving = some sv) :
    (plainSampled s slot i rin sin sv).share = s.share ∧ (plainSampled s slot i rin sin sv).profile = s.profile
      ∧ (plainSampled s slot i rin sin sv).frame = s.frame := by
  have out := gatherIf_outside (sampleContributes s i rin sv (plainParts s i rin sin sv).1) (s.boundOf i)
    (s.errorOver (s.boundOf i) sv rin sin) (sv.windowAt rin) (hear i rin sin sv (driveSlot slot true s))
  rw [plainSampled, stagesOf_plain hsv]
  have share := State.outside_share out
  have profile := State.outside_profile out
  have frame := State.outside_frame out
  exact ⟨share, profile, frame⟩

/-- The codes of a plain sample join the pipeline of its slot (R2). -/
theorem plainSampled_codes (hsv : (s.ctx i).serving = some sv) (hslot : slot < s.highway.pipeline.length) :
    ((plainSampled s slot i rin sin sv).highway.pipeline.getD slot []).getLast? =
      some ⟨s.frame + 2, ⟨(receivePath sv rin).rout, (plainParts s i rin sin sv).2⟩⟩ := by
  have out := gatherIf_outside (sampleContributes s i rin sv (plainParts s i rin sin sv).1) (s.boundOf i)
    (s.errorOver (s.boundOf i) sv rin sin) (sv.windowAt rin) (hear i rin sin sv (driveSlot slot true s))
  have highway := State.outside_highway out
  have frame := State.outside_frame out
  rw [plainSampled, stagesOf_plain hsv, endSample_pipeline (s := s) highway frame hslot,
    List.getLast?_append]
  rfl

theorem plainSampled_queues (hsv : (s.ctx i).serving = some sv) :
    (plainSampled s slot i rin sin sv).pool.fifo = s.pool.fifo
      ∧ (plainSampled s slot i rin sin sv).pool.shortfall = s.pool.shortfall := by
  rw [plainSampled_pool hsv, gatherIf]
  split
  · obtain ⟨fifo, shortfall, -⟩ := gatherGradients_queues (s.boundOf i) (s.errorOver (s.boundOf i) sv rin sin) (sv.windowAt rin) s
    exact ⟨fifo, shortfall⟩
  · exact ⟨rfl, rfl⟩

theorem exec_plain {slot : BitVec 7} (h : s.plainSample slot.toNat i sv rin sin) :
    exec (.sample slot rin sin []) s = .next (plainSampled s slot.toNat i rin sin sv) :=
  congrArg Host.Outcome.next ((unlessHeld_of_ne h.1.1.ne_held).trans (exec_sample_plain h))

/-- The hangover after a sample in the terms of R61: twice the SIN magnitude against every history magnitude. -/
theorem nextHangover_eq (hangover : Nat) (history : List Int) (code : Byte) :
    nextHangover hangover (peakOf history) (expand code) =
      if ∀ x ∈ history, x.natAbs < 2 * (expand code).natAbs then 240 else hangover - 1 := by
  have pos : 0 < 2 * (expand code).natAbs := by
    have := (Laws.expand_range code).1
    omega
  have exceeds := (Laws.peakOf_lt history (2 * (expand code).natAbs)).trans (and_iff_right pos)
  rw [nextHangover]
  exact if_congr exceeds rfl rfl

end Plain

/-- Settles O24: the reference, P and the hangover are read off the stages of the sample. -/
theorem sampleReferenceAndDoubleTalk : Obligations.SampleReferenceAndDoubleTalk := by
  unfold Obligations.SampleReferenceAndDoubleTalk
  intro s slot rin sin i sv h hlen
  have hsv := h.1.1.2.2.2
  have self := plainSampled_ctx (slot := slot.toNat) (rin := rin) (sin := sin) hsv
  obtain ⟨fifo, shortfall⟩ := plainSampled_queues (slot := slot.toNat) (rin := rin) (sin := sin) hsv
  obtain ⟨share, profile, -⟩ := plainSampled_outside (slot := slot.toNat) (rin := rin) (sin := sin) hsv
  refine ⟨_, _, exec_plain h, congrArg Context.serving self, ?_, rfl, rfl, nextHangover_eq _ _ _, decide_eq_true_iff, rfl, rfl, rfl,
    rfl, rfl, by rw [self], by rw [self], fifo, shortfall, share, profile,
    fun k hk => plainSampled_ctx_ne hk⟩
  rw [plainSampled_codes hsv (by have := slot.isLt; omega)]
  rfl

/-! ### The send path -/

theorem floorSqrt_eq {top v : Nat} (h : v < (top + 1) * (top + 1)) : floorSqrt top v = Nat.sqrt v := by
  induction top with
  | zero =>
    obtain rfl : v = 0 := by omega
    rfl
  | succ top ih =>
    rw [floorSqrt]
    split
    · next hle => exact Nat.eq_sqrt.2 ⟨hle, h⟩
    · next hlt => exact ih (Nat.not_le.1 hlt)

theorem comfortNoise_eq {noise : Nat} (h : noise ≤ 16384) (u : Int) :
    comfortNoise u noise = roundDiv (u * Nat.sqrt (3 * noise)) 2048 := by
  rw [comfortNoise, noiseAmplitude, floorSqrt_eq (by omega)]

/-- The value the send gain takes: the error while OPEN, comfort noise or silence while CLOSED (R65, R69). -/
def sentValue (nlp : NlpState) (comfort : Bool) (e u : Int) (noise : Nat) : Int :=
  if nlp = .opened then e else if comfort then roundDiv (u * Nat.sqrt (3 * noise)) 2048 else 0

theorem sentValue_eq {noise : Nat} (h : noise ≤ 16384) (nlp : NlpState) (comfort : Bool) (e u : Int) :
    (match nlp with
      | .opened => e
      | .closed => if comfort then comfortNoise u noise else 0) = sentValue nlp comfort e u noise := by
  cases nlp with
  | opened => rfl
  | closed => rw [comfortNoise_eq h]; rfl

theorem gainStage_staged (l : Level) (v : Int) : l.staged v (gainStage l v).1 := by
  have peak : (gainStage l v).1.peak = (l.peak || decide (4095 < (roundDiv (v * linearGain l.gain) 4096).natAbs)) := rfl
  exact ⟨rfl, rfl, by rw [peak, Bool.or_eq_true, decide_eq_true_iff], rfl, rfl, rfl⟩

theorem nextNlp_closes {switch hold active dt : Bool} {inactive hangover : Nat} :
    nextNlp .opened switch hold active dt inactive hangover = .closed ↔
      switch = true ∧ hold = false ∧ active = true ∧ dt = false := by
  cases switch <;> cases hold <;> cases active <;> cases dt <;> simp [nextNlp]

theorem nextNlp_opens {switch hold active dt : Bool} {inactive hangover : Nat} :
    nextNlp .closed switch hold active dt inactive hangover = .opened ↔ dt = true ∨ hangover ≤ inactive := by
  simp only [nextNlp]
  split
  · next h => simpa using h
  · next h => simpa using h

theorem refActive_iff (power : Nat) : refActive power = true ↔ 256 ≤ power / 256 := decide_eq_true_iff

section SendPath

variable {s : State} {i : Nat} {sv : Serving} {rin sin : Byte}

/-- The send path of a plain sample: what the send gain takes (R65, R69, R75). -/
theorem plainParts_sent (h : sv.noise ≤ 16384) :
    let value := sentValue (plainParts s i rin sin sv).1.nlp (s.profileOf i).comfortNoise (s.errorOver (s.boundOf i) sv rin sin)
      (noiseValue (generatorRun 12 0 sv.generator).1) sv.noise
    (plainParts s i rin sin sv).2 = compress (gainStage sv.send value).2
      ∧ (plainParts s i rin sin sv).1.send = (gainStage sv.send value).1 := by
  dsimp only
  rw [← sentValue_eq h]
  exact ⟨rfl, rfl⟩

theorem plainParts_nlp : (plainParts s i rin sin sv).1.nlp =
    nextNlp sv.nlp (s.profileOf i).nlp (s.ctx i).toneHold (refActive (plainParts s i rin sin sv).1.power)
      (plainParts s i rin sin sv).1.dtFlag (plainParts s i rin sin sv).1.inactive (nlpHangover ((s.boundOf i).map (·.1))) := rfl

theorem plainParts_clean : (plainParts s i rin sin sv).1.block.clean =
    (sv.block.clean && !(plainParts s i rin sin sv).1.dtFlag) := rfl

theorem plainParts_activeSeen : (plainParts s i rin sin sv).1.block.activeSeen =
    (sv.block.activeSeen || refActive (plainParts s i rin sin sv).1.power) := rfl

theorem plainParts_tones : (plainParts s i rin sin sv).1.toneReceive =
      (if (s.profileOf i).tone then sv.toneReceive.gathered sv.phase (expand rin) else sv.toneReceive)
    ∧ (plainParts s i rin sin sv).1.toneSend =
      (if (s.profileOf i).tone then sv.toneSend.gathered sv.phase (expand sin) else sv.toneSend) := ⟨rfl, rfl⟩

end SendPath

/-- The serving parts with a sample in their tone sums, where the tone switch is on (R129). -/
def tonesGathered (p : Profile) (rin sin : Byte) (sv : Serving) : Serving :=
  if p.tone = true then { sv with toneReceive := sv.toneReceive.gathered sv.phase (expand rin)
                                  toneSend := sv.toneSend.gathered sv.phase (expand sin) } else sv

theorem tonesGathered_phase (p : Profile) (rin sin : Byte) (sv : Serving) : (tonesGathered p rin sin sv).phase = sv.phase := by
  unfold tonesGathered
  split <;> rfl

theorem disabledSample_ctx {s : State} {i : Nat} {sv : Serving} (hsv : (s.ctx i).serving = some sv) (rin sin : Byte) :
    (disabledSample i rin sin s).ctx i =
      { s.ctx i with serving := some (tonesGathered (s.profileOf i) rin sin sv) } := by
  unfold disabledSample tonesGathered
  split
  · exact State.ctx_modServing_some hsv _
  · rw [← hsv]

/-- What is heard of idle stands beside the tone sums. -/
theorem tonesGathered_heard (p : Profile) (rin sin : Byte) (sv : Serving) (run : Nat) :
    ({ tonesGathered p rin sin { sv with idleRun := run, ending := false } with
        phase := (tonesGathered p rin sin { sv with idleRun := run, ending := false }).phase + 1 } : Serving) =
      { tonesGathered p rin sin sv with idleRun := run, ending := false, phase := sv.phase + 1 } := by
  unfold tonesGathered
  split <;> rfl

theorem disabledSample_beside (i : Nat) (rin sin : Byte) (s : State) :
    (disabledSample i rin sin s).pool = s.pool ∧ (disabledSample i rin sin s).lane = s.lane
      ∧ ∀ k, k ≠ i → (disabledSample i rin sin s).ctx k = s.ctx k := by
  unfold disabledSample
  split
  · exact ⟨rfl, rfl, fun k hk => State.ctx_modServing_ne _ _ _ _ hk.symm⟩
  · exact ⟨rfl, rfl, fun _ _ => rfl⟩

/-- A sample in DISABLED gathers its tones alone, beside its codes and the idle run (R7, R54, R129). -/
theorem sample_disabled {s : State} {slot i : Nat} {sv : Serving} {rin sin : Byte} {upsets : List TapUpset}
    (h : s.servesWith slot i sv) (locked : s.highway.sync = .locked) (dis : (s.ctx i).callState = .disabled)
    (on : sv.goesOn s rin sin) (phase : sv.phase + 1 < 32) :
    (sampleSlot slot rin sin upsets s).ctx i = { s.ctx i with serving := some { tonesGathered (s.profileOf i) rin sin sv with
          idleRun := if silent s.highway.idleCodes rin sin = true then min 4095 (sv.idleRun + 1) else 0, ending := false
          phase := sv.phase + 1 } }
      ∧ (sampleSlot slot rin sin upsets s).pool = s.pool ∧ (sampleSlot slot rin sin upsets s).lane = s.lane
      ∧ ∀ k, k ≠ i → (sampleSlot slot rin sin upsets s).ctx k = s.ctx k := by
  have hears : recognise i rin sin (driveSlot slot true s) = hear i rin sin sv (driveSlot slot true s) :=
    Serving.goesOn.recognise (s := driveSlot slot true s) ⟨on.call, on.run⟩ h.2.2.2
  have self := hear_ctx (slot := slot) (rin := rin) (sin := sin) (sv := sv) h.lt
  have gathers : processByState i rin sin upsets (hear i rin sin sv (driveSlot slot true s)) =
      (disabledSample i rin sin (hear i rin sin sv (driveSlot slot true s)), ⟨rin, sin⟩) := by
    rw [processByState, self]
    simp only [dis]
  have ctx := disabledSample_ctx (congrArg Context.serving self) rin sin
  have ended := endSample_ctx (slot := slot)
    (out := (disabledSample i rin sin (hear i rin sin sv (driveSlot slot true s)), ⟨rin, sin⟩)) (congrArg Context.serving ctx)
  have profile : (hear i rin sin sv (driveSlot slot true s)).profileOf i = s.profileOf i := hear_profileOf h.2.2.2
  rw [exec_sample h locked, hears, gathers, blockEndIfDue_of_lt (congrArg Context.serving ended)]
  · refine ⟨?_, ?_, ?_, fun k hk => ?_⟩
    · rw [ended, ctx, self, Serving.goesOn.heard_eq on, profile, tonesGathered_heard]
    · exact (disabledSample_beside i rin sin _).1
    · exact (disabledSample_beside i rin sin _).2.1
    · rw [endSample_ctx_ne hk, (disabledSample_beside i rin sin _).2.2 k hk]
      exact State.ctx_setCtx_ne _ _ _ _ hk.symm
  · rw [tonesGathered_phase]
    exact phase

/-- Settles O25: the send path and the sums are read off the stages of the sample; in DISABLED the tone sums are all. -/
theorem sampleSendPath : Obligations.SampleSendPath := by
  unfold Obligations.SampleSendPath
  refine ⟨fun s slot rin sin i sv h hlen hnoise => ?_, fun s slot rin sin upsets i sv h locked dis call run phase => ?_⟩
  · have hsv := h.1.1.2.2.2
    have self := plainSampled_ctx (slot := slot.toNat) (rin := rin) (sin := sin) hsv
    obtain ⟨sout, send⟩ := plainParts_sent (s := s) (i := i) (rin := rin) (sin := sin) hnoise
    have nlp := plainParts_nlp (s := s) (i := i) (rin := rin) (sin := sin) (sv := sv)
    have active := refActive_iff (plainParts s i rin sin sv).1.power
    refine ⟨_, _, exec_plain h, congrArg Context.serving self, if_congr active rfl rfl, rfl, fun hn => ?_, fun hn => ?_,
      rfl, rfl, ?_, ?_, ⟨?_, gainStage_staged _ _, ?_⟩, fun ht => ⟨if_pos ht, if_pos ht⟩, fun ht => ?_⟩
    · rw [hn] at nlp
      rw [← active]
      exact nlp ▸ nextNlp_closes
    · rw [hn] at nlp
      refine (nlp ▸ nextNlp_opens : _ ↔ _).trans (or_congr_right ((Laws.nlpHangover_le _ _).trans (and_congr_right fun _ => ?_)))
      exact List.forall_mem_map
    · exact (congrArg (· = true) plainParts_clean).to_iff.trans (by simp)
    · exact (congrArg (· = true) plainParts_activeSeen).to_iff.trans ((Bool.or_eq_true _ _).to_iff.trans (or_congr_right active))
    · rw [plainSampled_codes hsv (by have := slot.isLt; omega), sout]
      rfl
    · exact send ▸ gainStage_staged _ _
    · exact ⟨if_neg (ht ▸ Bool.false_ne_true), if_neg (ht ▸ Bool.false_ne_true)⟩
  · obtain ⟨ctx, pool, lane, others⟩ := sample_disabled (upsets := upsets) h locked dis ⟨call, run⟩ phase
    exact ⟨_, congrArg Host.Outcome.next (unlessHeld_of_ne h.ne_held), ctx, pool, lane, others⟩

/-! ### The gradient sums -/

/-- Distinct blocks changed one after another: each is changed as it stood, and every other one stands. -/
theorem State.foldl_modBlock (f : Nat × Nat → TapBlock → TapBlock) (l : List (Nat × Nat)) (s : State)
    (distinct : (l.map (·.2)).Nodup) (inPool : ∀ jb ∈ l, jb.2 < s.pool.blocks.length) :
    (∀ jb ∈ l, (l.foldl (fun s jb => s.modBlock jb.2 (f jb)) s).tapBlock jb.2 = f jb (s.tapBlock jb.2))
      ∧ ∀ b, (∀ jb ∈ l, jb.2 ≠ b) → (l.foldl (fun s jb => s.modBlock jb.2 (f jb)) s).tapBlock b = s.tapBlock b := by
  induction l generalizing s with
  | nil => simp
  | cons x l ih =>
    obtain ⟨fresh, distinct⟩ := List.nodup_cons.1 distinct
    have other : ∀ jb ∈ l, jb.2 ≠ x.2 := fun jb hjb h => fresh (List.mem_map.2 ⟨jb, hjb, h⟩)
    obtain ⟨changed, stand⟩ := ih (s.modBlock x.2 (f x)) distinct fun jb hjb => by
      rw [State.modBlock_length]
      exact inPool jb (List.mem_cons_of_mem _ hjb)
    refine ⟨fun jb hjb => ?_, fun b hb => ?_⟩
    · rw [List.foldl_cons]
      rcases List.mem_cons.1 hjb with rfl | hjb
      · rw [stand _ other, State.tapBlock_modBlock_self _ _ _ (inPool jb (List.mem_cons_self ..))]
      · rw [changed jb hjb, State.tapBlock_modBlock_ne _ _ _ _ (other jb hjb).symm]
    · rw [List.foldl_cons, stand b fun jb hjb => hb jb (List.mem_cons_of_mem _ hjb),
        State.tapBlock_modBlock_ne _ _ _ _ (hb x (List.mem_cons_self ..))]

/-- A block's gradient sums with a sample's error in them (R47). -/
def TapBlock.gathering (e : Int) (window : List Int) (j : Nat) (t : TapBlock) : TapBlock :=
  { t with entries := addGradient e t.entries (windowOf window j), wrong := [] }

/-- The blocks after a contributing sample (R47). -/
theorem gatherGradients_tapBlock {s : State} {i : Nat} (h : s.boundDistinct i) (e : Int) (window : List Int) :
    (∀ jb ∈ s.boundOf i, (gatherGradients (s.boundOf i) e window s).tapBlock jb.2 =
        (s.tapBlock jb.2).gathering e window jb.1)
      ∧ ∀ b, (∀ jb ∈ s.boundOf i, jb.2 ≠ b) → (gatherGradients (s.boundOf i) e window s).tapBlock b = s.tapBlock b :=
  State.foldl_modBlock (fun jb => TapBlock.gathering e window jb.1) (s.boundOf i) s h.1 h.2

/-- A sample in SEARCH or TRACK contributes unless frozen, held by a tone, idle at the reference or in double-talk (R46). -/
theorem plain_contributes_iff {s : State} {slot i : Nat} {sv : Serving} {rin sin : Byte} (h : s.plainSample slot i sv rin sin) :
    sampleContributes s i rin sv (plainParts s i rin sin sv).1 = true ↔ (s.ctx i).frozen = false ∧ (s.ctx i).toneHold = false
      ∧ 256 ≤ (plainParts s i rin sin sv).1.power / 256 ∧ (plainParts s i rin sin sv).1.dtFlag = false := by
  have power : (plainParts s i rin sin sv).1.power = (receivePath sv rin).power := rfl
  simp [sampleContributes, contributes, h.1.2.2.1, power, refActive_iff, and_assoc]

/-- Settles O26: the gradients are gathered block by block over the bound blocks, which are distinct. -/
theorem sampleGathersGradients : Obligations.SampleGathersGradients := by
  unfold Obligations.SampleGathersGradients
  intro s slot rin sin i sv h distinct
  have hsv := h.1.1.2.2.2
  have self := plainSampled_ctx (slot := slot.toNat) (rin := rin) (sin := sin) hsv
  have pool := plainSampled_pool (slot := slot.toNat) (rin := rin) (sin := sin) hsv
  have contributes := plain_contributes_iff h
  have count : (plainParts s i rin sin sv).1.block.count =
      sv.block.count + (sampleContributes s i rin sv (plainParts s i rin sin sv).1).toNat := rfl
  refine ⟨_, _, exec_plain h, congrArg Context.serving self, fun hc => ?_, fun hc => ?_, fun hc => ?_⟩
  · exact count.trans (by rw [contributes.2 hc]; rfl)
  · have none := Bool.eq_false_iff.2 (mt contributes.1 hc)
    rw [none] at count pool
    exact ⟨count, congrArg Pool.blocks pool⟩
  · rw [contributes.2 hc] at pool
    have read : ∀ b, (plainSampled s slot.toNat i rin sin sv).tapBlock b =
        (gatherGradients (s.boundOf i) (s.errorOver (s.boundOf i) sv rin sin) (sv.windowAt rin) s).tapBlock b := fun b =>
      congrArg (fun p : Pool => p.blocks.getD b (idleBlock .failed)) pool
    obtain ⟨changed, stand⟩ := gatherGradients_tapBlock distinct (s.errorOver (s.boundOf i) sv rin sin) (sv.windowAt rin)
    refine ⟨fun jb hjb hlen => ⟨fun k hk => ?_, ?_⟩, fun b hb => (read b).trans (stand b hb)⟩
    · rw [read, changed jb hjb, TapBlock.gathering, Laws.addGradient_getD _ _ _ _ (hlen ▸ hk), Laws.windowOf_getD _ _ _ hk]
    · rw [read, changed jb hjb, TapBlock.gathering, ← h.1.2.2.2.2.2 jb hjb]

end Sys2Proof.Machine

namespace Sys2Proof.Machine

open Sys2Proof

/-! ## Leaving SEARCH and TRACK (R13, R25, R28) -/

/-- What the end of an open offer leaves of a context (R161). -/
def Context.unoffered (c : Context) : Context :=
  { c with role := if c.role = .homeOffering then .homeServing else c.role, offer := none }

section Unoffered

variable {c d : Context}

theorem Context.unoffered_callState (h : d.unoffered = c.unoffered) : d.callState = c.callState := congrArg (·.callState) h
theorem Context.unoffered_search (h : d.unoffered = c.unoffered) : d.search = c.search := congrArg (·.search) h
theorem Context.unoffered_serving (h : d.unoffered = c.unoffered) : d.serving = c.serving := congrArg (·.serving) h
theorem Context.unoffered_toneHold (h : d.unoffered = c.unoffered) : d.toneHold = c.toneHold := congrArg (·.toneHold) h
theorem Context.unoffered_slot (h : d.unoffered = c.unoffered) : d.slot = c.slot := congrArg (·.slot) h
theorem Context.unoffered_frozen (h : d.unoffered = c.unoffered) : d.frozen = c.frozen := congrArg (·.frozen) h
theorem Context.unoffered_pendingReturn (h : d.unoffered = c.unoffered) : d.pendingReturn = c.pendingReturn :=
  congrArg (·.pendingReturn) h

/-- A change of a context that looks at neither role nor offer. -/
theorem Context.unoffered_congr (h : d.unoffered = c.unoffered) (f : Context → Context)
    (hf : ∀ c : Context, (f c).unoffered = f c.unoffered) : (f d).unoffered = (f c).unoffered := by rw [hf, hf, h]

end Unoffered

theorem State.unoffered_cancelOffer (s : State) (i k : Nat) : ((s.cancelOffer i).ctx k).unoffered = (s.ctx k).unoffered := by
  unfold State.cancelOffer
  dsimp only
  split
  · next h =>
    rw [State.ctx_modCtx]
    split
    · next hk =>
      obtain ⟨rfl, -⟩ := hk
      simp [Context.unoffered, h.1]
    · simp
  · rfl

theorem State.unoffered_leaveShortfall (s : State) (i k : Nat) : ((s.leaveShortfall i).ctx k).unoffered = (s.ctx k).unoffered := by
  unfold State.leaveShortfall
  split
  · exact State.unoffered_cancelOffer _ i k
  · rfl

/-- The context without its search record. -/
def Context.unsearched (c : Context) : Context := { c with search := none }

section Release

variable {s : State} {i : Nat}

/-- A context that no longer searches or tracks keeps all but its search when its blocks are released (R25). -/
theorem releaseHeld_ctx (hi : i < s.table.contexts.length) (hp : (s.ctx i).callState.processes = false) :
    ((releaseHeld i s).ctx i).unoffered = (s.ctx i).unsearched.unoffered := by
  have cancelled : (((s.cancelOffer i).leaveShortfall i).ctx i).unoffered = (s.ctx i).unoffered :=
    (State.unoffered_leaveShortfall _ i i).trans (State.unoffered_cancelOffer s i i)
  have len : i < ((s.cancelOffer i).leaveShortfall i).table.contexts.length := by
    rw [State.outside_contexts (s := s) (by simp)]
    exact hi
  have set : (((s.cancelOffer i).leaveShortfall i).modCtx i Context.unsearched).ctx i =
      (((s.cancelOffer i).leaveShortfall i).ctx i).unsearched := State.ctx_modCtx_self _ _ _ len
  have passive : ((((s.cancelOffer i).leaveShortfall i).modCtx i Context.unsearched).ctx i).callState.processes = false := by
    rw [set]
    exact (congrArg CallState.processes (Context.unoffered_callState cancelled)).trans hp
  have released : (releaseHeld i s).ctx i = (((s.cancelOffer i).leaveShortfall i).modCtx i Context.unsearched).ctx i :=
    perform_release_passive _ _ _ passive
  rw [released, set]
  exact Context.unoffered_congr cancelled Context.unsearched fun _ => rfl

theorem steady_releaseHeld (i k : Nat) (s : State) : ((releaseHeld i s).ctx k).steady = (s.ctx k).steady := by
  have cleared : ∀ u : State, ((u.modCtx i Context.unsearched).ctx k).steady = (u.ctx k).steady := fun u =>
    State.ctx_modCtx_proj Context.steady u i k _ fun _ => rfl
  have left : (((s.cancelOffer i).leaveShortfall i).ctx k).steady = (s.ctx k).steady := by simp
  rw [releaseHeld, steady_perform, ← left]
  exact cleared _

/-- The tone state of both directions at its cleared values (R128). -/
def Serving.untoned (sv : Serving) : Serving := { sv with toneReceive := .cleared, toneSend := .cleared }

/-- A context as it enters IDLE, BYPASS, DISABLED or NOT SERVING (R25). -/
def Context.passing (st : CallState) (c : Context) : Context :=
  if st = .disabled then { c with callState := st, search := none }
  else { c with callState := st, search := none, toneHold := false, serving := c.serving.map Serving.untoned }

theorem Context.passing_unoffered (st : CallState) (c : Context) : (c.passing st).unoffered = c.unoffered.passing st := by
  unfold Context.passing
  split <;> rfl

/-- A context enters a call state in which it neither searches nor tracks (R25). -/
theorem enterPassing_ctx {st : CallState} (hi : i < s.table.contexts.length) (hst : st.processes = false) :
    ((enterPassing i st s).ctx i).unoffered = ((s.ctx i).passing st).unoffered := by
  have set : (s.modCtx i fun c => { c with callState := st }).ctx i = { s.ctx i with callState := st } :=
    State.ctx_modCtx_self _ _ _ hi
  have released := releaseHeld_ctx (s := s.modCtx i fun c => { c with callState := st }) (i := i) (by simpa using hi)
    (by rw [set]; exact hst)
  rw [set] at released
  have len : i < (releaseHeld i (s.modCtx i fun c => { c with callState := st })).table.contexts.length := by
    rw [State.outside_contexts (s := s) (by simp)]
    exact hi
  unfold enterPassing Context.passing
  dsimp only
  generalize releaseHeld i (s.modCtx i fun c => { c with callState := st }) = u at released len
  split
  · exact released
  · rw [clearTone, State.ctx_modServing_self _ _ _ (by simpa using len), State.ctx_modCtx_self _ _ _ len]
    exact Context.unoffered_congr released (fun c => { c with toneHold := false, serving := c.serving.map Serving.untoned })
      fun _ => rfl

theorem steady_enterPassing_ne {st : CallState} {k : Nat} (hk : k ≠ i) :
    ((enterPassing i st s).ctx k).steady = (s.ctx k).steady := by
  have released : ((releaseHeld i (s.modCtx i fun c => { c with callState := st })).ctx k).steady = (s.ctx k).steady := by
    rw [steady_releaseHeld, State.ctx_modCtx_ne _ _ _ _ hk.symm]
  unfold enterPassing
  dsimp only
  generalize releaseHeld i (s.modCtx i fun c => { c with callState := st }) = u at released
  split
  · exact released
  · rw [clearTone, State.ctx_modServing_ne _ _ _ _ hk.symm, State.ctx_modCtx_ne _ _ _ _ hk.symm]
    exact released

/-- The serving parts after a call end (R13). -/
def Serving.hungUp (sv : Serving) : Serving := { sv with callPresent := false, idleRun := 0, ending := false }

/-- A call end takes SEARCH, TRACK and DISABLED to IDLE (R28). -/
theorem callEnded_of_call (h : (s.ctx i).callState.processes = true ∨ (s.ctx i).callState = .disabled) :
    callEnded i s = enterPassing i .idle s := by
  unfold callEnded
  split
  · rfl
  · rfl
  · rfl
  all_goals next hc => rw [hc] at h; simp [CallState.processes] at h

theorem callEnded_of_passing (h : ¬((s.ctx i).callState.processes = true ∨ (s.ctx i).callState = .disabled)) :
    callEnded i s = s := by
  unfold callEnded
  split
  iterate 3 next hc => rw [hc] at h; simp [CallState.processes] at h
  all_goals rfl

/-- A context after a call end (R13, R28). -/
def Context.callOver (c : Context) : Context :=
  let c' := { c with serving := c.serving.map Serving.hungUp }
  if c.callState.processes = true ∨ c.callState = .disabled then c'.passing .idle else c'

theorem hungUp_ctx (hi : i < s.table.contexts.length) :
    (s.modServing i Serving.hungUp).ctx i = { s.ctx i with serving := (s.ctx i).serving.map Serving.hungUp } :=
  State.ctx_modServing_self _ _ _ hi

theorem endCall_ctx (hi : i < s.table.contexts.length) :
    ((endCall i s).ctx i).unoffered = (s.ctx i).callOver.unoffered := by
  have len : i < (s.modServing i Serving.hungUp).table.contexts.length := by simpa using hi
  have ends : endCall i s = callEnded i (s.modServing i Serving.hungUp) := rfl
  rw [ends, Context.callOver]
  split
  · next h =>
    rw [callEnded_of_call (by rw [hungUp_ctx hi]; exact h), enterPassing_ctx len rfl, hungUp_ctx hi]
  · next h => rw [callEnded_of_passing (by rw [hungUp_ctx hi]; exact h), hungUp_ctx hi]

theorem steady_endCall_ne {k : Nat} (hk : k ≠ i) : ((endCall i s).ctx k).steady = (s.ctx k).steady := by
  have hung : (s.modServing i Serving.hungUp).ctx k = s.ctx k := State.ctx_modServing_ne _ _ _ _ hk.symm
  have ends : endCall i s = callEnded i (s.modServing i Serving.hungUp) := rfl
  rw [ends, ← hung]
  by_cases h : ((s.modServing i Serving.hungUp).ctx i).callState.processes = true
      ∨ ((s.modServing i Serving.hungUp).ctx i).callState = .disabled
  · rw [callEnded_of_call h, steady_enterPassing_ne hk]
  · rw [callEnded_of_passing h]

/-- A call end outside SEARCH, TRACK and DISABLED writes the serving parts alone. -/
theorem endCall_of_passing (hi : i < s.table.contexts.length)
    (h : ¬((s.ctx i).callState.processes = true ∨ (s.ctx i).callState = .disabled)) :
    endCall i s = s.modServing i Serving.hungUp :=
  callEnded_of_passing (s := s.modServing i Serving.hungUp) (by rw [hungUp_ctx hi]; exact h)

end Release

theorem Context.callOver_serving {c : Context} {sv : Serving} (h : c.serving = some sv) :
    c.callOver.serving = some (if c.callState.processes = true ∨ c.callState = .disabled then sv.hungUp.untoned else sv.hungUp) := by
  unfold Context.callOver
  dsimp only
  split
  · simp [Context.passing, h]
  · simp [h]

theorem Context.callOver_of_call {c : Context} (h : c.callState.processes = true ∨ c.callState = .disabled) :
    c.callOver.callState = .idle ∧ c.callOver.search = none ∧ c.callOver.toneHold = false := by
  simp [Context.callOver, Context.passing, h]

/-- Settles O30: the call end enters IDLE, which releases the blocks and writes the context. -/
theorem callEndGoesIdle : Obligations.CallEndGoesIdle := by
  unfold Obligations.CallEndGoesIdle
  intro s slot i sv h
  have served := h.onServed (whenDue (fun _ sv => callEndDue sv) endCall)
  refine ⟨fun hno => ?_, fun call ending => ?_⟩
  · exact congrArg Host.Outcome.next (served.trans (whenDue_of_not_due h.2.2.2 (by rcases hno with hn | hn <;> simp [callEndDue, hn])))
  · have self := endCall_ctx h.lt
    have parts := (Context.unoffered_serving self).trans (Context.callOver_serving h.2.2.2)
    have hands : ∀ (p : Prop) [Decidable p] {α : Type} (f : Serving → α), (∀ sv : Serving, f sv.untoned = f sv) →
        f (if p then sv.hungUp.untoned else sv.hungUp) = f sv.hungUp := fun p _ _ f hf => by
      split
      · exact hf _
      · rfl
    refine ⟨_, _, congrArg Host.Outcome.next (served.trans (whenDue_of_due h.2.2.2 (by simp [callEndDue, call, ending]))), parts,
      hands _ (·.callPresent) fun _ => rfl, hands _ (·.idleRun) fun _ => rfl, hands _ (·.ending) fun _ => rfl,
      hands _ (·.history) fun _ => rfl, hands _ (·.noise) fun _ => rfl, fun hc => ?_, fun hb => ?_, outside_endCall i s,
      fun k hk => steady_endCall_ne hk⟩
    · obtain ⟨idle, ended, hold⟩ := Context.callOver_of_call hc
      refine ⟨(Context.unoffered_callState self).trans idle, (Context.unoffered_search self).trans ended,
        (Context.unoffered_toneHold self).trans hold, ?_, ?_⟩ <;> rw [if_pos hc] <;> rfl
    · rw [endCall_of_passing h.lt (by rw [hb]; decide)]
      exact ⟨(congrArg Context.callState (hungUp_ctx h.lt)).trans hb, rfl, rfl⟩

end Sys2Proof.Machine

namespace Sys2Proof.Machine

open Sys2Proof

/-! ## What the acts on blocks and searches keep of every context -/

@[simp] theorem State.ctx_setPool (s : State) (p : Pool) (k : Nat) : State.ctx { s with pool := p } k = s.ctx k := rfl
@[simp] theorem State.ctx_setLane (s : State) (l : Lane) (k : Nat) : State.ctx { s with lane := l } k = s.ctx k := rfl
@[simp] theorem State.ctx_takeBlocks (s : State) (n k : Nat) : (s.takeBlocks n).2.ctx k = s.ctx k := rfl

@[simp] theorem State.ctx_foldl_reserveBlock (i k : Nat) (l : List Nat) (s : State) :
    (l.foldl (fun s b => s.reserveBlock i b) s).ctx k = s.ctx k :=
  State.ctx_foldl (fun s b => s.reserveBlock i b) (by simp) l s k

section Steady

@[simp] theorem steady_retire (b k : Nat) (s : State) : ((retire b s).ctx k).steady = (s.ctx k).steady := by
  unfold retire
  dsimp only
  split <;> simp

@[simp] theorem steady_retireIfDue (b k : Nat) (s : State) : ((retireIfDue b s).ctx k).steady = (s.ctx k).steady := by
  unfold retireIfDue
  split <;> simp

@[simp] theorem steady_correctedReads (b n k : Nat) (s : State) : ((correctedReads b n s).ctx k).steady = (s.ctx k).steady := by
  simp [correctedReads]

@[simp] theorem steady_requestToSpare (i k : Nat) (s : State) : ((requestToSpare i s).1.ctx k).steady = (s.ctx k).steady := by
  unfold requestToSpare
  dsimp only
  split
  · rfl
  · split
    · simp
    · split <;> simp

@[simp] theorem steady_loseSegment (i j k : Nat) (s : State) : ((loseSegment i j s).ctx k).steady = (s.ctx k).steady := by
  unfold loseSegment
  dsimp only
  split
  · simp
  · split
    · simp
    · split
      · simp
      · split
        · simp
        · split <;> simp

/-- The path-change run count is none of what stays of a context. -/
theorem Context.steady_rested (c : Context) :
    ({ c with serving := c.serving.map fun sv => { sv with pathRun := 0 } } : Context).steady = c.steady := by
  simp [Context.steady, Function.comp_def]

@[simp] theorem steady_rest (s : State) (i k : Nat) :
    ((s.modServing i fun sv => { sv with pathRun := 0 }).ctx k).steady = (s.ctx k).steady :=
  State.ctx_modCtx_proj Context.steady s i k _ Context.steady_rested

@[simp] theorem steady_restIfUnbound (i k : Nat) (s : State) : ((restIfUnbound i s).ctx k).steady = (s.ctx k).steady := by
  unfold restIfUnbound
  split <;> simp

@[simp] theorem steady_uncorrectable (i j b k : Nat) (s : State) : ((uncorrectable i j b s).ctx k).steady = (s.ctx k).steady := by
  unfold uncorrectable
  dsimp only
  split
  · simp
  · split <;> simp

@[simp] theorem steady_readBlock (i k : Nat) (s : State) (jb : Nat × Nat) : ((readBlock i s jb).ctx k).steady = (s.ctx k).steady := by
  unfold readBlock
  dsimp only
  split
  · simp
  · split <;> simp

theorem steady_foldl {α : Type} (f : State → α → State) (k : Nat) (hf : ∀ s a, ((f s a).ctx k).steady = (s.ctx k).steady) (l : List α)
    (s : State) : ((l.foldl f s).ctx k).steady = (s.ctx k).steady := by
  induction l generalizing s with
  | nil => rfl
  | cons a l ih => exact (ih _).trans (hf s a)

@[simp] theorem steady_readBlocks (i k : Nat) (bound : List (Nat × Nat)) (s : State) :
    ((readBlocks i bound s).ctx k).steady = (s.ctx k).steady :=
  steady_foldl _ k (fun s b => by split <;> simp) _ s

@[simp] theorem strike_ctx (upsets : List TapUpset) (s : State) (k : Nat) : (strike upsets s).ctx k = s.ctx k :=
  State.ctx_foldl (fun s (u : TapUpset) => s.modBlock u.block.toNat _) (by simp) upsets s k

@[simp] theorem steady_unbind (i k : Nat) (gone : List (Nat × Nat)) (s : State) :
    ((unbind i gone s).ctx k).steady = (s.ctx k).steady := by
  rw [unbind, State.steady_modSearch, State.ctx_foldl (fun s (jb : Nat × Nat) => s.reserveBlock i jb.2) (by simp)]

@[simp] theorem steady_nextStep (i k : Nat) (failed : List Nat) (r : SearchRecord) (s : State) :
    ((nextStep i failed r s).ctx k).steady = (s.ctx k).steady := by
  unfold nextStep
  dsimp only
  split
  · simp
  · split
    · simp
    · split <;> simp

@[simp] theorem steady_evaluate (i k : Nat) (s : State) : ((evaluate i s).ctx k).steady = (s.ctx k).steady := by
  unfold evaluate
  split <;> simp

@[simp] theorem steady_settleSearch (i k : Nat) (s : State) : ((settleSearch i s).ctx k).steady = (s.ctx k).steady := by
  simp [settleSearch]

@[simp] theorem mapBound_ctx (s : State) (i k : Nat) (f : List TapEntry → List TapEntry) : (s.mapBound i f).ctx k = s.ctx k :=
  State.ctx_foldl (fun s (jb : Nat × Nat) => s.modBlock jb.2 _) (by simp) (s.boundOf i) s k

theorem Context.steady_failedOffer {c : Context} (h : c.role = .homeOffering) :
    ({ c with role := .homeServing, offer := none } : Context).steady = c.steady := by simp [Context.steady, h]

/-- An offer made by a home that serves is none of what stays of a context (R158). -/
@[simp] theorem steady_offerIfShort (i n k : Nat) (s : State) : ((offerIfShort i n s).ctx k).steady = (s.ctx k).steady := by
  unfold offerIfShort
  split
  · next h =>
    have offering : ((s.modCtx i fun c => { c with role := .homeOffering, offer := some ⟨none, none⟩ }).ctx k).steady =
        (s.ctx k).steady := by
      rw [State.ctx_modCtx]
      split
      · next hk =>
        obtain ⟨rfl, -⟩ := hk
        simp [Context.steady, h.1]
      · rfl
    unfold makeOffer
    dsimp only
    split
    · exact offering
    · rw [State.notify_ctx, ← offering, State.ctx_modCtx]
      split
      · next hk =>
        obtain ⟨rfl, hlt⟩ := hk
        rw [State.outside_contexts (s := s) (by simp)] at hlt
        have role := congrArg Context.role
          (State.ctx_modCtx_self s i (fun c => { c with role := .homeOffering, offer := some ⟨none, none⟩ }) hlt)
        exact Context.steady_failedOffer role
      · rfl
  · rfl

@[simp] theorem steady_setSearch (i k : Nat) (st : CallState) (r : Option SearchRecord) (s : State) :
    ((s.modCtx i fun c => { c with callState := st, search := r }).ctx k).steady = (s.ctx k).steady :=
  State.ctx_modCtx_proj Context.steady s i k _ fun _ => rfl

@[simp] theorem steady_startSearch (i k : Nat) (s : State) : ((startSearch i s).ctx k).steady = (s.ctx k).steady := by
  unfold startSearch
  dsimp only
  split <;> simp

end Steady

end Sys2Proof.Machine

namespace Sys2Proof.Machine

open Sys2Proof

/-! ## What the stages of a sample and of a block end leave of the call itself -/

/-- The call-present indicator, the idle run count and the pending RETURN of a context: what idle recognition and the
call's role alone change (R12, R13, R164). -/
def Context.onCall (c : Context) : Option (Bool × Nat) × Bool :=
  (c.serving.map fun sv => (sv.callPresent, sv.idleRun), c.pendingReturn)

section OnCall

variable {c d : Context} {s : State} {i k : Nat}

theorem Context.onCall_of_steady (h : d.steady = c.steady) : d.onCall = c.onCall :=
  Prod.ext (Context.steady_read (fun sv => (sv.callPresent, sv.idleRun)) (fun _ _ => rfl) h) (Context.steady_pendingReturn h)

theorem onCall_modCtx {f : Context → Context} (hf : ∀ c, (f c).onCall = c.onCall) : ((s.modCtx i f).ctx k).onCall = (s.ctx k).onCall :=
  State.ctx_modCtx_proj Context.onCall s i k f hf

theorem onCall_modServing {f : Serving → Serving} (hf : ∀ sv, ((f sv).callPresent, (f sv).idleRun) = (sv.callPresent, sv.idleRun)) :
    ((s.modServing i f).ctx k).onCall = (s.ctx k).onCall :=
  onCall_modCtx fun c => by simp [Context.onCall, Function.comp_def, hf]

/-- Serving parts written anew from those that stood. -/
theorem onCall_setServing {sv sv' : Serving} (hsv : (s.ctx i).serving = some sv)
    (h : (sv'.callPresent, sv'.idleRun) = (sv.callPresent, sv.idleRun)) :
    ((s.modServing i fun _ => sv').ctx k).onCall = (s.ctx k).onCall := by
  by_cases hk : i = k
  · subst hk
    rw [State.ctx_modServing_some hsv]
    simp [Context.onCall, hsv, h]
  · rw [State.ctx_modServing_ne _ _ _ _ hk]

theorem onCall_perform (ts : List Task) : ((perform ts s).ctx k).onCall = (s.ctx k).onCall :=
  Context.onCall_of_steady (steady_perform ts s k)

theorem onCall_requestToSpare : ((requestToSpare i s).1.ctx k).onCall = (s.ctx k).onCall :=
  Context.onCall_of_steady (steady_requestToSpare i k s)

theorem onCall_releaseHeld : ((releaseHeld i s).ctx k).onCall = (s.ctx k).onCall :=
  Context.onCall_of_steady (steady_releaseHeld i k s)

theorem onCall_clearTone : ((clearTone i s).ctx k).onCall = (s.ctx k).onCall := by
  rw [clearTone, onCall_modServing]
  exact fun _ => rfl

theorem onCall_enterPassing {st : CallState} : ((enterPassing i st s).ctx k).onCall = (s.ctx k).onCall := by
  have released : ((releaseHeld i (s.modCtx i fun c => { c with callState := st })).ctx k).onCall = (s.ctx k).onCall := by
    rw [onCall_releaseHeld, onCall_modCtx]
    exact fun _ => rfl
  rw [← released, enterPassing]
  split
  · rfl
  · rw [onCall_clearTone, onCall_modCtx]
    exact fun _ => rfl

theorem onCall_callEnded : ((callEnded i s).ctx k).onCall = (s.ctx k).onCall := by
  unfold callEnded
  split
  iterate 3 exact onCall_enterPassing
  all_goals rfl

theorem onCall_callStart : ((callStart i s).ctx k).onCall = (s.ctx k).onCall := by
  unfold callStart
  dsimp only
  split
  · rw [onCall_modCtx, onCall_modServing, onCall_modCtx] <;> exact fun _ => rfl
  · rw [Context.onCall_of_steady (steady_startSearch i k _), onCall_modServing, onCall_modCtx] <;> exact fun _ => rfl

theorem onCall_callStarted : ((callStarted i s).ctx k).onCall = (s.ctx k).onCall := by
  have left : ∀ (p : Prop) [Decidable p] (q : Entry → Bool), (if p then s.recall q else s).ctx k = s.ctx k := fun p _ q => by
    split <;> simp
  rw [callStarted]
  generalize hu : (if (s.ctx i).role = .taken ∨ (s.ctx i).role = .actingHome then s.recall (·.isReturn (s.slotOf i)) else s) = u
  have same : u.ctx k = s.ctx k := by rw [← hu, left]
  split
  · rw [onCall_callStart, same]
  · rw [same]

theorem onCall_searchAgain : ((searchAgain i s).ctx k).onCall = (s.ctx k).onCall := by
  unfold searchAgain
  dsimp only
  split
  · rw [onCall_perform, onCall_modCtx, onCall_modServing] <;> exact fun _ => rfl
  · split
    · rw [onCall_perform, onCall_requestToSpare, onCall_modCtx, onCall_modServing] <;> exact fun _ => rfl
    · rw [onCall_requestToSpare, onCall_modCtx, onCall_modServing] <;> exact fun _ => rfl

theorem onCall_pathChanged : ((pathChanged i s).ctx k).onCall = (s.ctx k).onCall := by
  rw [pathChanged, onCall_searchAgain, State.notify_ctx, onCall_releaseHeld]

theorem onCall_setToneHold : ((setToneHold i s).ctx k).onCall = (s.ctx k).onCall := by
  rw [setToneHold, onCall_modServing, onCall_modCtx] <;> exact fun _ => rfl

theorem onCall_releaseToneHold : ((releaseToneHold i s).ctx k).onCall = (s.ctx k).onCall := by
  rw [releaseToneHold, onCall_clearTone, onCall_modCtx]
  exact fun _ => rfl

theorem onCall_releaseDisabled : ((releaseDisabled i s).ctx k).onCall = (s.ctx k).onCall := by
  rw [releaseDisabled, onCall_searchAgain, onCall_modServing, onCall_releaseToneHold]
  exact fun _ => rfl

theorem onCall_disableOnReversal : ((disableOnReversal i s).ctx k).onCall = (s.ctx k).onCall := by
  unfold disableOnReversal
  split
  · rfl
  · split
    · rfl
    · rw [State.notify_ctx, onCall_enterPassing]

theorem onCall_whenDue {due : Context → Serving → Bool} {act : Nat → State → State}
    (h : ((act i s).ctx k).onCall = (s.ctx k).onCall) : ((whenDue due act i s).ctx k).onCall = (s.ctx k).onCall := by
  unfold whenDue
  split
  · split
    · exact h
    · rfl
  · rfl

theorem onCall_countDwell (report : CommitReport) (c : Context) : (countDwell report c).onCall = c.onCall := by
  unfold countDwell
  split <;> rfl

theorem countDwell_serving (report : CommitReport) : ((s.modCtx i (countDwell report)).ctx k).serving = (s.ctx k).serving :=
  State.ctx_modCtx_proj Context.serving s i k _ fun c => by
    unfold countDwell
    split <;> rfl

theorem toneBlockEnd_call (tone : Bool) (sv : Serving) :
    ((toneBlockEnd tone sv).callPresent, (toneBlockEnd tone sv).idleRun) = (sv.callPresent, sv.idleRun) := by
  unfold toneBlockEnd
  split <;> rfl

/-- The events of a block end leave the call as it was. -/
theorem onCall_blockEvents : ((toneHoldReleaseIfDue i (disableOnReversal i (toneHoldIfDue i
    (pathChangeIfDue i (evaluateIfDue i s))))).ctx k).onCall = (s.ctx k).onCall := by
  rw [toneHoldReleaseIfDue, onCall_whenDue onCall_releaseToneHold, onCall_disableOnReversal, toneHoldIfDue,
    onCall_whenDue onCall_setToneHold, pathChangeIfDue, onCall_whenDue onCall_pathChanged, evaluateIfDue,
    onCall_whenDue (Context.onCall_of_steady (steady_evaluate i k s))]

theorem onCall_fullBlockEnd {sv : Serving} (hsv : (s.ctx i).serving = some sv) :
    ((fullBlockEnd i sv s).ctx k).onCall = (s.ctx k).onCall := by
  rw [fullBlockEnd, onCall_blockEvents, onCall_setServing (sv := sv), onCall_modCtx, mapBound_ctx]
  · exact onCall_countDwell _
  · rw [countDwell_serving, mapBound_ctx, hsv]
  · rw [toneBlockEnd_call]
    rfl

theorem onCall_leadInBlockEnd : ((leadInBlockEnd i s).ctx k).onCall = (s.ctx k).onCall := by
  rw [leadInBlockEnd, onCall_modServing, mapBound_ctx]
  exact fun _ => rfl

theorem onCall_disabledBlockEnd : ((disabledBlockEnd i s).ctx k).onCall = (s.ctx k).onCall := by
  rw [disabledBlockEnd]
  split
  · rw [disabledReleaseIfDue, onCall_whenDue onCall_releaseDisabled, onCall_modServing]
    exact fun _ => rfl
  · rfl

theorem onCall_blockEnded : ((blockEnded i s).ctx k).onCall = (s.ctx k).onCall := by
  rw [blockEnded, onCall_modServing]
  · have worked : ∀ sv, (s.ctx i).serving = some sv →
        ((if sv.block.leadIn then leadInBlockEnd i s else fullBlockEnd i sv s).ctx k).onCall = (s.ctx k).onCall := fun sv hsv => by
      split
      · exact onCall_leadInBlockEnd
      · exact onCall_fullBlockEnd hsv
    split
    · rfl
    · next sv hsv =>
      split
      · exact worked sv hsv
      · exact worked sv hsv
      · exact onCall_disabledBlockEnd
      all_goals rfl
  · exact fun _ => rfl

theorem onCall_blockEndIfDue : ((blockEndIfDue i s).ctx k).onCall = (s.ctx k).onCall := onCall_whenDue onCall_blockEnded

end OnCall

end Sys2Proof.Machine

namespace Sys2Proof.Machine

open Sys2Proof

/-! ## What samples and block ends do to the send queue -/

theorem offerIfShort_of_role {i n : Nat} {s : State} (h : (s.ctx i).role ≠ .homeServing) : offerIfShort i n s = s :=
  if_neg fun hc => h hc.1

/-- A change of one search record leaves the rest of every context. -/
theorem unsearched_modSearch (s : State) (i k : Nat) (f : SearchRecord → SearchRecord) :
    ((s.modSearch i f).ctx k).unsearched = (s.ctx k).unsearched :=
  State.ctx_modCtx_proj Context.unsearched s i k _ fun _ => rfl

/-- A request changes of the contexts one search record alone (R101). -/
theorem unsearched_requestToSpare (s : State) (i k : Nat) : ((requestToSpare i s).1.ctx k).unsearched = (s.ctx k).unsearched := by
  unfold requestToSpare
  dsimp only
  split
  · rfl
  · split
    · simp
    · split <;> simp [unsearched_modSearch]

theorem requestToSpare_role (s : State) (i k : Nat) : ((requestToSpare i s).1.ctx k).role = (s.ctx k).role :=
  (congrArg Context.role (unsearched_requestToSpare s i k) :)

theorem role_modCtx {s : State} {i k : Nat} {f : Context → Context} (hf : ∀ c, (f c).role = c.role) :
    ((s.modCtx i f).ctx k).role = (s.ctx k).role := State.ctx_modCtx_proj Context.role s i k f hf

namespace State.OnlyNotices

variable {s t : State} {i : Nat}

theorem modCtx (h : s.OnlyNotices t) (i : Nat) (f : Context → Context) : s.OnlyNotices (t.modCtx i f) := h.same rfl
theorem modBlock (h : s.OnlyNotices t) (b : Nat) (f : TapBlock → TapBlock) : s.OnlyNotices (t.modBlock b f) := h.same rfl
theorem perform (h : s.OnlyNotices t) (ts : List Task) : s.OnlyNotices (perform ts t) := h.trans (perform_onlyNotices ts t)

theorem refl (s : State) : s.OnlyNotices s := .of_lane rfl

theorem foldl {α : Type} {f : State → α → State} (hf : ∀ (s : State) a, s.OnlyNotices (f s a)) (l : List α) (h : s.OnlyNotices t) :
    s.OnlyNotices (l.foldl f t) := by
  induction l generalizing t with
  | nil => exact h
  | cons a l ih => exact ih (h.trans (hf t a))

theorem reserveBlock (h : s.OnlyNotices t) (i b : Nat) : s.OnlyNotices (t.reserveBlock i b) := h.same rfl
theorem failBlock (h : s.OnlyNotices t) (b n : Nat) : s.OnlyNotices (t.failBlock b n) := h.same rfl
theorem noticeRetired (h : s.OnlyNotices t) (b n : Nat) : s.OnlyNotices (t.noticeRetired b n) := h.notify _ _

theorem retire (h : s.OnlyNotices t) (b : Nat) : s.OnlyNotices (retire b t) := by
  unfold Machine.retire
  dsimp only
  split
  · refine perform (noticeRetired ?_ _ _) _
    exact h.same rfl
  · exact h.modBlock _ _

theorem correctedReads (h : s.OnlyNotices t) (b n : Nat) : s.OnlyNotices (correctedReads b n t) := by
  unfold Machine.correctedReads retireIfDue
  split
  · exact (h.modBlock b _).retire b
  · exact h.modBlock b _

theorem requestToSpare (h : s.OnlyNotices t) (i : Nat) : s.OnlyNotices (requestToSpare i t).1 := by
  have taken : ∀ n, s.OnlyNotices ((t.takeBlocks n).1.foldl (fun s b => s.reserveBlock i b) (t.takeBlocks n).2) := fun n =>
    foldl (fun s b => (refl s).reserveBlock i b) _ (h.same rfl)
  unfold Machine.requestToSpare
  dsimp only
  split
  · exact h
  · split
    · exact h.joinShortfall i
    · dsimp only
      split
      · exact ((taken _).modSearch i _).joinShortfall i
      · exact (taken _).modSearch i _

theorem loseSegment (h : s.OnlyNotices t) (i j : Nat) : s.OnlyNotices (loseSegment i j t) := by
  unfold Machine.loseSegment
  dsimp only
  split
  · exact h.modSearch i _
  · split
    · exact h.modSearch i _
    · split
      · exact (h.modSearch i _).perform _
      · split
        · exact (h.modSearch i _).modSearch i _
        · split
          · exact (((h.modSearch i _).modSearch i _).requestToSpare i).perform _
          · exact ((h.modSearch i _).modSearch i _).requestToSpare i

theorem restIfUnbound (h : s.OnlyNotices t) (i : Nat) : s.OnlyNotices (restIfUnbound i t) := by
  unfold Machine.restIfUnbound
  split
  · exact h.modServing i _
  · exact h

theorem uncorrectable (h : s.OnlyNotices t) (i j b : Nat) : s.OnlyNotices (uncorrectable i j b t) := by
  have promoted : ∀ f, s.OnlyNotices (Machine.perform [.promote] (((t.failBlock b 0).noticeRetired b 3).modSearch i f)) := fun f =>
    (((h.failBlock b 0).noticeRetired b 3).modSearch i f).perform _
  unfold Machine.uncorrectable
  dsimp only
  split
  · refine modSearch ?_ i _
    exact (promoted _).same rfl
  · split
    · exact (promoted _).loseSegment i j
    · exact (((promoted _).modSearch i _).restIfUnbound i).joinShortfall i
    all_goals exact promoted _

theorem readBlock (h : s.OnlyNotices t) (i : Nat) (jb : Nat × Nat) : s.OnlyNotices (readBlock i t jb) := by
  unfold Machine.readBlock
  dsimp only
  split
  · exact h.uncorrectable i _ _
  · split
    · exact h
    · exact (h.modBlock _ _).correctedReads _ _

theorem readBlocks (h : s.OnlyNotices t) (i : Nat) (bound : List (Nat × Nat)) : s.OnlyNotices (readBlocks i bound t) :=
  foldl (fun s b => by
    split
    · exact (refl s).readBlock i _
    · exact refl s) _ h

theorem releaseHeld (h : s.OnlyNotices t) (i : Nat) : s.OnlyNotices (releaseHeld i t) :=
  (((h.cancelOffer i).leaveShortfall i).modCtx i _).perform _

theorem enterPassing (h : s.OnlyNotices t) (i : Nat) (st : CallState) : s.OnlyNotices (enterPassing i st t) := by
  have released := (h.modCtx i fun c => { c with callState := st }).releaseHeld i
  unfold Machine.enterPassing
  dsimp only
  split
  · exact released
  · exact (released.modCtx i _).modServing i _

theorem callEnded (h : s.OnlyNotices t) (i : Nat) : s.OnlyNotices (callEnded i t) := by
  unfold Machine.callEnded
  split
  iterate 3 exact h.enterPassing i _
  all_goals exact h

theorem endCall (h : s.OnlyNotices t) (i : Nat) : s.OnlyNotices (endCall i t) := (h.modServing i _).callEnded i

theorem searchAgain (h : s.OnlyNotices t) (i : Nat) : s.OnlyNotices (searchAgain i t) := by
  unfold Machine.searchAgain
  dsimp only
  split
  · exact ((h.modServing i _).modCtx i _).perform _
  · split
    · exact (((h.modServing i _).modCtx i _).requestToSpare i).perform _
    · exact ((h.modServing i _).modCtx i _).requestToSpare i

theorem pathChanged (h : s.OnlyNotices t) (i : Nat) : s.OnlyNotices (pathChanged i t) :=
  ((h.releaseHeld i).notify _ _).searchAgain i

theorem mapBound (h : s.OnlyNotices t) (i : Nat) (f : List TapEntry → List TapEntry) : s.OnlyNotices (t.mapBound i f) :=
  foldl (α := Nat × Nat) (fun s jb => (refl s).modBlock jb.2 _) _ h

theorem unbind (h : s.OnlyNotices t) (i : Nat) (gone : List (Nat × Nat)) : s.OnlyNotices (unbind i gone t) :=
  (foldl (α := Nat × Nat) (fun s jb => (refl s).reserveBlock i jb.2) _ h : s.OnlyNotices (gone.foldl (fun s jb => s.reserveBlock i jb.2) t)).modSearch i _

theorem evaluate (h : s.OnlyNotices t) (i : Nat) : s.OnlyNotices (evaluate i t) := by
  have next : ∀ failed r u, s.OnlyNotices u → s.OnlyNotices (nextStep i failed r u) := fun failed r u hu => by
    unfold nextStep
    dsimp only
    split
    · exact (hu.unbind i _).perform _
    · split
      · exact (hu.unbind i _).perform _
      · split
        · exact hu.modSearch i _
        · exact (hu.unbind i _).perform _
  unfold Machine.evaluate
  split
  · exact h
  · exact next _ _ _ (h.modSearch i _)

theorem whenDue {due : Context → Serving → Bool} {act : Nat → State → State} (h : s.OnlyNotices t)
    (ha : s.OnlyNotices (act i t)) : s.OnlyNotices (whenDue due act i t) := by
  unfold Machine.whenDue
  split
  · split
    · exact ha
    · exact h
  · exact h

theorem setToneHold (h : s.OnlyNotices t) (i : Nat) : s.OnlyNotices (setToneHold i t) := (h.modCtx i _).modServing i _
theorem releaseToneHold (h : s.OnlyNotices t) (i : Nat) : s.OnlyNotices (releaseToneHold i t) := (h.modCtx i _).modServing i _

theorem releaseDisabled (h : s.OnlyNotices t) (i : Nat) : s.OnlyNotices (releaseDisabled i t) :=
  ((h.releaseToneHold i).modServing i _).searchAgain i

theorem disableOnReversal (h : s.OnlyNotices t) (i : Nat) : s.OnlyNotices (disableOnReversal i t) := by
  unfold Machine.disableOnReversal
  split
  · exact h
  · split
    · exact h
    · exact (h.enterPassing i _).notify _ _

theorem fullBlockEnd (h : s.OnlyNotices t) (i : Nat) (sv : Serving) : s.OnlyNotices (fullBlockEnd i sv t) := by
  have written := (((h.mapBound i fun es => es.map (commitEntry (commitReport sv.hold sv.block.clean != .none) (t.profileOf i).step
    (sv.hold.elim 0 (·.denom)))).modCtx i (countDwell (commitReport sv.hold sv.block.clean))).modServing i
    fun _ => toneBlockEnd (t.profileOf i).tone (servingBlockEnd t i sv))
  have evaluated := written.whenDue (due := fun c _ => evaluationDue c) (written.evaluate i)
  have changed := evaluated.whenDue (due := pathChangeDue) (evaluated.pathChanged i)
  have held := changed.whenDue (due := toneHoldDue) (changed.setToneHold i)
  have reversed := held.disableOnReversal i
  exact reversed.whenDue (due := toneHoldReleaseDue) (reversed.releaseToneHold i)

theorem blockEnded (h : s.OnlyNotices t) (i : Nat) : s.OnlyNotices (blockEnded i t) := by
  have lead : s.OnlyNotices (leadInBlockEnd i t) := (h.mapBound i _).modServing i _
  have disabled : s.OnlyNotices (disabledBlockEnd i t) := by
    unfold disabledBlockEnd
    split
    · exact (h.modServing i _).whenDue ((h.modServing i _).releaseDisabled i)
    · exact h
  unfold Machine.blockEnded
  refine modServing ?_ i _
  split
  · exact h
  · next sv _ =>
    have full := h.fullBlockEnd i sv
    split
    iterate 2
      split
      · exact lead
      · exact full
    · exact disabled
    all_goals exact h

theorem blockEndIfDue (h : s.OnlyNotices t) (i : Nat) : s.OnlyNotices (blockEndIfDue i t) := h.whenDue (h.blockEnded i)

/-- A context that is no serving home makes no offer (R158). -/
theorem startSearch (h : s.OnlyNotices t) (hr : (t.ctx i).role ≠ .homeServing) : s.OnlyNotices (startSearch i t) := by
  have requested := (h.modCtx i fun c => { c with callState := .search, search := some (newSearch (t.profileOf i).budget) }).requestToSpare i
  unfold Machine.startSearch
  dsimp only
  rw [offerIfShort_of_role (by
    rw [requestToSpare_role, role_modCtx]
    exacts [hr, fun _ => rfl])]
  split
  · exact requested.perform _
  · exact requested

/-- A context that is no serving home makes no offer (R158). -/
theorem callStart (h : s.OnlyNotices t) (hr : (t.ctx i).role ≠ .homeServing) : s.OnlyNotices (callStart i t) := by
  have role : ∀ index p slot, (((t.modCtx i fun c => { c with toneHold := false }).modServing i (callSetUp index p slot)).ctx i).role =
      (t.ctx i).role := fun _ _ _ => by
    rw [State.modServing, role_modCtx, role_modCtx] <;> exact fun _ => rfl
  unfold Machine.callStart
  dsimp only
  split
  · exact ((h.modCtx i _).modServing i _).modCtx i _
  · exact ((h.modCtx i _).modServing i _).startSearch (by rw [role]; exact hr)

end State.OnlyNotices


end Sys2Proof.Machine

namespace Sys2Proof.Machine

open Sys2Proof

/-! ## Samples in every call state -/

section Stages

variable {s : State} {slot i k : Nat} {sv : Serving} {rin sin : Byte} {upsets : List TapUpset}

/-- The stages of a sample in SEARCH or TRACK run on the serving parts that its tap reads leave (R45). -/
theorem processSample_stages (hsv : (s.ctx i).serving = some sv) :
    ∃ v, ((readBlocks i (s.boundOf i) (strike upsets s)).ctx i).serving = some v
      ∧ processSample i rin sin upsets s = stagesOf i rin sin (s.boundOf i) (failedSegments (strike upsets s) (s.boundOf i)) v
          (readBlocks i (s.boundOf i) (strike upsets s)) := by
  have some : ((readBlocks i (s.boundOf i) (strike upsets s)).ctx i).serving.isSome = true := by
    rw [Context.steady_isSome (steady_readBlocks i i _ _), strike_ctx, hsv]
    rfl
  obtain ⟨v, hv⟩ := Option.isSome_iff_exists.1 some
  exact ⟨v, hv, processSample_eq i rin sin upsets rfl hv⟩

theorem onCall_stagesOf {atStart : List (Nat × Nat)} {failed : List Nat} (hsv : (s.ctx i).serving = some sv) :
    ((stagesOf i rin sin atStart failed sv s).1.ctx k).onCall = (s.ctx k).onCall := by
  by_cases hk : k = i
  · subst hk
    rw [stagesOf_ctx (State.lt_of_serving hsv), Context.onCall, Context.onCall, hsv]
    rfl
  · rw [stagesOf_ctx_ne hk]

/-- A sample's stages leave the call as idle recognition made it. -/
theorem onCall_processByState (hsv : (s.ctx i).serving = some sv) :
    ((processByState i rin sin upsets s).1.ctx k).onCall = (s.ctx k).onCall := by
  have processed : ((processSample i rin sin upsets s).1.ctx k).onCall = (s.ctx k).onCall := by
    obtain ⟨v, hv, stages⟩ := processSample_stages (rin := rin) (sin := sin) (upsets := upsets) hsv
    rw [stages, onCall_stagesOf hv, Context.onCall_of_steady (steady_readBlocks i k _ _), strike_ctx]
  unfold processByState
  split
  · exact processed
  · exact processed
  · dsimp only [disabledSample]
    split
    · rw [onCall_modServing]
      exact fun _ => rfl
    · rfl
  all_goals rfl

theorem gatherIf_lane (p : Bool) (parts : List (Nat × Nat)) (e : Int) (window : List Int) (s : State) :
    (gatherIf p parts e window s).lane = s.lane := by
  cases p with
  | false => rfl
  | true => exact (gatherGradients_queues parts e window s).2.2

theorem processByState_onlyNotices (hsv : (s.ctx i).serving = some sv) : s.OnlyNotices (processByState i rin sin upsets s).1 := by
  have processed : s.OnlyNotices (processSample i rin sin upsets s).1 := by
    obtain ⟨v, hv, stages⟩ := processSample_stages (rin := rin) (sin := sin) (upsets := upsets) hsv
    rw [stages]
    have struck : s.OnlyNotices (strike upsets s) :=
      .foldl (α := TapUpset) (fun s u => (State.OnlyNotices.refl s).modBlock u.block.toNat _) upsets (.refl s)
    exact (struck.readBlocks i _).same (gatherIf_lane _ _ _ _ _)
  unfold processByState
  split
  · exact processed
  · exact processed
  · dsimp only [disabledSample]
    split
    · exact (State.OnlyNotices.refl s).modServing i _
    · exact .refl s
  all_goals exact .refl s

theorem onCall_endSample {out : State × CodePair} : ((endSample slot i out).ctx k).onCall = (out.1.ctx k).onCall := by
  rw [endSample, onCall_modServing]
  · rfl
  · exact fun _ => rfl

/-! ### Idle recognition in every call state -/

/-- The end of the call that a silent sample brings (R13). -/
def endsCall (s : State) (sv : Serving) : Bool := sv.callPresent && decide (s.highway.idleCount ≤ min 4095 (sv.idleRun + 1))

theorem callEndDue_heard (quiet : silent s.highway.idleCodes rin sin = true) : callEndDue (heard s rin sin sv) = endsCall s sv := by
  simp only [callEndDue, heard, quiet, endsCall, countUp]
  cases sv.callPresent <;> simp

theorem onCall_hear (hsv : (s.ctx i).serving = some sv) : ((hear i rin sin sv s).ctx i).onCall =
    (some (sv.callPresent || !silent s.highway.idleCodes rin sin,
      if silent s.highway.idleCodes rin sin then min 4095 (sv.idleRun + 1) else 0), (s.ctx i).pendingReturn) := by
  rw [hear, State.ctx_setCtx_self _ _ _ (State.lt_of_serving hsv)]
  rfl

/-- Idle recognition counts the idle run, ends the call it completes, and hears a call start (R12, R13). -/
theorem onCall_recognise (hsv : (s.ctx i).serving = some sv) :
    ((recognise i rin sin s).ctx i).onCall =
      (some (if silent s.highway.idleCodes rin sin = true then sv.callPresent && !endsCall s sv else true,
        if silent s.highway.idleCodes rin sin = true ∧ endsCall s sv = false then min 4095 (sv.idleRun + 1) else 0),
       (s.ctx i).pendingReturn) := by
  have hears := onCall_hear (rin := rin) (sin := sin) hsv
  rw [recognise_eq hsv]
  cases quiet : silent s.highway.idleCodes rin sin with
  | true =>
    rw [callEndDue_heard quiet, if_pos rfl]
    rw [quiet] at hears
    cases ends : endsCall s sv with
    | true =>
      have hung : ∀ u : State, (u.ctx i).serving.isSome = true →
          ((endCall i u).ctx i).onCall = (some (false, 0), (u.ctx i).pendingReturn) := fun u hu => by
        obtain ⟨v, hv⟩ := Option.isSome_iff_exists.1 hu
        rw [endCall, onCall_callEnded, State.ctx_modServing_some hv]
        rfl
      rw [if_pos rfl, hung _ (by rw [hear, State.ctx_setCtx_self _ _ _ (State.lt_of_serving hsv)]; rfl)]
      have pending : ((hear i rin sin sv s).ctx i).pendingReturn = (s.ctx i).pendingReturn := congrArg Prod.snd hears
      simp [pending]
    | false =>
      rw [if_neg Bool.false_ne_true, hears]
      simp
  | false =>
    rw [if_neg Bool.false_ne_true]
    rw [quiet] at hears
    cases call : sv.callPresent with
    | true =>
      rw [if_pos rfl, hears]
      simp
    | false =>
      rw [if_neg Bool.false_ne_true, onCall_callStarted, hears]
      simp

theorem recognise_serving (hsv : (s.ctx i).serving = some sv) : ∃ v, ((recognise i rin sin s).ctx i).serving = some v := by
  have call := congrArg Prod.fst (onCall_recognise (rin := rin) (sin := sin) hsv)
  exact (Option.map_eq_some_iff.1 call).imp fun _ h => h.1

theorem endSample_onlyNotices {out : State × CodePair} (h : s.OnlyNotices out.1) : s.OnlyNotices (endSample slot i out) := h.same rfl

/-- After idle recognition a sample leaves call and pending RETURN as they are. -/
theorem onCall_sample (h : s.servesWith slot i sv) (locked : s.highway.sync = .locked) :
    ((sampleSlot slot rin sin upsets s).ctx k).onCall = ((recognise i rin sin (driveSlot slot true s)).ctx k).onCall := by
  obtain ⟨v, hv⟩ := recognise_serving (s := driveSlot slot true s) (rin := rin) (sin := sin) h.2.2.2
  rw [exec_sample h locked, onCall_blockEndIfDue, onCall_endSample, onCall_processByState hv]

/-- After idle recognition a sample queues nothing but NOTICES. -/
theorem sample_onlyNotices (h : s.servesWith slot i sv) (locked : s.highway.sync = .locked) :
    (recognise i rin sin (driveSlot slot true s)).OnlyNotices (sampleSlot slot rin sin upsets s) := by
  obtain ⟨v, hv⟩ := recognise_serving (s := driveSlot slot true s) (rin := rin) (sin := sin) h.2.2.2
  rw [exec_sample h locked]
  exact (endSample_onlyNotices (processByState_onlyNotices hv)).blockEndIfDue i

/-! ### Samples that pass -/

theorem Context.callOver_passes (c : Context) : c.callOver.callState.processes = false := by
  unfold Context.callOver
  dsimp only
  split
  · rfl
  · next h => exact Bool.eq_false_iff.2 fun hp => h (.inl hp)

/-- A call start withdraws the RETURN that a server has queued (R164). -/
def unreturned (i : Nat) (s : State) : State :=
  if (s.ctx i).role = .taken ∨ (s.ctx i).role = .actingHome then s.recall (·.isReturn (s.slotOf i)) else s

theorem unreturned_ctx : (unreturned i s).ctx k = s.ctx k := by
  unfold unreturned
  split <;> simp

theorem unreturned_pool : (unreturned i s).pool = s.pool := by
  unfold unreturned
  split
  · unfold State.recall
    split <;> rfl
  · rfl

theorem callStarted_eq : callStarted i s =
    if (s.ctx i).callState = .idle ∧ s.profile.station = .run then callStart i (unreturned i s) else unreturned i s := by
  have station : (unreturned i s).profile = s.profile := by
    unfold unreturned
    split
    · simp
    · rfl
  rw [← station, ← unreturned_ctx]
  rfl

theorem callStarted_of_not_idle (h : (s.ctx i).callState ≠ .idle) : callStarted i s = unreturned i s := by
  rw [callStarted_eq, if_neg fun hc => h hc.1]

theorem hear_callState (hi : i < s.table.contexts.length) : ((hear i rin sin sv s).ctx i).callState = (s.ctx i).callState := by
  rw [hear, State.ctx_setCtx_self _ _ _ hi]

/-- Idle recognition starts no processing but by a call that starts in IDLE (R26). -/
theorem recognise_passes (hsv : (s.ctx i).serving = some sv) (h : (s.ctx i).callState = .bypass ∨ (s.ctx i).callState = .disabled
    ∨ ((s.ctx i).callState = .idle ∧ silent s.highway.idleCodes rin sin = true)) :
    ((recognise i rin sin s).ctx i).callState.processes = false := by
  have hi := State.lt_of_serving hsv
  have len : i < (hear i rin sin sv s).table.contexts.length := by simpa [hear, State.setCtx] using hi
  have passes : ((hear i rin sin sv s).ctx i).callState.processes = false := by
    rw [hear_callState hi]
    rcases h with hc | hc | ⟨hc, -⟩ <;> rw [hc] <;> rfl
  rw [recognise_eq hsv]
  split
  · split
    · rw [Context.unoffered_callState (endCall_ctx len)]
      exact Context.callOver_passes _
    · exact passes
  · next loud =>
    split
    · exact passes
    · rw [callStarted_of_not_idle, unreturned_ctx]
      · exact passes
      · rw [hear_callState hi]
        rcases h with hc | hc | ⟨-, hq⟩
        · rw [hc]; decide
        · rw [hc]; decide
        · exact absurd hq loud

end Stages

/-- The pair due in a frame is the first placed for it (R3). -/
theorem drivenCodes_eq (s : State) (slot : Nat) : drivenCodes s slot =
    (((s.highway.pipeline.getD slot []).find? fun q => decide (q.frame = s.frame)).elim ⟨0xD5, 0xD5⟩ (·.codes)) := by
  rw [drivenCodes]
  congr 2

/-- Settles O23: the drive of the slot comes first and the placing of the codes last; nothing between touches the highway. -/
theorem passingSlotsAndPipeline : Obligations.PassingSlotsAndPipeline := by
  unfold Obligations.PassingSlotsAndPipeline
  refine ⟨fun s slot rin sin upsets held locked none => ?_, fun s slot rin sin upsets i sv h locked len => ?_⟩
  · have unserved : sampleSlot slot.toNat rin sin upsets s = driveSlot slot.toNat false s := by
      rw [sampleSlot, if_pos locked, none]
    refine ⟨_, congrArg Host.Outcome.next ((unlessHeld_of_ne held).trans unserved), rfl, fun p hp => ?_,
      fun k hk => driveSlot_pipeline_ne false hk, rfl, rfl, rfl, rfl, rfl, rfl⟩
    by_cases hslot : slot.toNat < s.highway.pipeline.length
    · rw [driveSlot_pipeline false hslot] at hp
      exact of_decide_eq_true (List.mem_filter.1 hp).2
    · simp [driveSlot, List.getD_eq_getElem?_getD, hslot] at hp
  · have hslot : slot.toNat < s.highway.pipeline.length := by
      have := slot.isLt
      omega
    have outside : (processByState i rin sin upsets (recognise i rin sin (driveSlot slot.toNat true s))).1.outside =
        (driveSlot slot.toNat true s).outside := by simp
    have highway := State.outside_highway outside
    have frame := State.outside_frame outside
    have share := State.outside_share outside
    have profile := State.outside_profile outside
    generalize hout : processByState i rin sin upsets (recognise i rin sin (driveSlot slot.toNat true s)) = out
      at highway frame share profile
    have ran : sampleSlot slot.toNat rin sin upsets s = blockEndIfDue i (endSample slot.toNat i out) := by
      rw [exec_sample h locked, hout]
    have ended : (blockEndIfDue i (endSample slot.toNat i out)).outside = (endSample slot.toNat i out).outside := by simp
    have lines : (endSample slot.toNat i out).highway.lines = ⟨some slot.toNat, some (drivenCodes s slot.toNat)⟩ :=
      congrArg Highway.lines highway
    refine ⟨_, ⟨s.frame + 2, out.2⟩, congrArg Host.Outcome.next ((unlessHeld_of_ne h.ne_held).trans ran), ?_, ?_, fun hq => ?_,
      fun q hq => ?_, rfl, ?_, fun k hk => ?_, fun hc => ?_, ?_, ?_, ?_⟩
    · rw [State.outside_highway ended, endSample_pipeline highway frame hslot, List.getLast?_append]
      rfl
    · rw [State.outside_highway ended, lines]
    · have no : ((s.highway.pipeline.getD slot.toNat []).find? fun q => decide (q.frame = s.frame)) = none :=
        List.find?_eq_none.2 fun q hm => by simpa using hq q hm
      rw [State.outside_highway ended, lines, drivenCodes_eq, no]
      rfl
    · rw [State.outside_highway ended, lines, drivenCodes_eq, hq]
      rfl
    · rw [State.outside_highway ended, endSample_pipeline highway frame hslot]
    · rw [State.outside_highway ended, endSample_pipeline_ne highway hk]
    · have passes := recognise_passes (s := driveSlot slot.toNat true s) (rin := rin) (sin := sin) h.2.2.2 hc
      exact (congrArg Prod.snd hout).symm.trans (processByState_of_passes passes)
    · exact (State.outside_share ended).trans share
    · exact (State.outside_profile ended).trans profile
    · exact (State.outside_frame ended).trans frame

end Sys2Proof.Machine

namespace Sys2Proof.Machine

open Sys2Proof

/-- What a withdrawal from within a frame makes of the lane (R152). -/
theorem State.recall_lane (s : State) (p : Entry → Bool) : (s.recall p).lane =
    if s.lane.cell.isNone then { s.lane with queue := s.lane.queue.filter fun e => !p e }
    else { s.lane with recalled := (s.lane.recalled.filter fun e => !p e) ++ s.lane.queue.filter p } := by
  unfold State.recall
  split <;> rfl

/-! ## Idle recognition in every call state (R12, R13, R164) -/

section Passing

variable {s : State} {slot i k : Nat} {sv : Serving} {rin sin : Byte} {upsets : List TapUpset}

/-- The next block begins (R45). -/
def Serving.nextBlock (sv : Serving) : Serving := { sv with phase := 0, block := { sv.block with leadIn := false } }

/-- A block end in NOT SERVING, IDLE and BYPASS begins the next block and does nothing else (R54). -/
theorem blockEnded_of_idle (h : ¬((s.ctx i).callState.processes = true ∨ (s.ctx i).callState = .disabled)) :
    blockEnded i s = s.modServing i Serving.nextBlock := by
  unfold blockEnded
  split
  · rfl
  · split
    iterate 3 next hc => rw [hc] at h; simp [CallState.processes] at h
    all_goals rfl

theorem blockEndIfDue_of_idle (h : ¬((s.ctx i).callState.processes = true ∨ (s.ctx i).callState = .disabled)) :
    blockEndIfDue i s = s ∨ blockEndIfDue i s = s.modServing i Serving.nextBlock := by
  rw [blockEndIfDue, whenDue]
  split
  · split
    · exact .inr (blockEnded_of_idle h)
    · exact .inl rfl
  · exact .inl rfl

theorem recognise_bypass (hsv : (s.ctx i).serving = some sv) (hb : (s.ctx i).callState = .bypass) :
    ((recognise i rin sin s).ctx i).callState = .bypass ∧ ((recognise i rin sin s).ctx i).search = (s.ctx i).search
      ∧ (recognise i rin sin s).pool = s.pool := by
  have hi := State.lt_of_serving hsv
  have len : i < (hear i rin sin sv s).table.contexts.length := by simpa [hear, State.setCtx] using hi
  have self : (hear i rin sin sv s).ctx i = { s.ctx i with serving := some (heard s rin sin sv) } := State.ctx_setCtx_self _ _ _ hi
  have bypass : ((hear i rin sin sv s).ctx i).callState = .bypass := (hear_callState hi).trans hb
  have search : ((hear i rin sin sv s).ctx i).search = (s.ctx i).search := by rw [self]
  rw [recognise_eq hsv]
  split
  · split
    · rw [endCall_of_passing len (by rw [bypass]; decide), hungUp_ctx len]
      exact ⟨bypass, search, rfl⟩
    · exact ⟨bypass, search, rfl⟩
  · split
    · exact ⟨bypass, search, rfl⟩
    · rw [callStarted_of_not_idle (by rw [bypass]; decide), unreturned_ctx, unreturned_pool]
      exact ⟨bypass, search, rfl⟩

/-- In BYPASS a sample touches no block and no search (R7). -/
theorem sample_bypass (h : s.servesWith slot i sv) (locked : s.highway.sync = .locked) (hb : (s.ctx i).callState = .bypass) :
    ((sampleSlot slot rin sin upsets s).ctx i).callState = .bypass
      ∧ ((sampleSlot slot rin sin upsets s).ctx i).search = (s.ctx i).search
      ∧ (sampleSlot slot rin sin upsets s).pool = s.pool := by
  obtain ⟨bypass, search, pool⟩ := recognise_bypass (s := driveSlot slot true s) (rin := rin) (sin := sin) h.2.2.2 hb
  obtain ⟨v, hv⟩ := recognise_serving (s := driveSlot slot true s) (rin := rin) (sin := sin) h.2.2.2
  generalize hr : recognise i rin sin (driveSlot slot true s) = u at bypass search pool hv
  have passes : processByState i rin sin upsets u = (u, ⟨rin, sin⟩) := by rw [processByState, bypass]
  have self : (endSample slot i (u, ⟨rin, sin⟩)).ctx i = { u.ctx i with serving := some { v with phase := v.phase + 1 } } :=
    endSample_ctx hv
  have idle : ¬(((endSample slot i (u, ⟨rin, sin⟩)).ctx i).callState.processes = true
      ∨ ((endSample slot i (u, ⟨rin, sin⟩)).ctx i).callState = .disabled) := by
    rw [self, bypass]
    decide
  rw [exec_sample h locked, hr, passes]
  obtain hu | hu := blockEndIfDue_of_idle idle <;> rw [hu]
  · rw [self]
    exact ⟨bypass, search, pool⟩
  · rw [State.ctx_modServing_some (congrArg Context.serving self), self]
    exact ⟨bypass, search, pool⟩

/-- A sample that is not silent starts a call where none is present (R12). -/
theorem recognise_starts (hsv : (s.ctx i).serving = some sv) (loud : silent s.highway.idleCodes rin sin = false)
    (call : sv.callPresent = false) : recognise i rin sin s = callStarted i (hear i rin sin sv s) := by
  rw [recognise_eq hsv, loud, call]
  rfl

/-- The call start of a server withdraws the RETURN it has queued, and the sample queues none (R164). -/
theorem sample_unreturned (h : s.servesWith slot i sv) (locked : s.highway.sync = .locked)
    (loud : silent s.highway.idleCodes rin sin = false) (call : sv.callPresent = false)
    (role : (s.ctx i).role = .taken ∨ (s.ctx i).role = .actingHome) :
    (s.recall (·.isReturn (s.slotOf i))).OnlyNotices (sampleSlot slot rin sin upsets s) := by
  have self := hear_ctx (slot := slot) (rin := rin) (sin := sin) (sv := sv) h.lt
  have starts : recognise i rin sin (driveSlot slot true s) = callStarted i (hear i rin sin sv (driveSlot slot true s)) :=
    recognise_starts (s := driveSlot slot true s) h.2.2.2 loud call
  have slotOf : (hear i rin sin sv (driveSlot slot true s)).slotOf i = s.slotOf i := by
    rw [State.slotOf, self, State.slotOf]
  have withdrawn : (unreturned i (hear i rin sin sv (driveSlot slot true s))).lane = (s.recall (·.isReturn (s.slotOf i))).lane := by
    rw [unreturned, if_pos (by rw [self]; exact role), slotOf, State.recall_lane, State.recall_lane]
    rfl
  have left : (s.recall (·.isReturn (s.slotOf i))).OnlyNotices (unreturned i (hear i rin sin sv (driveSlot slot true s))) :=
    .of_lane withdrawn
  refine State.OnlyNotices.trans ?_ (sample_onlyNotices h locked)
  rw [starts, callStarted_eq]
  split
  · refine left.callStart ?_
    rw [unreturned_ctx, self]
    rcases role with hr | hr <;> exact fun hc => by simp [hr] at hc
  · exact left

end Passing

theorem Entry.kind_of_isReturn {slot : Nat} {e : Entry} (h : e.isReturn slot = true) : e.msg.kind = 14 := by
  unfold Entry.isReturn at h
  split at h
  · next hm => rw [hm]; rfl
  · cases h

theorem idleRecognition : ∀ (s : State) (slot : BitVec 7) (rin sin : Byte) (upsets : List TapUpset) (i : Nat) (sv : Serving),
    s.servesWith slot.toNat i sv → s.highway.sync = .locked → (s.ctx i).slot = some slot.toNat →
    (let quiet := silent s.highway.idleCodes rin sin
     let run := min 4095 (sv.idleRun + 1)
     let ends : Bool := sv.callPresent && decide (s.highway.idleCount ≤ run)
     ∃ t sv', exec (.sample slot rin sin upsets) s = .next t ∧ (t.ctx i).serving = some sv'
      ∧ sv'.callPresent = (if quiet = true then sv.callPresent && !ends else true)
      ∧ sv'.idleRun = (if quiet = true ∧ ends = false then run else 0)
      ∧ (t.ctx i).pendingReturn = (s.ctx i).pendingReturn
      ∧ ((s.ctx i).callState = .bypass →
          (t.ctx i).callState = .bypass ∧ (t.ctx i).search = (s.ctx i).search ∧ t.pool = s.pool)
      ∧ (quiet = false → sv.callPresent = false → (s.ctx i).role = .taken ∨ (s.ctx i).role = .actingHome →
          (s.lane.cell = none → ∀ e ∈ t.lane.queue, e.isReturn slot.toNat = false)
          ∧ (s.lane.cell ≠ none → ∀ e ∈ s.lane.queue, e.isReturn slot.toNat = true → e ∈ t.lane.recalled))) := by
  intro s slot rin sin upsets i sv h locked hslot
  dsimp only
  have call := (onCall_sample (rin := rin) (sin := sin) (upsets := upsets) (k := i) h locked).trans
    (onCall_recognise (s := driveSlot slot.toNat true s) h.2.2.2)
  have slotOf : s.slotOf i = slot.toNat := by rw [State.slotOf, hslot]; rfl
  obtain ⟨sv', hsv', hread⟩ := Option.map_eq_some_iff.1 (congrArg Prod.fst call)
  refine ⟨_, sv', congrArg Host.Outcome.next (unlessHeld_of_ne h.ne_held), hsv', congrArg Prod.fst hread, congrArg Prod.snd hread,
    congrArg Prod.snd call, fun hb => sample_bypass h locked hb, fun loud call role => ?_⟩
  have left := sample_unreturned (upsets := upsets) h locked loud call role
  rw [slotOf] at left
  refine ⟨fun hcell e he => ?_, fun hcell e he hr => ?_⟩
  · obtain h3 | hq := left.mem_queue he
    · by_contra hr
      rw [Bool.not_eq_false] at hr
      rw [Entry.kind_of_isReturn hr] at h3
      cases h3
    · rw [State.recall_lane, hcell] at hq
      simpa using (List.mem_filter.1 hq).2
  · refine left.recalled_stays ?_ (by rw [Entry.kind_of_isReturn hr]; decide) (by rw [Entry.kind_of_isReturn hr]; decide)
    rw [State.recall_lane, if_neg (by simpa using hcell)]
    exact List.mem_append_right _ (List.mem_filter.2 ⟨he, hr⟩)

end Sys2Proof.Machine

namespace Sys2Proof.Machine

open Sys2Proof

/-! ## Pass starts (R82) -/

/-! ### Blocks bound -/

/-- A block bound to segment j for an owner, at zero (R48, R78). -/
def TapBlock.boundTo (o : Owner) (j : Nat) (t : TapBlock) : TapBlock :=
  { t with state := .assigned, owner := some o, segment := some j, lastSegment := some j, entries := zeroTaps, wrong := [] }

/-- The blocks of a list bound to their segments of context i (R82). -/
def State.bindAll (s : State) (i : Nat) (pairs : List (Nat × Nat)) : State :=
  pairs.foldl (fun s jb => s.bindBlock i jb.1 jb.2) s

section BindAll

variable (s : State) (i : Nat) (pairs : List (Nat × Nat))

/-- Binding blocks changes the blocks alone. -/
theorem State.bindAll_eq : s.bindAll i pairs = { s with pool := { s.pool with blocks := (s.bindAll i pairs).pool.blocks } } := by
  induction pairs generalizing s with
  | nil => rfl
  | cons jb pairs ih => exact ih (s.bindBlock i jb.1 jb.2)

@[simp] theorem State.bindAll_table : (s.bindAll i pairs).table = s.table := by rw [State.bindAll_eq]
@[simp] theorem State.bindAll_lane : (s.bindAll i pairs).lane = s.lane := by rw [State.bindAll_eq]
@[simp] theorem State.bindAll_profile : (s.bindAll i pairs).profile = s.profile := by rw [State.bindAll_eq]
@[simp] theorem State.bindAll_frame : (s.bindAll i pairs).frame = s.frame := by rw [State.bindAll_eq]
@[simp] theorem State.bindAll_fifo : (s.bindAll i pairs).pool.fifo = s.pool.fifo := by rw [State.bindAll_eq]
@[simp] theorem State.bindAll_shortfall : (s.bindAll i pairs).pool.shortfall = s.pool.shortfall := by rw [State.bindAll_eq]
@[simp] theorem State.bindAll_ctx (k : Nat) : (s.bindAll i pairs).ctx k = s.ctx k := by
  rw [State.ctx, State.bindAll_table, State.ctx]
@[simp] theorem State.bindAll_length : (s.bindAll i pairs).pool.blocks.length = s.pool.blocks.length := by
  induction pairs generalizing s with
  | nil => rfl
  | cons jb pairs ih => exact (ih (s.bindBlock i jb.1 jb.2)).trans (State.modBlock_length _ _ _)

theorem State.bindAll_eq_foldl : s.bindAll i pairs =
    pairs.foldl (fun t jb => t.modBlock jb.2 (TapBlock.boundTo ⟨i, s.slotOf i⟩ jb.1)) s := by
  have gen : ∀ t : State, t.slotOf i = s.slotOf i →
      t.bindAll i pairs = pairs.foldl (fun t jb => t.modBlock jb.2 (TapBlock.boundTo ⟨i, s.slotOf i⟩ jb.1)) t := by
    induction pairs with
    | nil => exact fun _ _ => rfl
    | cons jb pairs ih =>
      intro t ht
      have step : t.bindAll i (jb :: pairs) = (t.bindBlock i jb.1 jb.2).bindAll i pairs := rfl
      rw [step, ih (t.bindBlock i jb.1 jb.2) ht, List.foldl_cons, State.bindBlock, ht]
      rfl
  exact gen s rfl

end BindAll

/-- Distinct blocks bound stand as bound, and every other one stands. -/
theorem State.bindAll_tapBlock {s : State} {i : Nat} {pairs : List (Nat × Nat)} (distinct : (pairs.map (·.2)).Nodup)
    (inPool : ∀ jb ∈ pairs, jb.2 < s.pool.blocks.length) :
    (∀ jb ∈ pairs, (s.bindAll i pairs).tapBlock jb.2 = (s.tapBlock jb.2).boundTo ⟨i, s.slotOf i⟩ jb.1)
      ∧ ∀ b, (∀ jb ∈ pairs, jb.2 ≠ b) → (s.bindAll i pairs).tapBlock b = s.tapBlock b := by
  rw [State.bindAll_eq_foldl]
  exact State.foldl_modBlock (fun jb => TapBlock.boundTo ⟨i, s.slotOf i⟩ jb.1) pairs s distinct inPool

/-! ### Sorted lists -/

theorem insertNum_append {x : Nat} {xs : List Nat} (h : ∀ y ∈ xs, y < x) : insertNum x xs = xs ++ [x] := by
  induction xs with
  | nil => rfl
  | cons y ys ih =>
    have hy := h y (List.mem_cons_self ..)
    rw [insertNum, if_neg (by omega), if_neg (by omega), ih fun z hz => h z (List.mem_cons_of_mem _ hz)]
    rfl

theorem insertSegment_append {e : Segment} {m : List Segment} (h : ∀ x ∈ m, x.number < e.number) :
    insertSegment e m = m ++ [e] := by
  induction m with
  | nil => rfl
  | cons x m ih =>
    have hx := h x (List.mem_cons_self ..)
    rw [insertSegment, if_neg (by omega), ih fun z hz => h z (List.mem_cons_of_mem _ hz)]
    rfl

theorem insertSegment_perm (e : Segment) (m : List Segment) : (insertSegment e m).Perm (e :: m) := by
  induction m with
  | nil => exact .refl _
  | cons x m ih =>
    unfold insertSegment
    split
    · exact .refl _
    · exact (ih.cons x).trans (.swap e x m)

theorem insertNum_perm {x : Nat} {xs : List Nat} (h : x ∉ xs) : (insertNum x xs).Perm (x :: xs) := by
  induction xs with
  | nil => exact .refl _
  | cons y ys ih =>
    have hy : x ≠ y := fun hxy => h (hxy ▸ List.mem_cons_self ..)
    unfold insertNum
    rw [if_neg hy]
    split
    · exact .refl _
    · exact ((ih fun hm => h (List.mem_cons_of_mem _ hm)).cons y).trans (.swap x y ys)

theorem sortNums_perm {xs : List Nat} (h : xs.Nodup) : (sortNums xs).Perm xs := by
  induction xs with
  | nil => exact .refl _
  | cons x xs ih =>
    obtain ⟨hx, hxs⟩ := List.nodup_cons.1 h
    exact (insertNum_perm (mt (Laws.mem_sortNums x xs).1 hx)).trans ((ih hxs).cons x)

/-- An ascending list is the sorted list of its members. -/
theorem sortNums_eq_of_perm {xs ys : List Nat} (hs : ys.Pairwise (· < ·)) (hp : ys.Perm xs) : sortNums xs = ys := by
  have nodup : xs.Nodup := hp.nodup_iff.1 (hs.imp fun h => Nat.ne_of_lt h)
  exact List.Perm.eq_of_pairwise (fun a b _ _ h h' => absurd (h.trans h') (lt_irrefl a)) (sortNums_sorted xs) hs ((sortNums_perm nodup).trans hp.symm)

/-! ### The record after a pass start -/

/-- A map entry of a bound segment. -/
def boundSegment (jb : Nat × Nat) : Segment := ⟨jb.1, .block jb.2⟩

/-- The search record after a pass start that binds the spare hand to the lowest unexplored segments (R82). -/
def SearchRecord.passed (r : SearchRecord) (reach : Nat) : SearchRecord :=
  let pairs := (r.unexplored reach).zip r.spare
  { r with map := pairs.foldl (fun m jb => insertSegment (boundSegment jb) m) r.map
           explored := pairs.foldl (fun e jb => insertNum jb.1 e) r.explored
           spare := [], pass := countUp 255 r.pass, dwell := 0, status := .inPass }

theorem filterMap_bound (pairs : List (Nat × Nat)) :
    (pairs.map boundSegment).filterMap (fun e => e.block?.map fun b => (e.number, b)) = pairs := by
  induction pairs with
  | nil => rfl
  | cons jb pairs ih => simpa [boundSegment, Segment.block?] using ih

theorem foldl_insertSegment {pairs : List (Nat × Nat)} (h : pairs.Pairwise fun a b => a.1 < b.1) :
    pairs.foldl (fun m jb => insertSegment (boundSegment jb) m) [] = pairs.map boundSegment := by
  have gen : ∀ m : List Segment, (∀ x ∈ m, ∀ jb ∈ pairs, x.number < jb.1) →
      pairs.foldl (fun m jb => insertSegment (boundSegment jb) m) m = m ++ pairs.map boundSegment := by
    induction pairs with
    | nil => simp
    | cons p pairs ih =>
      intro m hm
      obtain ⟨hp, hps⟩ := List.pairwise_cons.1 h
      rw [List.foldl_cons, insertSegment_append fun x hx => hm x hx p (List.mem_cons_self ..), ih hps]
      · simp
      · intro x hx jb hjb
        rcases List.mem_append.1 hx with hx | hx
        · exact hm x hx jb (List.mem_cons_of_mem _ hjb)
        · rw [List.mem_singleton.1 hx]
          exact hp jb hjb
  exact gen [] (by simp)

theorem foldl_insertNum {pairs : List (Nat × Nat)} (h : pairs.Pairwise fun a b => a.1 < b.1) :
    pairs.foldl (fun e jb => insertNum jb.1 e) [] = pairs.map (·.1) := by
  have gen : ∀ m : List Nat, (∀ x ∈ m, ∀ jb ∈ pairs, x < jb.1) →
      pairs.foldl (fun e jb => insertNum jb.1 e) m = m ++ pairs.map (·.1) := by
    induction pairs with
    | nil => simp
    | cons p pairs ih =>
      intro m hm
      obtain ⟨hp, hps⟩ := List.pairwise_cons.1 h
      rw [List.foldl_cons, insertNum_append fun x hx => hm x hx p (List.mem_cons_self ..), ih hps]
      · simp
      · intro x hx jb hjb
        rcases List.mem_append.1 hx with hx | hx
        · exact hm x hx jb (List.mem_cons_of_mem _ hjb)
        · rw [List.mem_singleton.1 hx]
          exact hp jb hjb
  exact gen [] (by simp)

theorem zip_map_fst {α β : Type} (xs : List α) (ys : List β) : (xs.zip ys).map Prod.fst = xs.take ys.length := by
  rw [List.zip_eq_zip_take_min, List.map_fst_zip (by simp)]
  rcases Nat.le_total xs.length ys.length with h | h
  · rw [Nat.min_eq_left h, List.take_length, List.take_of_length_le h]
  · rw [Nat.min_eq_right h]

theorem zip_map_snd {α β : Type} (xs : List α) (ys : List β) : (xs.zip ys).map Prod.snd = ys.take xs.length := by
  rw [List.zip_eq_zip_take_min, List.map_snd_zip (by simp)]
  rcases Nat.le_total xs.length ys.length with h | h
  · rw [Nat.min_eq_left h]
  · rw [Nat.min_eq_right h, List.take_length, List.take_of_length_le h]

/-- Pairs on ascending segments ascend. -/
theorem zip_pairwise {js : List Nat} (h : js.Pairwise (· < ·)) (X : List Nat) : (js.zip X).Pairwise fun a b => a.1 < b.1 := by
  have firsts : ((js.zip X).map Prod.fst).Pairwise (· < ·) := by
    rw [zip_map_fst]
    exact h.sublist (List.take_sublist _ _)
  exact List.pairwise_map.1 firsts

theorem unexplored_newSearch (want reach : Nat) : (newSearch want).unexplored reach = List.range reach :=
  List.filter_eq_self.2 fun _ _ => rfl

/-- The record of a new search, its first pass started on the spare hand X (R82). -/
def SearchRecord.first (want reach : Nat) (X : List Nat) : SearchRecord :=
  { map := ((List.range reach).zip X).map boundSegment, spare := [], explored := List.range (min reach X.length), retained := [],
    pass := 1, status := .inPass, dwell := 0, want }

theorem SearchRecord.first_bound (want reach : Nat) (X : List Nat) : (first want reach X).bound = (List.range reach).zip X :=
  filterMap_bound _

theorem passed_newSearch (want reach : Nat) (X : List Nat) :
    ({ newSearch want with spare := X } : SearchRecord).passed reach = .first want reach X := by
  have pairwise := zip_pairwise List.pairwise_lt_range X (js := List.range reach)
  have explored : ((List.range reach).zip X).map (·.1) = List.range (min reach X.length) := by
    rw [zip_map_fst, List.take_range, Nat.min_comm]
  have unseen : ({ newSearch want with spare := X } : SearchRecord).unexplored reach = List.range reach :=
    unexplored_newSearch want reach
  have map := foldl_insertSegment pairwise
  have numbers := (foldl_insertNum pairwise).trans explored
  rw [SearchRecord.passed, unseen]
  simp only [newSearch, map, numbers]
  rfl

/-! ### Pass starts -/

section PassStart

variable {s : State} {i : Nat} {r : SearchRecord}

/-- A task that sets off nothing. -/
theorem perform_single {t : Task} {s : State} (h : (doTask t s).2 = []) : perform [t] s = (doTask t s).1 := by
  rw [perform, runTasks, h]
  exact runTasks_nil _ _

theorem passStartTask_eq (hc : (s.ctx i).callState = .search) (hr : (s.ctx i).search = some r)
    (hu : r.unexplored (s.reachOf i) ≠ []) :
    passStartTask i s =
      (let u := s.bindAll i ((r.unexplored (s.reachOf i)).zip r.spare)
       let rest := r.spare.drop (r.unexplored (s.reachOf i)).length
       if rest = [] then (u.modSearch i fun _ => r.passed (s.reachOf i), [])
       else ((u.modSearch i fun _ => { r.passed (s.reachOf i) with want := (r.passed (s.reachOf i)).bound.length }).leaveShortfall i,
         rest.map .release)) := by
  rw [passStartTask, hc, hr]
  simp only [if_neg hu]
  rfl

/-- A pass start that binds the whole spare hand (R82). -/
theorem perform_passStart_fits (hc : (s.ctx i).callState = .search) (hr : (s.ctx i).search = some r)
    (hu : r.unexplored (s.reachOf i) ≠ []) (hfit : r.spare.length ≤ (r.unexplored (s.reachOf i)).length) :
    perform [.passStart i] s =
      (s.bindAll i ((r.unexplored (s.reachOf i)).zip r.spare)).modSearch i fun _ => r.passed (s.reachOf i) := by
  have task := passStartTask_eq hc hr hu
  simp only [List.drop_eq_nil_of_le hfit, if_true] at task
  rw [perform_single (by rw [doTask, task]), doTask, task]

@[simp] theorem State.cancelOffer_pool (s : State) (i : Nat) : (s.cancelOffer i).pool = s.pool := by
  unfold State.cancelOffer
  dsimp only
  split
  · exact State.recall_pool s _
  · rfl

/-- Leaving the shortfall queue touches no block and no FIFO (R102). -/
theorem State.leaveShortfall_pool (s : State) (i : Nat) : (s.leaveShortfall i).pool =
    { s.pool with shortfall := s.pool.shortfall.erase i } := by
  unfold State.leaveShortfall
  split
  · rw [State.cancelOffer_pool]
  · next h => rw [List.erase_of_not_mem (by simpa using h)]

theorem State.leaveShortfall_shortfall (s : State) (i : Nat) : (s.leaveShortfall i).pool.shortfall = s.pool.shortfall.erase i := by
  rw [State.leaveShortfall_pool]

theorem State.leaveShortfall_fifo (s : State) (i : Nat) : (s.leaveShortfall i).pool.fifo = s.pool.fifo := by
  rw [State.leaveShortfall_pool]

theorem State.leaveShortfall_tapBlock (s : State) (i b : Nat) : (s.leaveShortfall i).tapBlock b = s.tapBlock b := by
  rw [State.tapBlock, State.leaveShortfall_pool, State.tapBlock]

/-- A pass start with blocks left over, while no other context waits (R82, R103). -/
theorem perform_passStart_over (hc : (s.ctx i).callState = .search) (hr : (s.ctx i).search = some r)
    (hu : r.unexplored (s.reachOf i) ≠ []) (hover : (r.unexplored (s.reachOf i)).length < r.spare.length)
    (hq : s.pool.shortfall.erase i = []) (hfew : r.spare.length ≤ 4000)
    (hmark : ∀ b ∈ r.spare.drop (r.unexplored (s.reachOf i)).length,
      ((s.bindAll i ((r.unexplored (s.reachOf i)).zip r.spare)).tapBlock b).retirePending = false) :
    perform [.passStart i] s =
      (((s.bindAll i ((r.unexplored (s.reachOf i)).zip r.spare)).modSearch i fun _ =>
        { r.passed (s.reachOf i) with want := (r.passed (s.reachOf i)).bound.length }).leaveShortfall i).freeAll
        (r.spare.drop (r.unexplored (s.reachOf i)).length) := by
  have left : r.spare.drop (r.unexplored (s.reachOf i)).length ≠ [] := by
    rw [Ne, List.drop_eq_nil_iff]
    omega
  have task := passStartTask_eq hc hr hu
  simp only [if_neg left] at task
  generalize hv : ((s.bindAll i ((r.unexplored (s.reachOf i)).zip r.spare)).modSearch i fun _ =>
        { r.passed (s.reachOf i) with want := (r.passed (s.reachOf i)).bound.length }) = v at task ⊢
  have shortfall : (v.leaveShortfall i).pool.shortfall = [] := by
    rw [State.leaveShortfall_shortfall, ← hv]
    simpa using hq
  have blocks : ∀ b, (v.leaveShortfall i).tapBlock b =
      (s.bindAll i ((r.unexplored (s.reachOf i)).zip r.spare)).tapBlock b := fun b => by
    rw [State.leaveShortfall_tapBlock, ← hv, State.modSearch_tapBlock]
  have released := runTasks_release (bs := r.spare.drop (r.unexplored (s.reachOf i)).length) (s := v.leaveShortfall i)
    (4095 - (r.spare.drop (r.unexplored (s.reachOf i)).length).length) [] shortfall fun b hb => by
      rw [blocks]
      exact hmark b hb
  rw [Nat.add_sub_of_le (by rw [List.length_drop]; omega), List.append_nil, runTasks_nil] at released
  rw [perform, runTasks, doTask, task, List.append_nil, released]

end PassStart

end Sys2Proof.Machine

namespace Sys2Proof.Machine

open Sys2Proof

/-! ## Requests (R81, R101) -/

/-- A context short of its want that is not in the shortfall queue joins it with a POOL SHORT notice (R102, R112). -/
theorem State.joinShortfall_eq {s : State} {i : Nat} (hi : i ∉ s.pool.shortfall) (hs : s.shortOf i ≠ 0) :
    s.joinShortfall i = { s with pool := { s.pool with shortfall := s.pool.shortfall ++ [i] } }.notify 3
      [(7, s.slotOf i), (5, s.shortOf i)] :=
  if_neg (by simp [hi, hs])

/-- A notice looks at the lane, the mask, the frame and the station's number alone. -/
theorem State.notify_lane_congr {s t : State} (hl : t.lane = s.lane) (hp : t.profile = s.profile) (hf : t.frame = s.frame)
    (kind : Nat) (fs : List Field) : (t.notify kind fs).lane = (s.notify kind fs).lane := by
  unfold State.notify
  rw [hp]
  split
  · simp only [State.send, State.enqueue, State.me, hl, hp, hf]
  · exact hl

/-- `t` is `s` after context i, whose search wants `B` blocks and holds none, requested them: it has the `n` blocks `X`, in
ascending number, in its spare hand, and waits when they are fewer than `B` (R81, R101, R102). -/
structure Requested (s : State) (i B n : Nat) (X : List Nat) (t : State) : Prop where
  self : t.ctx i = { s.ctx i with search := some { newSearch B with spare := X } }
  others : ∀ k, k ≠ i → t.ctx k = s.ctx k
  fifo : t.pool.fifo = s.pool.fifo.drop n
  shortfall : t.pool.shortfall = if n < B then s.pool.shortfall ++ [i] else s.pool.shortfall
  length : t.pool.blocks.length = s.pool.blocks.length
  taken : ∀ b ∈ X, b < s.pool.blocks.length → t.tapBlock b = (s.tapBlock b).reservedBy ⟨i, s.slotOf i⟩
  stand : ∀ b, b ∉ X → t.tapBlock b = s.tapBlock b
  lane : t.lane = if n < B then (s.notify 3 [(7, s.slotOf i), (5, B - n)]).lane else s.lane

section Request

variable {s : State} {i B : Nat}

/-- Context i with the first n FREE blocks in its spare hand (R101). -/
def State.inHand (s : State) (i n : Nat) : State :=
  ((s.takeBlocks n).2.reserveAll i (s.pool.fifo.take n)).modSearch i fun r =>
    { r with spare := sortNums (r.spare ++ s.pool.fifo.take n) }

theorem requestToSpare_wait (hs : s.shortOf i ≠ 0) (hq : s.pool.shortfall ≠ []) :
    requestToSpare i s = (s.joinShortfall i, 0) := by
  rw [requestToSpare]
  simp only [if_neg hs, if_pos hq]

theorem requestToSpare_free (hs : s.shortOf i ≠ 0) (hq : s.pool.shortfall = []) :
    requestToSpare i s = (if min (s.shortOf i) s.pool.fifo.length < s.shortOf i then
      (s.inHand i (min (s.shortOf i) s.pool.fifo.length)).joinShortfall i else s.inHand i (min (s.shortOf i) s.pool.fifo.length),
      min (s.shortOf i) s.pool.fifo.length) := by
  have len : (s.pool.fifo.take (min (s.shortOf i) s.free)).length = min (s.shortOf i) s.pool.fifo.length := by
    rw [List.length_take, State.free]
    omega
  rw [requestToSpare]
  simp only [if_neg hs, if_neg (not_not_intro hq), State.takeBlocks, len]
  rfl

theorem shortOf_newSearch {X : List Nat} (hr : (s.ctx i).search = some { newSearch B with spare := X }) :
    s.shortOf i = B - X.length := by
  rw [State.shortOf, hr]
  exact congrArg (B - ·) (Nat.zero_add _)

section InHand

variable {n : Nat} (hi : i < s.table.contexts.length) (hr : (s.ctx i).search = some (newSearch B))
include hi hr

theorem inHand_ctx : (s.inHand i n).ctx i = { s.ctx i with
    search := some { newSearch B with spare := sortNums (s.pool.fifo.take n) } } := by
  rw [State.inHand, State.ctx_modSearch_self _ _ _ (by rw [State.reserveAll_table]; exact hi), State.reserveAll_ctx,
    State.ctx_takeBlocks, hr]
  rfl

/-- With the blocks in hand reserved and the FIFO moved up, what is left of a request is its place in the queue (R100 to R102). -/
theorem requested_of_inHand {t : State} (hctx : ∀ k, t.ctx k = (s.inHand i n).ctx k) (hfifo : t.pool.fifo = (s.inHand i n).pool.fifo)
    (hblocks : t.pool.blocks = (s.inHand i n).pool.blocks)
    (shortfall : t.pool.shortfall = if n < B then s.pool.shortfall ++ [i] else s.pool.shortfall)
    (lane : t.lane = if n < B then (s.notify 3 [(7, s.slotOf i), (5, B - n)]).lane else s.lane) :
    Requested s i B n (sortNums (s.pool.fifo.take n)) t := by
  have read : ∀ b, t.tapBlock b = (s.inHand i n).tapBlock b := fun b => by rw [State.tapBlock, hblocks, State.tapBlock]
  have block : ∀ b, t.tapBlock b = ((s.takeBlocks n).2.reserveAll i (s.pool.fifo.take n)).tapBlock b := fun b => by
    rw [read, State.inHand, State.modSearch_tapBlock]
  refine ⟨?_, fun k hk => ?_, ?_, shortfall, ?_, fun b hb hlt => ?_, fun b hb => ?_, lane⟩
  · rw [hctx, inHand_ctx hi hr]
  · rw [hctx, State.inHand, State.ctx_modSearch_ne _ _ _ _ hk.symm, State.reserveAll_ctx, State.ctx_takeBlocks]
  · rw [hfifo, State.inHand, State.modSearch_pool, State.reserveAll_fifo]
    rfl
  · rw [hblocks, State.inHand, State.modSearch_pool, State.reserveAll_length]
    rfl
  · rw [block, State.reserveAll_tapBlock, if_pos ⟨(Laws.mem_sortNums _ _).1 hb, hlt⟩]
    rfl
  · rw [block, State.reserveAll_tapBlock, if_neg fun h => hb ((Laws.mem_sortNums _ _).2 h.1)]
    rfl

end InHand

/-- A new search's request (R81, R101). -/
theorem requestToSpare_requested (hi : i < s.table.contexts.length) (hr : (s.ctx i).search = some (newSearch B)) (hB : 0 < B)
    (hq : i ∉ s.pool.shortfall) (nodup : s.pool.fifo.Nodup) {n : Nat}
    (hn : n = if s.pool.shortfall = [] then min B s.pool.fifo.length else 0) :
    (requestToSpare i s).2 = n ∧ Requested s i B n (sortNums (s.pool.fifo.take n)) (requestToSpare i s).1 := by
  have short : s.shortOf i = B := shortOf_newSearch (X := []) hr
  have short0 : s.shortOf i ≠ 0 := by omega
  by_cases hw : s.pool.shortfall = []
  · rw [if_pos hw] at hn
    have request := requestToSpare_free short0 hw
    rw [short, ← hn] at request
    have lane : (s.inHand i n).lane = s.lane := by
      rw [State.inHand, State.modSearch_lane, State.reserveAll_lane]
      rfl
    have shortfall : (s.inHand i n).pool.shortfall = s.pool.shortfall := by
      rw [State.inHand, State.modSearch_pool, State.reserveAll_shortfall]
      rfl
    rw [request]
    refine ⟨rfl, ?_⟩
    by_cases hnB : n < B
    · have left : (s.inHand i n).shortOf i = B - n := by
        rw [shortOf_newSearch (congrArg Context.search (inHand_ctx hi hr)),
          (sortNums_perm (nodup.sublist (List.take_sublist n _))).length_eq, List.length_take]
        omega
      have slot : (s.inHand i n).slotOf i = s.slotOf i := by
        rw [State.slotOf, inHand_ctx hi hr]
        rfl
      have outside : (s.inHand i n).outside = s.outside := by simp [State.inHand, State.reserveAll, State.outside_foldl]
      rw [if_pos hnB, State.joinShortfall_eq (by rw [shortfall]; exact hq) (by omega), left, slot, shortfall]
      refine requested_of_inHand hi hr (fun k => ?_) ?_ ?_ ?_ ?_
      · rw [State.notify_ctx, State.ctx_setPool]
      · rw [State.notify_pool]
      · rw [State.notify_pool]
      · rw [State.notify_pool, if_pos hnB]
      · rw [if_pos hnB]
        have told := State.notify_lane_congr (s := s)
          (t := { s.inHand i n with pool := { (s.inHand i n).pool with shortfall := s.pool.shortfall ++ [i] } }) lane
          (State.outside_profile outside) (State.outside_frame outside) 3 [(7, s.slotOf i), (5, B - n)]
        exact told
    · rw [if_neg hnB]
      exact requested_of_inHand hi hr (fun _ => rfl) rfl rfl (by rw [if_neg hnB, shortfall]) (by rw [if_neg hnB, lane])
  · rw [if_neg hw] at hn
    subst hn
    have standing : s.ctx i = { s.ctx i with search := some (newSearch B) } := by rw [← hr]
    have lane := State.notify_lane_congr (s := s) (t := { s with pool := { s.pool with shortfall := s.pool.shortfall ++ [i] } })
      rfl rfl rfl 3 [(7, s.slotOf i), (5, B)]
    rw [requestToSpare_wait short0 hw, State.joinShortfall_eq hq short0, short]
    refine ⟨rfl, ?_, fun k _ => ?_, ?_, ?_, ?_, fun b hb => ?_, fun b _ => ?_, ?_⟩
    · rw [State.notify_ctx, State.ctx_setPool]
      exact standing
    · rw [State.notify_ctx, State.ctx_setPool]
    · rw [State.notify_pool]
      rfl
    · rw [State.notify_pool, if_pos hB]
    · rw [State.notify_pool]
    · cases hb
    · rw [State.tapBlock, State.notify_pool]
      rfl
    · rw [if_pos hB]
      exact lane

end Request

end Sys2Proof.Machine

namespace Sys2Proof.Machine

open Sys2Proof

/-! ## The call state under the tasks -/

section CallStates

variable {s : State} {i k : Nat}

theorem callState_modCtx {f : Context → Context} (hf : ∀ c, (f c).callState = c.callState) :
    ((s.modCtx i f).ctx k).callState = (s.ctx k).callState := State.ctx_modCtx_proj Context.callState s i k f hf

@[simp] theorem callState_modSearch (s : State) (i k : Nat) (f : SearchRecord → SearchRecord) :
    ((s.modSearch i f).ctx k).callState = (s.ctx k).callState := callState_modCtx fun _ => rfl

@[simp] theorem callState_modServing (s : State) (i k : Nat) (f : Serving → Serving) :
    ((s.modServing i f).ctx k).callState = (s.ctx k).callState := callState_modCtx fun _ => rfl

@[simp] theorem callState_cancelOffer (s : State) (i k : Nat) : ((s.cancelOffer i).ctx k).callState = (s.ctx k).callState :=
  Context.unoffered_callState (State.unoffered_cancelOffer s i k)

@[simp] theorem callState_leaveShortfall (s : State) (i k : Nat) : ((s.leaveShortfall i).ctx k).callState = (s.ctx k).callState :=
  Context.unoffered_callState (State.unoffered_leaveShortfall s i k)

@[simp] theorem callState_leaveIfMet (s : State) (i k : Nat) : ((s.leaveIfMet i).ctx k).callState = (s.ctx k).callState := by
  unfold State.leaveIfMet
  split <;> simp

@[simp] theorem callState_placeBlock (b k : Nat) (s : State) : ((placeBlock b s).1.ctx k).callState = (s.ctx k).callState := by
  unfold placeBlock
  split
  · simp
  · split
    · simp
    · split <;> simp
    · simp

@[simp] theorem callState_promoteTask (k : Nat) (s : State) : ((promoteTask s).1.ctx k).callState = (s.ctx k).callState := by
  unfold promoteTask
  split
  · rfl
  · simp only [callState_placeBlock]
    split <;> simp

theorem callState_releaseTask (b k : Nat) (s : State) : ((releaseTask b s).1.ctx k).callState = (s.ctx k).callState := by
  unfold releaseTask
  split <;> simp [State.failBlock]

theorem callState_foldl_bindBlock (pairs : List (Nat × Nat)) :
    ((pairs.foldl (fun s jb => s.bindBlock i jb.1 jb.2) s).ctx k).callState = (s.ctx k).callState := by
  rw [State.ctx_foldl (fun s (jb : Nat × Nat) => s.bindBlock i jb.1 jb.2) (by simp)]

theorem callState_passStartTask (i k : Nat) (s : State) : ((passStartTask i s).1.ctx k).callState = (s.ctx k).callState := by
  unfold passStartTask
  split
  · dsimp only
    split
    · rfl
    · split <;> simp [callState_foldl_bindBlock]
  · rfl

@[simp] theorem callState_fillMap (s : State) (i k : Nat) (map : List Segment) (bs : List Nat) :
    ((s.fillMap i map bs).1.ctx k).callState = (s.ctx k).callState := by
  simp [State.fillMap, callState_foldl_bindBlock]

@[simp] theorem callState_requestForPlan (i k : Nat) (s : State) : ((requestForPlan i s).ctx k).callState = (s.ctx k).callState := by
  unfold requestForPlan
  dsimp only
  split
  · rfl
  · split
    · simp
    · split <;> simp

theorem callState_toTrack (s : State) (i k : Nat) :
    ((s.toTrack i).ctx k).callState = (s.ctx k).callState ∨ ((s.toTrack i).ctx k).callState = .track := by
  rw [State.toTrack, State.ctx_modCtx]
  split
  · exact .inr rfl
  · exact .inl rfl

theorem callState_searchEndTask (i k : Nat) (s : State) : ((searchEndTask i s).1.ctx k).callState = (s.ctx k).callState
    ∨ ((searchEndTask i s).1.ctx k).callState = .track := by
  unfold searchEndTask
  split
  · exact .inl rfl
  · dsimp only
    split
    · exact (callState_toTrack _ i k).imp_left fun h => h.trans (by simp)
    · refine (callState_toTrack _ i k).imp_left fun h => h.trans ?_
      split <;> simp

/-- A task changes a call state to TRACK alone (R88). -/
theorem callState_doTask (t : Task) (s : State) (k : Nat) : ((doTask t s).1.ctx k).callState = (s.ctx k).callState
    ∨ ((doTask t s).1.ctx k).callState = .track := by
  cases t with
  | release b => exact .inl (callState_releaseTask b k s)
  | promote => exact .inl (callState_promoteTask k s)
  | passStart i => exact .inl (callState_passStartTask i k s)
  | checkMet i => exact .inl (callState_leaveIfMet s i k)
  | searchEnd i => exact callState_searchEndTask i k s
  | finishSearch i => exact .inl (by simp [doTask, finishSearchTask])

theorem callState_perform (ts : List Task) (s : State) (k : Nat) : ((perform ts s).ctx k).callState = (s.ctx k).callState
    ∨ ((perform ts s).ctx k).callState = .track := by
  unfold perform
  generalize 4096 = fuel
  induction fuel generalizing ts s with
  | zero => exact .inl rfl
  | succ n ih =>
    cases ts with
    | nil => exact .inl rfl
    | cons t ts => exact (ih _ _).elim (fun h => by rw [runTasks, h]; exact callState_doTask t s k) .inr

/-- The acts on searches keep a call in SEARCH or TRACK. -/
theorem processes_of {st st' : CallState} (h : st.processes = true) (after : st' = st ∨ st' = .track) : st'.processes = true := by
  rcases after with rfl | rfl
  · exact h
  · rfl

theorem processes_perform {ts : List Task} (h : (s.ctx k).callState.processes = true) :
    ((perform ts s).ctx k).callState.processes = true := processes_of h (callState_perform ts s k)

theorem callState_requestToSpare (i k : Nat) (s : State) : ((requestToSpare i s).1.ctx k).callState = (s.ctx k).callState :=
  (congrArg Context.callState (unsearched_requestToSpare s i k) :)

theorem processes_evaluate (h : (s.ctx k).callState.processes = true) : ((evaluate i s).ctx k).callState.processes = true := by
  have unbound : ∀ gone u, ((unbind i gone u).ctx k).callState = (u.ctx k).callState := fun gone u => by
    rw [unbind, callState_modSearch, State.ctx_foldl (fun s (jb : Nat × Nat) => s.reserveBlock i jb.2) (by simp)]
  unfold evaluate nextStep
  split
  · exact h
  · dsimp only
    split
    · exact processes_perform (by simpa [unbound] using h)
    · split
      · exact processes_perform (by simpa [unbound] using h)
      · split
        · simpa using h
        · exact processes_perform (by simpa [unbound] using h)

theorem processes_searchAgain (hi : i < s.table.contexts.length) : ((searchAgain i s).ctx i).callState.processes = true := by
  have searching : ∀ u : State, i < u.table.contexts.length →
      ((u.modCtx i fun c => { c with callState := .search, search := some (newSearch (u.profileOf i).budget) }).ctx i).callState.processes
        = true := fun u hu => by rw [State.ctx_modCtx_self _ _ _ hu]; rfl
  unfold searchAgain
  dsimp only
  split
  · exact processes_perform (searching _ (by simpa using hi))
  · split
    · refine processes_perform ?_
      rw [callState_requestToSpare]
      exact searching _ (by simpa using hi)
    · rw [callState_requestToSpare]
      exact searching _ (by simpa using hi)

end CallStates

/-! ## A new search leaves the rest of the context (R49, R56, R90, R117) -/

/-- A context whose filter state starts again. -/
def Context.restarted (c : Context) : Context := { c with serving := c.serving.map restartFilter }

theorem Context.steady_restarted {c d : Context} (h : d.steady = c.steady) : d.restarted.steady = c.restarted.steady := by
  have commutes : ∀ c : Context, c.restarted.steady = c.steady.restarted.steady := fun c => by
    by_cases hr : c.role = .homeOffering <;> simp [Context.restarted, Context.steady, Function.comp_def, restartFilter, hr]
  rw [commutes d, commutes c, h]

section Restart

variable {s : State} {i k : Nat}

theorem steady_searchAgain : ((searchAgain i s).ctx k).steady = ((s.modServing i restartFilter).ctx k).steady := by
  unfold searchAgain
  dsimp only
  split
  · simp
  · split <;> simp

theorem steady_searchAgain_self (hi : i < s.table.contexts.length) :
    ((searchAgain i s).ctx i).steady = (s.ctx i).restarted.steady := by
  rw [steady_searchAgain, State.ctx_modServing_self _ _ _ hi]
  rfl

theorem steady_searchAgain_ne (hk : k ≠ i) : ((searchAgain i s).ctx k).steady = (s.ctx k).steady := by
  rw [steady_searchAgain, State.ctx_modServing_ne _ _ _ _ hk.symm]

theorem steady_pathChanged_self (hi : i < s.table.contexts.length) :
    ((pathChanged i s).ctx i).steady = (s.ctx i).restarted.steady := by
  have out : ((releaseHeld i s).notify 1 [(7, s.slotOf i)]).outside = s.outside := by simp
  rw [pathChanged, steady_searchAgain_self (by rw [State.outside_contexts out]; exact hi)]
  exact Context.steady_restarted (by rw [State.notify_ctx, steady_releaseHeld])

theorem steady_pathChanged_ne (hk : k ≠ i) : ((pathChanged i s).ctx k).steady = (s.ctx k).steady := by
  rw [pathChanged, steady_searchAgain_ne hk, State.notify_ctx, steady_releaseHeld]

theorem processes_pathChanged (hi : i < s.table.contexts.length) : ((pathChanged i s).ctx i).callState.processes = true := by
  have out : ((releaseHeld i s).notify 1 [(7, s.slotOf i)]).outside = s.outside := by simp
  exact processes_searchAgain (by rw [State.outside_contexts out]; exact hi)

end Restart

end Sys2Proof.Machine

namespace Sys2Proof.Machine

open Sys2Proof

/-! ## The block end in SEARCH or TRACK (R50 to R57, R68, R70, R119 to R135) -/

section BlockEnd

variable {s : State} {i k : Nat} {sv : Serving}

/-- The serving parts after the work of a block end that is no lead-in, before its events. -/
def blockParts (s : State) (i : Nat) (sv : Serving) : Serving := toneBlockEnd (s.profileOf i).tone (servingBlockEnd s i sv)

/-- The work of a block end that is no lead-in, before its events (R50 to R56, R70, R83, R119 to R133). -/
def blockWork (i : Nat) (sv : Serving) (s : State) : State :=
  ((s.mapBound i fun es => es.map (commitEntry (commitReport sv.hold sv.block.clean != .none) (s.profileOf i).step
      (sv.hold.elim 0 (·.denom)))).modCtx i (countDwell (commitReport sv.hold sv.block.clean))).modServing i fun _ => blockParts s i sv

/-- The events of a block end, in their order (log entry 13). -/
def blockEvents (i : Nat) (s : State) : State :=
  toneHoldReleaseIfDue i (disableOnReversal i (toneHoldIfDue i (pathChangeIfDue i (evaluateIfDue i s))))

theorem fullBlockEnd_eq (i : Nat) (sv : Serving) (s : State) : fullBlockEnd i sv s = blockEvents i (blockWork i sv s) := rfl

@[simp] theorem outside_blockWork (i : Nat) (sv : Serving) (s : State) : (blockWork i sv s).outside = s.outside := by simp [blockWork]
@[simp] theorem outside_blockEvents (i : Nat) (s : State) : (blockEvents i s).outside = s.outside := by simp [blockEvents]

theorem blockWork_ctx (hsv : (s.ctx i).serving = some sv) :
    (blockWork i sv s).ctx i = { countDwell (commitReport sv.hold sv.block.clean) (s.ctx i) with serving := some (blockParts s i sv) } := by
  have hi := State.lt_of_serving hsv
  have out : (s.mapBound i fun es => es.map (commitEntry (commitReport sv.hold sv.block.clean != .none) (s.profileOf i).step
    (sv.hold.elim 0 (·.denom)))).outside = s.outside := by simp
  have len := (State.outside_contexts out).symm ▸ hi
  have dwelt := State.ctx_modCtx_self _ i (countDwell (commitReport sv.hold sv.block.clean)) len
  have serving : (countDwell (commitReport sv.hold sv.block.clean) (s.ctx i)).serving = some sv := by
    unfold countDwell
    split <;> exact hsv
  rw [blockWork, State.ctx_modServing_self _ _ _ (by simpa using len), dwelt, mapBound_ctx, serving]
  rfl

theorem blockWork_ctx_ne (hk : k ≠ i) : (blockWork i sv s).ctx k = s.ctx k := by
  rw [blockWork, State.ctx_modServing_ne _ _ _ _ hk.symm, State.ctx_modCtx_ne _ _ _ _ hk.symm, mapBound_ctx]

theorem countDwell_callState (report : CommitReport) (c : Context) : (countDwell report c).callState = c.callState := by
  unfold countDwell
  split <;> rfl

theorem countDwell_toneHold (report : CommitReport) (c : Context) : (countDwell report c).toneHold = c.toneHold := by
  unfold countDwell
  split <;> rfl

theorem blockWork_callState (hsv : (s.ctx i).serving = some sv) : ((blockWork i sv s).ctx i).callState = (s.ctx i).callState := by
  rw [blockWork_ctx hsv]
  exact countDwell_callState _ _

theorem blockWork_toneHold (hsv : (s.ctx i).serving = some sv) : ((blockWork i sv s).ctx i).toneHold = (s.ctx i).toneHold := by
  rw [blockWork_ctx hsv]
  exact countDwell_toneHold _ _

theorem blockWork_serving (hsv : (s.ctx i).serving = some sv) : ((blockWork i sv s).ctx i).serving = some (blockParts s i sv) := by
  rw [blockWork_ctx hsv]

/-- A block end in SEARCH or TRACK: its work by the kind of block, and the next block begins (R45). -/
theorem blockEnded_of_processes (hsv : (s.ctx i).serving = some sv) (hp : (s.ctx i).callState.processes = true) :
    blockEnded i s = (if sv.block.leadIn then leadInBlockEnd i s else fullBlockEnd i sv s).modServing i Serving.nextBlock := by
  have worked : ∀ st : CallState, st.processes = true →
      (match st with
        | .search | .track => if sv.block.leadIn then leadInBlockEnd i s else fullBlockEnd i sv s
        | .disabled => disabledBlockEnd i s
        | .notServing | .idle | .bypass => s) = if sv.block.leadIn then leadInBlockEnd i s else fullBlockEnd i sv s := fun st h => by
    rcases CallState.processes_iff.1 h with rfl | rfl <;> rfl
  unfold blockEnded
  rw [hsv]
  exact congrArg (fun u : State => u.modServing i Serving.nextBlock) (worked _ hp)

/-- The block-end command when 32 samples stand (R45, R50). -/
theorem exec_blockEnd {slot : BitVec 7} (h : s.servesWith slot.toNat i sv) (due : 32 ≤ sv.phase) :
    exec (.blockEnd slot) s = .next (blockEnded i s) :=
  congrArg Host.Outcome.next ((h.onServed blockEndIfDue).trans
    (whenDue_of_due h.2.2.2 (decide_eq_true (by exact due))))

theorem exec_blockEnd_full {slot : BitVec 7} (h : s.servesWith slot.toNat i sv) (hp : (s.ctx i).callState.processes = true)
    (lead : sv.block.leadIn = false) (due : 32 ≤ sv.phase) :
    exec (.blockEnd slot) s = .next ((blockEvents i (blockWork i sv s)).modServing i Serving.nextBlock) := by
  rw [exec_blockEnd h due, blockEnded_of_processes h.2.2.2 hp, lead]
  rfl

/-! ### What the events of a block end leave -/

theorem whenDue_of {P : State → Prop} {due : Context → Serving → Bool} {act : Nat → State → State} (h : P s) (acted : P (act i s)) :
    P (whenDue due act i s) := by
  unfold whenDue
  split
  · split
    · exact acted
    · exact h
  · exact h

/-- What every event of a block end keeps, the block end's events keep. -/
theorem blockEvents_of {P : State → Prop} (evaluate : ∀ {u}, P u → P (evaluate i u)) (change : ∀ {u}, P u → P (pathChanged i u))
    (hold : ∀ {u}, P u → P (setToneHold i u)) (disable : ∀ {u}, P u → P (disableOnReversal i u))
    (release : ∀ {u}, P u → P (releaseToneHold i u)) (h : P s) : P (blockEvents i s) := by
  have evaluated : P (evaluateIfDue i s) := whenDue_of h (evaluate h)
  have changed := whenDue_of (due := pathChangeDue) evaluated (change evaluated)
  have held := whenDue_of (due := toneHoldDue) changed (hold changed)
  have disabled := disable held
  exact whenDue_of disabled (release disabled)

/-- What a block end's events leave of the serving parts: all but the hold, the path-change run count, the NLP state with
its inactive count, and the tone state (R56, R57, R68, R134). -/
def Serving.lasting (sv : Serving) : Serving :=
  { sv with hold := none, pathRun := 0, nlp := .opened, inactive := 0, toneReceive := .cleared, toneSend := .cleared }

/-- Serving parts at the start of a block: records and peak records as restarted (R49, R117). -/
def Serving.blockFresh (sv : Serving) : Prop := sv.block = .start false ∧ sv.receive.peak = false ∧ sv.send.peak = false

theorem lasting_restartFilter (h : sv.blockFresh) : (restartFilter sv).lasting = sv.lasting := by
  obtain ⟨block, receive, send⟩ := h
  have unpeaked : ∀ l : Level, l.peak = false → { l with peak := false } = l := fun l hl => by rw [← hl]
  rw [restartFilter, unpeaked _ receive, unpeaked _ send, block]
  simp only [Serving.lasting, block]
  rfl

theorem blockFresh_of_lasting {v x : Serving} (h : v.lasting = x.lasting) (hx : x.blockFresh) : v.blockFresh :=
  ⟨(congrArg Serving.block h :).trans hx.1, (congrArg (·.receive.peak) h :).trans hx.2.1, (congrArg (·.send.peak) h :).trans hx.2.2⟩

/-- Context i serves with parts that last as `x`. -/
def State.lasts (s : State) (i : Nat) (x : Serving) : Prop := (s.ctx i).serving.map Serving.lasting = some x.lasting

variable {x : Serving}

theorem lasts_of_steady {c : Context} (h : (s.ctx i).steady = c.steady) (hc : c.serving.map Serving.lasting = some x.lasting) :
    s.lasts i x := (Context.steady_read Serving.lasting (fun _ _ => rfl) h).trans hc

theorem lasts_setServing {f : Serving → Serving} (hf : ∀ v : Serving, v.lasting = x.lasting → (f v).lasting = x.lasting)
    (h : s.lasts i x) : (s.modServing i f).lasts i x := by
  obtain ⟨v, hv, hx⟩ := Option.map_eq_some_iff.1 h
  rw [State.lasts, State.ctx_modServing_some hv]
  exact congrArg some (hf v hx)

theorem lasts_modCtx {f : Context → Context} (hf : ∀ c, (f c).serving = c.serving) (h : s.lasts i x) : (s.modCtx i f).lasts i x := by
  have same : ((s.modCtx i f).ctx i).serving = (s.ctx i).serving := State.ctx_modCtx_proj Context.serving s i i f hf
  exact (congrArg (Option.map Serving.lasting) same).trans h

theorem lasts_lt (h : s.lasts i x) : i < s.table.contexts.length := by
  obtain ⟨v, hv, -⟩ := Option.map_eq_some_iff.1 h
  exact State.lt_of_serving hv

theorem lasts_disableOnReversal (h : s.lasts i x) : (disableOnReversal i s).lasts i x := by
  unfold disableOnReversal
  split
  · exact h
  · split
    · exact h
    · have entered := congrArg (Option.map Serving.lasting) (Context.unoffered_serving (enterPassing_ctx (s := s) (lasts_lt h)
        (st := .disabled) rfl))
      rw [State.lasts, State.notify_ctx]
      exact entered.trans h

theorem lasts_releaseToneHold (h : s.lasts i x) : (releaseToneHold i s).lasts i x := by
  have held := lasts_modCtx (f := fun c => { c with toneHold := false }) (fun _ => rfl) h
  exact lasts_setServing (f := Serving.untoned) (fun v hv => hv) held

theorem lasts_setToneHold (h : s.lasts i x) : (setToneHold i s).lasts i x := by
  have held := lasts_modCtx (f := fun c => { c with toneHold := true }) (fun _ => rfl) h
  exact lasts_setServing (f := fun sv => { sv with nlp := .opened, inactive := 0 }) (fun v hv => hv) held

theorem lasts_pathChanged (fresh : x.blockFresh) (h : s.lasts i x) : (pathChanged i s).lasts i x := by
  refine lasts_of_steady (steady_pathChanged_self (lasts_lt h)) ?_
  obtain ⟨v, hv, hx⟩ := Option.map_eq_some_iff.1 h
  simp only [Context.restarted, hv, Option.map_some]
  rw [lasting_restartFilter (blockFresh_of_lasting hx fresh), hx]

theorem lasts_blockEvents (fresh : x.blockFresh) (h : s.lasts i x) : (blockEvents i s).lasts i x :=
  blockEvents_of (P := fun u => u.lasts i x) (fun h => lasts_of_steady (steady_evaluate i i _) h) (lasts_pathChanged fresh)
    lasts_setToneHold lasts_disableOnReversal lasts_releaseToneHold h

theorem steady_blockEvents_ne (hk : k ≠ i) : ((blockEvents i s).ctx k).steady = (s.ctx k).steady := by
  refine blockEvents_of (P := fun u : State => (u.ctx k).steady = (s.ctx k).steady) (fun h => (steady_evaluate i k _).trans h)
    (fun h => (steady_pathChanged_ne hk).trans h) (fun h => ?_) (fun h => ?_) (fun h => ?_) rfl
  · rw [setToneHold, State.ctx_modServing_ne _ _ _ _ hk.symm, State.ctx_modCtx_ne _ _ _ _ hk.symm, h]
  · unfold disableOnReversal
    split
    · exact h
    · split
      · exact h
      · rw [State.notify_ctx, steady_enterPassing_ne hk, h]
  · rw [releaseToneHold, clearTone, State.ctx_modServing_ne _ _ _ _ hk.symm, State.ctx_modCtx_ne _ _ _ _ hk.symm, h]

theorem lasting_toneBlockEnd (tone : Bool) (sv : Serving) : (toneBlockEnd tone sv).lasting = sv.lasting := by
  unfold toneBlockEnd
  split <;> rfl

theorem servingBlockEnd_fresh (s : State) (i : Nat) (sv : Serving) : (servingBlockEnd s i sv).blockFresh := ⟨rfl, rfl, rfl⟩

/-- The serving parts after a block end that is no lead-in, up to what its events touch. -/
theorem blockEvents_serving (hsv : (s.ctx i).serving = some sv) :
    ∃ v, ((blockEvents i (blockWork i sv s)).ctx i).serving = some v ∧ v.lasting = (servingBlockEnd s i sv).lasting := by
  have worked : (blockWork i sv s).lasts i (servingBlockEnd s i sv) := by
    rw [State.lasts, blockWork_serving hsv]
    exact congrArg some (lasting_toneBlockEnd _ _)
  exact Option.map_eq_some_iff.1 (lasts_blockEvents (servingBlockEnd_fresh s i sv) worked)

end BlockEnd

end Sys2Proof.Machine

namespace Sys2Proof.Machine

open Sys2Proof

/-! ## Levels and measures of a block end -/

/-- A level state one block on (R120). -/
def Level.spaced (l : Level) : Level := { l with spacing := countUp 255 l.spacing }

/-- A level state with its peak record no (R117). -/
def Level.unpeaked (l : Level) : Level := { l with peak := false }

/-- The move of a gain index at a block end (R119 to R124). -/
def levelMove (alc hold allowed : Bool) (target : Int) (l : Level) : Int :=
  if alc = false ∨ hold = true then 0
  else if l.peak = true then -2
  else if 407 ≤ l.power / 256 ∧ allowed = true then
    if (targetBand target).2.2 < msOut (l.power / 256) l.gain ∧ 8 ≤ min 255 (l.spacing + 1) then -1
    else if msOut (l.power / 256) l.gain < (targetBand target).2.1 ∧ 32 ≤ min 255 (l.spacing + 1) then 1
    else 0
  else 0

theorem changeGain_zero {l : Level} (h : gainSound l.gain) : changeGain l 0 = l := by
  obtain ⟨low, high⟩ := h
  have kept : clampInt (-36) 24 l.gain = l.gain := by unfold clampInt; omega
  have limit : limitAfter l.limit l.gain l.gain = l.limit := by cases hl : l.limit <;> simp [limitAfter]
  simp [changeGain, Config.gainLow, Config.gainHigh, kept, limit, Int.not_lt.2 low, Int.not_lt.2 high]

theorem targetBand_order (target : Int) : (targetBand target).2.1 ≤ (targetBand target).2.2 := by
  have table : ∀ n, (Config.targetTable.getD n (0, 0, 0)).2.1 ≤ (Config.targetTable.getD n (0, 0, 0)).2.2 := fun n => by
    by_cases hn : n < 19
    · revert n; decide
    · rw [List.getD_eq_getElem?_getD, List.getElem?_eq_none (by simpa [Config.targetTable] using Nat.not_lt.1 hn)]
      decide
  exact table _

/-- The evaluation of a direction is the move of R123. -/
theorem evaluateLevel_eq (target : Int) {l : Level} (h : gainSound l.gain) : evaluateLevel target l.spaced =
    changeGain l.spaced (if (targetBand target).2.2 < msOut (l.power / 256) l.gain ∧ 8 ≤ min 255 (l.spacing + 1) then -1
      else if msOut (l.power / 256) l.gain < (targetBand target).2.1 ∧ 32 ≤ min 255 (l.spacing + 1) then 1 else 0) := by
  have still : changeGain l.spaced 0 = l.spaced := changeGain_zero h
  have order := targetBand_order target
  unfold evaluateLevel
  change (if (targetBand target).2.2 < msOut (l.power / 256) l.gain then
      if 8 ≤ min 255 (l.spacing + 1) then changeGain l.spaced (-1) else l.spaced
    else if msOut (l.power / 256) l.gain < (targetBand target).2.1 then
      if 32 ≤ min 255 (l.spacing + 1) then changeGain l.spaced 1 else l.spaced
    else l.spaced) = _
  split
  · next above =>
    rw [if_neg (c := msOut _ _ < _ ∧ _) (by omega)]
    by_cases wait : 8 ≤ min 255 (l.spacing + 1)
    · rw [if_pos wait, if_pos ⟨above, wait⟩]
    · rw [if_neg wait, if_neg (by tauto), still]
  · next above =>
    rw [if_neg (c := _ < msOut _ _ ∧ _) (by tauto)]
    split
    · next below =>
      by_cases wait : 32 ≤ min 255 (l.spacing + 1)
      · rw [if_pos wait, if_pos ⟨below, wait⟩]
      · rw [if_neg wait, if_neg (by tauto), still]
    · next below => rw [if_neg (by tauto), still]

/-- The level work of a block end is the move of R119 to R124. -/
theorem levelBlockEnd_eq (alc hold allowed : Bool) (target : Int) {l : Level} (h : gainSound l.gain) :
    levelBlockEnd alc hold allowed target l = (changeGain l.spaced (levelMove alc hold allowed target l)).unpeaked := by
  have still : changeGain l.spaced 0 = l.spaced := changeGain_zero h
  refine congrArg Level.unpeaked (a₁ := if !alc || hold then l.spaced else if l.spaced.peak then changeGain l.spaced (-2)
    else if decide (Config.levelFloor ≤ l.spaced.power / 256) && allowed then evaluateLevel target l.spaced else l.spaced) ?_
  have active : (decide (Config.levelFloor ≤ l.spaced.power / 256) && allowed) = true ↔ 407 ≤ l.power / 256 ∧ allowed = true := by
    rw [Bool.and_eq_true, decide_eq_true_eq]
    rfl
  unfold levelMove
  by_cases off : alc = false ∨ hold = true
  · rw [if_pos off, if_pos (by rcases off with rfl | rfl <;> simp), still]
  · rw [if_neg off, if_neg (by simpa [not_or] using off)]
    by_cases peak : l.peak = true
    · rw [if_pos peak, if_pos (show l.spaced.peak = true from peak)]
    · rw [if_neg peak, if_neg (show ¬l.spaced.peak = true from peak)]
      by_cases ha : 407 ≤ l.power / 256 ∧ allowed = true
      · rw [if_pos ha, if_pos (active.2 ha), evaluateLevel_eq target h]
      · rw [if_neg ha, if_neg (mt active.1 ha), still]

theorem limitAfter_eq (limit : AtLimit) (a b : Int) : limitAfter limit a b =
    if (limit = .lower ∧ a < b) ∨ (limit = .upper ∧ b < a) then .clear else limit := by
  cases limit <;> simp [limitAfter]

/-- The level work of a block end moves a gain index as R119 to R125 say. -/
theorem levelBlockEnd_controlled (alc hold allowed : Bool) (target : Int) {l : Level} (h : gainSound l.gain) :
    Level.controlled alc hold allowed target l (levelBlockEnd alc hold allowed target l) := by
  have clamp : ∀ v : Int, clampInt (-36) 24 v = max (-36) (min 24 v) := fun v => by unfold clampInt; omega
  rw [levelBlockEnd_eq _ _ _ _ h]
  refine ⟨clamp _, ?_, ?_, rfl, rfl, rfl⟩
  · rfl
  · change (if l.gain + levelMove alc hold allowed target l < -36 then AtLimit.lower
      else if 24 < l.gain + levelMove alc hold allowed target l then AtLimit.upper
      else limitAfter l.limit l.gain (clampInt (-36) 24 (l.gain + levelMove alc hold allowed target l))) = _
    rw [limitAfter_eq]
    rfl

theorem State.serving_modServing {s : State} {i : Nat} {sv : Serving} (h : (s.ctx i).serving = some sv) (f : Serving → Serving) :
    ((s.modServing i f).ctx i).serving = some (f sv) := by rw [State.ctx_modServing_some h]

/-- Settles O36: the level state of a block end's work outlasts its events. -/
theorem blockEndControlsLevels : Obligations.BlockEndControlsLevels := by
  unfold Obligations.BlockEndControlsLevels
  intro s slot i sv h hp lead due gains
  obtain ⟨v, hv, lasting⟩ := blockEvents_serving h.2.2.2
  have receive : v.nextBlock.receive = (servingBlockEnd s i sv).receive := (congrArg Serving.receive lasting :)
  have send : v.nextBlock.send = (servingBlockEnd s i sv).send := (congrArg Serving.send lasting :)
  refine ⟨_, _, exec_blockEnd_full h hp lead due, State.serving_modServing hv _, ?_, ?_⟩
  · rw [receive]
    exact levelBlockEnd_controlled _ _ _ _ gains.2
  · rw [send, Bool.not_and]
    exact levelBlockEnd_controlled _ _ _ _ gains.1

/-! ## Writing the bound blocks -/

/-- One change of a block, repeated or not, made on several blocks one after another. -/
theorem State.foldl_modBlock_same (f : TapBlock → TapBlock) (once : ∀ t, f (f t) = f t) (l : List (Nat × Nat)) (s : State) (b : Nat) :
    (l.foldl (fun s jb => s.modBlock jb.2 f) s).tapBlock b =
      if (∃ jb ∈ l, jb.2 = b) ∧ b < s.pool.blocks.length then f (s.tapBlock b) else s.tapBlock b := by
  induction l generalizing s with
  | nil => simp
  | cons x l ih =>
    rw [List.foldl_cons, ih, State.tapBlock_modBlock, State.modBlock_length]
    by_cases hx : x.2 = b
    · subst hx
      by_cases inPool : x.2 < s.pool.blocks.length
      · simp [inPool, once]
      · simp [inPool]
    · have there : (∃ jb ∈ x :: l, jb.2 = b) ↔ ∃ jb ∈ l, jb.2 = b := by
        rw [List.exists_mem_cons_iff]
        exact or_iff_right hx
      simp only [hx, false_and, if_false, there]

/-- A block with its gradient sums cleared (R49, R53). -/
def TapBlock.ungraded (t : TapBlock) : TapBlock :=
  { t with entries := t.entries.map fun e => { e with gc := 0, gh := 0 }, wrong := [] }

theorem TapBlock.ungraded_entry (t : TapBlock) (k : Nat) : t.ungraded.entries.getD k ⟨0, 0, 0⟩ = ⟨(t.entries.getD k ⟨0, 0, 0⟩).h, 0, 0⟩ := by
  simp only [TapBlock.ungraded, List.getD_eq_getElem?_getD, List.getElem?_map]
  cases t.entries[k]? <;> rfl

theorem TapBlock.ungraded_idle : (idleBlock .failed).ungraded = idleBlock .failed := by
  simp [TapBlock.ungraded, idleBlock, zeroTaps]

theorem mapBound_ungraded (s : State) (i b : Nat) :
    (s.mapBound i fun es => es.map fun e => { e with gc := 0, gh := 0 }).tapBlock b =
      if ∃ jb ∈ s.boundOf i, jb.2 = b then (s.tapBlock b).ungraded else s.tapBlock b := by
  rw [State.mapBound]
  refine (State.foldl_modBlock_same TapBlock.ungraded (fun t => ?_) (s.boundOf i) s b).trans ?_
  · simp [TapBlock.ungraded, Function.comp_def]
  · by_cases inPool : b < s.pool.blocks.length
    · simp only [inPool, and_true]
    · have idle : s.tapBlock b = idleBlock .failed := by
        simp [State.tapBlock, List.getD_eq_getElem?_getD, List.getElem?_eq_none (Nat.not_lt.1 inPool)]
      rw [if_neg (by tauto), idle, TapBlock.ungraded_idle, ite_self]

/-- The serving parts after a lead-in block end (R49, R53). -/
def Serving.ledIn (sv : Serving) : Serving :=
  { sv with block := .start false, hold := none, receive := { sv.receive with peak := false },
            send := { sv.send with peak := false }, toneReceive := zeroSums sv.toneReceive, toneSend := zeroSums sv.toneSend }

theorem leadInBlockEnd_eq (i : Nat) (s : State) : leadInBlockEnd i s =
    (s.mapBound i fun es => es.map fun e => { e with gc := 0, gh := 0 }).modServing i Serving.ledIn := rfl

theorem mapBound_rest (s : State) (i : Nat) (f : List TapEntry → List TapEntry) :
    (s.mapBound i f).lane = s.lane ∧ (s.mapBound i f).pool.fifo = s.pool.fifo ∧ (s.mapBound i f).pool.shortfall = s.pool.shortfall := by
  unfold State.mapBound
  generalize s.boundOf i = l
  induction l generalizing s with
  | nil => exact ⟨rfl, rfl, rfl⟩
  | cons x l ih => exact ih (s.modBlock x.2 _)

/-- Settles O34: the measures of a block end's work outlast its events, and a lead-in block end works on records alone. -/
theorem blockEndMeasures : Obligations.BlockEndMeasures := by
  unfold Obligations.BlockEndMeasures
  intro s slot i sv h hp due
  have hsv := h.2.2.2
  cases lead : sv.block.leadIn with
  | false =>
    obtain ⟨v, hv, lasting⟩ := blockEvents_serving hsv
    have block : v.block = .start false := (congrArg Serving.block lasting :)
    have fresh : v.nextBlock.block = .start false := by simp only [Serving.nextBlock, block]; rfl
    refine ⟨_, _, exec_blockEnd_full h hp lead due, State.serving_modServing hv _, rfl, ?_, ?_, ?_, ?_, ?_, ?_,
      (congrArg (·.history) lasting :), (congrArg (·.power) lasting :), (congrArg (·.hangover) lasting :),
      (congrArg (·.generator) lasting :), (congrArg (·.callPresent) lasting :), (congrArg (·.profile) lasting :), by simp,
      fun k hk => ?_, fun _ => ⟨(congrArg (·.msSin) lasting :), (congrArg (·.msErr) lasting :), (congrArg (·.noise) lasting :)⟩,
      fun n => nomatch n⟩
    iterate 6 rw [fresh]; rfl
    rw [State.ctx_modServing_ne _ _ _ _ hk.symm, steady_blockEvents_ne hk, blockWork_ctx_ne hk]
  | true =>
    obtain ⟨lane, fifo, -⟩ := mapBound_rest s i fun es => es.map fun e => { e with gc := 0, gh := 0 }
    have ended : exec (.blockEnd slot) s = .next ((leadInBlockEnd i s).modServing i Serving.nextBlock) := by
      rw [exec_blockEnd h due, blockEnded_of_processes hsv hp, lead]
      rfl
    have mapped : ((s.mapBound i fun es => es.map fun e => { e with gc := 0, gh := 0 }).ctx i).serving = some sv := by
      rw [mapBound_ctx, hsv]
    have worked := State.ctx_modServing_some mapped Serving.ledIn
    rw [mapBound_ctx, ← leadInBlockEnd_eq] at worked
    have self := State.ctx_modServing_some (s := leadInBlockEnd i s) (by rw [worked]) Serving.nextBlock
    rw [worked] at self
    refine ⟨_, _, ended, congrArg Context.serving self, rfl, rfl, rfl, rfl, rfl, rfl, rfl, rfl, rfl, rfl, rfl, rfl, rfl,
      by simp, fun k hk => ?_, (fun n => nomatch n), fun _ => ⟨rfl, rfl, rfl, rfl, rfl, rfl, rfl, rfl, rfl, rfl,
        (congrArg Context.callState self :), (congrArg Context.search self :), (congrArg Context.toneHold self :), lane, fifo,
        fun jb hjb k => ?_, fun b hb => ?_⟩⟩
    · rw [State.ctx_modServing_ne _ _ _ _ hk.symm, leadInBlockEnd_eq, State.ctx_modServing_ne _ _ _ _ hk.symm, mapBound_ctx]
    · exact (congrArg (fun t : TapBlock => t.entries.getD k ⟨0, 0, 0⟩)
        ((mapBound_ungraded s i jb.2).trans (if_pos ⟨jb, hjb, rfl⟩))).trans (TapBlock.ungraded_entry _ k)
    · exact (mapBound_ungraded s i b).trans (if_neg fun ⟨jb, hjb, hne⟩ => hb jb hjb hne)

end Sys2Proof.Machine

namespace Sys2Proof.Machine

open Sys2Proof

/-! ## The events of a block end, one by one -/

section Events

variable {s u : State} {i k : Nat} {sv v : Serving}

theorem nextPathRun_le (run : Nat) (report : CommitReport) (counted : Bool) (count msSin msErr : Nat) :
    nextPathRun run report counted count msSin msErr ≤ run + 1 := by
  unfold nextPathRun countUp
  split
  · split <;> omega
  · omega

theorem blockParts_pathRun (s : State) (i : Nat) (sv : Serving) : (blockParts s i sv).pathRun = (servingBlockEnd s i sv).pathRun := by
  unfold blockParts toneBlockEnd
  split <;> rfl

theorem countDwell_search (report : CommitReport) {c : Context} {r : SearchRecord} (hc : c.callState = .search) (hr : c.search = some r) :
    (countDwell report c).search =
      some { r with dwell := if report = .counting ∧ r.status = .inPass then min 64 (r.dwell + 1) else r.dwell } := by
  unfold countDwell
  by_cases h : report = .counting
  · by_cases pass : r.status = .inPass <;> simp [h, hc, hr, pass, countUp, Config.dwellTop]
  · simp [h, hr]

theorem evaluationDue_countDwell {report : CommitReport} {c : Context}
    (short : ∀ r, c.search = some r → c.callState = .search → r.dwell ≤ 62) : evaluationDue (countDwell report c) = false := by
  unfold evaluationDue
  rw [countDwell_callState]
  cases hc : c.callState <;> try rfl
  cases hr : c.search with
  | none =>
    have none : (countDwell report c).search = none := by
      unfold countDwell
      split <;> simp [hr]
    rw [none]
    rfl
  | some r =>
    have dwell := short r hr hc
    have below : (if report = .counting ∧ r.status = .inPass then min 64 (r.dwell + 1) else r.dwell) < Config.dwellTop := by
      change _ < 64
      split <;> omega
    simp [countDwell_search report hc hr, below]

/-- With the dwell and the run count short of their tops neither an evaluation nor a path change is due (R57, R83). -/
theorem blockWork_quiet (hsv : (s.ctx i).serving = some sv)
    (dwell : ∀ r, (s.ctx i).search = some r → (s.ctx i).callState = .search → r.dwell ≤ 62)
    (run : (s.ctx i).callState = .track → sv.pathRun ≤ 30) :
    pathChangeIfDue i (evaluateIfDue i (blockWork i sv s)) = blockWork i sv s := by
  have serving := blockWork_serving hsv
  have evaluated : evaluateIfDue i (blockWork i sv s) = blockWork i sv s := by
    refine whenDue_of_not_due serving ?_
    rw [blockWork_ctx hsv]
    exact evaluationDue_countDwell dwell
  rw [evaluated]
  refine whenDue_of_not_due serving ?_
  rw [pathChangeDue, blockWork_callState hsv, blockParts_pathRun]
  cases hc : (s.ctx i).callState <;> try rfl
  have top : (servingBlockEnd s i sv).pathRun ≤ 31 := by
    have rises := nextPathRun_le sv.pathRun (commitReport sv.hold sv.block.clean) (decide (0 < countedBound s i sv)) sv.block.count
      (sv.block.sumY / 32) (sv.block.sumE / 32)
    have le := run hc
    simp only [servingBlockEnd, hc, if_true]
    split
    · omega
    · omega
  have short : ¬Config.pathTop ≤ (servingBlockEnd s i sv).pathRun := by
    change ¬32 ≤ _
    omega
  simp [short]

/-! ### Tone hold, reversal and release -/

theorem toneHoldIfDue_of_not_due (hv : (u.ctx i).serving = some v)
    (h : (v.toneReceive.qualified || v.toneSend.qualified) = false ∨ (u.ctx i).toneHold = true) : toneHoldIfDue i u = u :=
  whenDue_of_not_due hv (by rcases h with h | h <;> simp [toneHoldDue, h])

theorem toneHoldIfDue_of_due (hv : (u.ctx i).serving = some v) (hp : (u.ctx i).callState.processes = true)
    (q : (v.toneReceive.qualified || v.toneSend.qualified) = true) (hold : (u.ctx i).toneHold = false) :
    toneHoldIfDue i u = setToneHold i u := whenDue_of_due hv (by simp [toneHoldDue, hp, q, hold])

theorem disableOnReversal_of_zero (hv : (u.ctx i).serving = some v) (h : reversalDirection v = 0) : disableOnReversal i u = u := by
  unfold disableOnReversal
  rw [hv]
  exact if_pos h

theorem disableOnReversal_of_ne (hv : (u.ctx i).serving = some v) (h : reversalDirection v ≠ 0) :
    disableOnReversal i u = (enterPassing i .disabled u).notify 7 [(7, u.slotOf i), (2, reversalDirection v)] := by
  unfold disableOnReversal
  rw [hv]
  exact if_neg h

theorem toneHoldReleaseIfDue_of_not_due (hv : (u.ctx i).serving = some v)
    (h : (u.ctx i).callState.processes = false ∨ (u.ctx i).toneHold = false ∨ releaseCondition v = false) :
    toneHoldReleaseIfDue i u = u :=
  whenDue_of_not_due hv (by rcases h with h | h | h <;> simp [toneHoldReleaseDue, h])

theorem toneHoldReleaseIfDue_of_due (hv : (u.ctx i).serving = some v) (hp : (u.ctx i).callState.processes = true)
    (hold : (u.ctx i).toneHold = true) (quiet : releaseCondition v = true) : toneHoldReleaseIfDue i u = releaseToneHold i u :=
  whenDue_of_due hv (by simp [toneHoldReleaseDue, hp, hold, quiet])

/-- A context without its tone hold and tone state. -/
def Context.untold (c : Context) : Context := { c with toneHold := false, serving := c.serving.map Serving.untoned }

theorem releaseToneHold_ctx (hi : i < u.table.contexts.length) : (releaseToneHold i u).ctx i = (u.ctx i).untold := by
  rw [releaseToneHold, clearTone, State.ctx_modServing_self _ _ _ (by simpa using hi), State.ctx_modCtx_self _ _ _ hi]
  rfl

theorem releaseToneHold_ctx_ne (hk : k ≠ i) : (releaseToneHold i u).ctx k = u.ctx k := by
  rw [releaseToneHold, clearTone, State.ctx_modServing_ne _ _ _ _ hk.symm, State.ctx_modCtx_ne _ _ _ _ hk.symm]

theorem setToneHold_ctx (hv : (u.ctx i).serving = some v) : (setToneHold i u).ctx i =
    { u.ctx i with toneHold := true, serving := some { v with nlp := .opened, inactive := 0 } } := by
  have hi := State.lt_of_serving hv
  rw [setToneHold, State.ctx_modServing_self _ _ _ (by simpa using hi), State.ctx_modCtx_self _ _ _ hi, hv]
  rfl

end Events

/-! ## The commit of a block end (R50 to R52, R56, R83) -/

section Commit

variable {s : State} {i : Nat} {sv : Serving}

theorem commitReport_counting (hold : Option HoldRecord) (clean : Bool) : commitReport hold clean = .counting ↔
    (hold.elim false fun h => h.clean && clean && decide (16 ≤ h.count) && decide (0 < h.denom)) = true := by
  cases hold with
  | none => simp [commitReport]
  | some h =>
    cases hc : h.clean <;> cases clean <;> simp [commitReport, hc]

theorem commitReport_commits {h : HoldRecord} {clean : Bool} (hc : h.clean = true) (hb : clean = true) :
    (commitReport (some h) clean != .none) = true := by
  simp only [commitReport, hc, hb, Bool.and_self, if_true]
  split <;> rfl

theorem commitReport_none {hold : Option HoldRecord} {clean : Bool} (h : hold = none ∨ hold.elim false (·.clean) = false ∨ clean = false) :
    commitReport hold clean = .none := by
  cases hold with
  | none => rfl
  | some r => rcases h with h | h | h <;> simp_all [commitReport]

/-- A block with its entries through a commit (R50, R51). -/
def TapBlock.committed (commit : Bool) (p d : Nat) (t : TapBlock) : TapBlock :=
  { t with entries := t.entries.map (commitEntry commit p d), wrong := [] }

theorem TapBlock.committed_entry (commit : Bool) (p d : Nat) (t : TapBlock) (k : Nat) :
    (t.committed commit p d).entries.getD k ⟨0, 0, 0⟩ = commitEntry commit p d (t.entries.getD k ⟨0, 0, 0⟩) := by
  simp only [TapBlock.committed, List.getD_eq_getElem?_getD, List.getElem?_map]
  cases t.entries[k]? with
  | none => simp [commitEntry]
  | some e => rfl

theorem countedBound_eq (s : State) (i : Nat) (sv : Serving) :
    countedBound s i sv = ((s.boundOf i).filter fun jb => decide (jb.1 ∉ sv.failed)).length := by
  simp [countedBound]

theorem blockWork_lane (s : State) (i : Nat) (sv : Serving) : (blockWork i sv s).lane = s.lane :=
  (mapBound_rest s i _).1

theorem blockWork_fifo (s : State) (i : Nat) (sv : Serving) : (blockWork i sv s).pool.fifo = s.pool.fifo :=
  (mapBound_rest s i _).2.1

theorem blockWork_shortfall (s : State) (i : Nat) (sv : Serving) : (blockWork i sv s).pool.shortfall = s.pool.shortfall :=
  (mapBound_rest s i _).2.2

theorem countDwell_track (report : CommitReport) {c : Context} (hc : c.callState = .track) : countDwell report c = c := by
  simp [countDwell, hc]

theorem judgeTone_idle {t : Tone} (qualified : t.qualified = false) (run : t.run ≤ 98) :
    (judgeTone t).qualified = false ∧ (judgeTone t).reversal = false := by
  have below : ∀ p : Prop, [Decidable p] → (if p then countUp 100 t.run else 0) ≠ 100 := fun p _ => by
    unfold countUp
    split <;> omega
  simp [judgeTone, qualified, below]

/-- Two directions without a tone qualify none and find no reversal at a block end. -/
theorem blockParts_untoned (receive : sv.toneReceive.qualified = false) (send : sv.toneSend.qualified = false)
    (reversals : sv.toneReceive.reversal = false ∧ sv.toneSend.reversal = false) (runReceive : sv.toneReceive.run ≤ 98)
    (runSend : sv.toneSend.run ≤ 98) : ((blockParts s i sv).toneReceive.qualified || (blockParts s i sv).toneSend.qualified) = false
      ∧ reversalDirection (blockParts s i sv) = 0 := by
  have r := judgeTone_idle receive runReceive
  have t := judgeTone_idle send runSend
  unfold blockParts toneBlockEnd reversalDirection
  split
  · simp [zeroSums, releaseCount, servingBlockEnd, r, t]
  · simp [servingBlockEnd, receive, send, reversals]

/-- What a release of tone hold leaves of the station. -/
structure Untold (i : Nat) (u t : State) : Prop where
  pool : t.pool = u.pool
  lane : t.lane = u.lane
  others : ∀ k, k ≠ i → t.ctx k = u.ctx k
  self : (t.ctx i).untold = (u.ctx i).untold

theorem untold_toneHoldReleaseIfDue {u : State} {v : Serving} (hv : (u.ctx i).serving = some v) :
    Untold i u (toneHoldReleaseIfDue i u) := by
  refine whenDue_of (P := Untold i u) ⟨rfl, rfl, fun _ _ => rfl, rfl⟩ ⟨rfl, rfl, fun k hk => releaseToneHold_ctx_ne hk, ?_⟩
  rw [releaseToneHold_ctx (State.lt_of_serving hv)]
  have twice : Serving.untoned ∘ Serving.untoned = Serving.untoned := rfl
  simp [Context.untold, twice]

/-- The blocks after the work of a block end, on bound blocks that are distinct (R50, R51). -/
theorem blockWork_tapBlock (distinct : s.boundDistinct i) :
    (∀ jb ∈ s.boundOf i, (blockWork i sv s).tapBlock jb.2 = (s.tapBlock jb.2).committed
        (commitReport sv.hold sv.block.clean != .none) (s.profileOf i).step (sv.hold.elim 0 (·.denom)))
      ∧ ∀ b, (∀ jb ∈ s.boundOf i, jb.2 ≠ b) → (blockWork i sv s).tapBlock b = s.tapBlock b :=
  State.foldl_modBlock (fun _ => TapBlock.committed (commitReport sv.hold sv.block.clean != .none) (s.profileOf i).step
    (sv.hold.elim 0 (·.denom))) (s.boundOf i) s distinct.1 distinct.2

/-- The state after a block end on which no evaluation, path change, tone hold or reversal is due. -/
theorem blockEvents_untold (hsv : (s.ctx i).serving = some sv)
    (qualified : ((blockParts s i sv).toneReceive.qualified || (blockParts s i sv).toneSend.qualified) = false)
    (straight : reversalDirection (blockParts s i sv) = 0)
    (dwell : ∀ r, (s.ctx i).search = some r → (s.ctx i).callState = .search → r.dwell ≤ 62)
    (run : (s.ctx i).callState = .track → sv.pathRun ≤ 30) : Untold i (blockWork i sv s) (blockEvents i (blockWork i sv s)) := by
  have serving := blockWork_serving hsv
  rw [blockEvents, blockWork_quiet hsv dwell run, toneHoldIfDue_of_not_due serving (.inl qualified),
    disableOnReversal_of_zero serving straight]
  exact untold_toneHoldReleaseIfDue serving

/-- What such a block end leaves in the context: the parts of its work but for the tone state, and the dwell counted. -/
theorem untold_context {t : State} (hsv : (s.ctx i).serving = some sv) (h : Untold i (blockWork i sv s) t) :
    (∃ v, (t.ctx i).serving = some v ∧ v.hold = some ⟨sv.block.clean, sv.block.count, heldDenominator s i sv⟩
        ∧ v.pathRun = (servingBlockEnd s i sv).pathRun)
      ∧ (t.ctx i).callState = (s.ctx i).callState
      ∧ (t.ctx i).search = (countDwell (commitReport sv.hold sv.block.clean) (s.ctx i)).search := by
  have parts : (t.ctx i).serving.map Serving.untoned = some (blockParts s i sv).untoned := by
    have := congrArg Context.serving h.self
    rwa [Context.untold, Context.untold, blockWork_serving hsv] at this
  obtain ⟨v, hv, same⟩ := Option.map_eq_some_iff.1 parts
  refine ⟨⟨v, hv, (congrArg Serving.hold same :).trans ?_, (congrArg Serving.pathRun same :).trans (blockParts_pathRun s i sv)⟩,
    (congrArg Context.callState h.self :).trans (blockWork_callState hsv), (congrArg Context.search h.self :).trans ?_⟩
  · unfold blockParts toneBlockEnd
    split <;> rfl
  · rw [blockWork_ctx hsv]
    rfl

/-- The path-change run count of a block end in TRACK (R56). -/
theorem servingBlockEnd_pathRun_track (hc : (s.ctx i).callState = .track) : (servingBlockEnd s i sv).pathRun =
    if s.boundOf i = [] then 0
    else if 0 < countedBound s i sv ∧ commitReport sv.hold sv.block.clean = .counting ∧ 16 ≤ sv.block.count then
      (if sv.block.sumY / 32 < 4 * (sv.block.sumE / 32) then min 32 (sv.pathRun + 1) else 0)
    else sv.pathRun := by
  simp [servingBlockEnd, hc, nextPathRun, countUp, Config.pathTop, and_assoc]

theorem servingBlockEnd_pathRun_search (hc : (s.ctx i).callState = .search) : (servingBlockEnd s i sv).pathRun = sv.pathRun := by
  simp [servingBlockEnd, hc]

/-- Settles O35: no event changes what the commit, the hold, the dwell and the run count wrote. -/
theorem blockEndCommits : Obligations.BlockEndCommits := by
  unfold Obligations.BlockEndCommits
  intro s slot i sv h hp lead due qr qs rr rs runr runs distinct dwell run
  dsimp only
  have hsv := h.2.2.2
  obtain ⟨unqualified, straight⟩ := blockParts_untoned (s := s) (i := i) qr qs ⟨rr, rs⟩ runr runs
  have untold := blockEvents_untold hsv unqualified straight dwell run
  have ended := exec_blockEnd_full h hp lead due
  have out : (blockEvents i (blockWork i sv s)).outside = s.outside := by simp
  generalize blockEvents i (blockWork i sv s) = t at ended untold out
  obtain ⟨⟨v, hv, hold, pathRun⟩, callState, search⟩ := untold_context hsv untold
  have now := State.ctx_modServing_some hv Serving.nextBlock
  obtain ⟨written, stand⟩ := blockWork_tapBlock (sv := sv) distinct
  have read : ∀ b, (t.modServing i Serving.nextBlock).tapBlock b = (blockWork i sv s).tapBlock b := fun b =>
    congrArg (fun p : Pool => p.blocks.getD b (idleBlock .failed)) untold.pool
  have counting := commitReport_counting sv.hold sv.block.clean
  refine ⟨_, v.nextBlock, ended, congrArg Context.serving now, hold.trans (by rw [heldDenominator, countedBound_eq]),
    fun hold hh hc hb jb hjb k => ?_, fun hn jb hjb k => ?_, fun b hb => (read b).trans (stand b hb), fun jb hjb => ?_,
    (congrArg Context.callState now :).trans callState, fun hc => ⟨?_, ?_⟩, fun hc => ⟨?_, fun r hr => ?_⟩,
    (congrArg Pool.fifo untold.pool).trans (blockWork_fifo s i sv), untold.lane.trans (blockWork_lane s i sv),
    (State.outside_modServing _ _ _).trans out, fun k hk => ?_⟩
  · rw [read, written jb hjb, TapBlock.committed_entry, hh, commitReport_commits hc hb]
    simp [commitEntry]
  · rw [read, written jb hjb, TapBlock.committed_entry, commitReport_none hn]
    simp [commitEntry]
  · rw [read, written jb hjb]
    rfl
  · rw [(congrArg Context.search now :), search, countDwell_track _ hc]
  · simp only [← countedBound_eq, ← counting]
    exact pathRun.trans (servingBlockEnd_pathRun_track hc)
  · exact pathRun.trans (servingBlockEnd_pathRun_search hc)
  · rw [(congrArg Context.search now :), search, countDwell_search _ hc hr]
    simp only [counting]
  · rw [State.ctx_modServing_ne _ _ _ _ hk.symm, untold.others k hk, blockWork_ctx_ne hk]

end Commit

end Sys2Proof.Machine

namespace Sys2Proof.Machine

open Sys2Proof

/-! ## Tone tests at a block end (R68, R130 to R135) -/

section ToneTests

variable {s u : State} {i : Nat} {sv v : Serving}

/-- A direction's tone state after the tests of a block end. -/
def Tone.next (t : Tone) : Tone := zeroSums (releaseCount (judgeTone t))

theorem toneBlock_eq (c s : Int) (e : Nat) :
    toneBlock c s e = decide (3 * e ≤ 4 * ((c ^ 2 + s ^ 2).toNat / 2 ^ 32) ∧ 100000 ≤ e) := by
  rw [toneBlock, pow_two, pow_two]
  exact (Bool.decide_and _ _).symm

theorem phaseDot_eq (c s c' s' : Int) :
    phaseDot c s c' s' = c * (c' * (-13255) + s' * 9630) - s * (c' * 9630 - s' * (-13255)) := by
  simp only [phaseDot, Config.phaseCos, Config.phaseSin]
  ring

theorem Tone.next_reversal (t : Tone) : t.next.reversal = true ↔ t.qualified = true ∧ toneBlock t.c t.s t.e = true
    ∧ ∃ p, t.previous = some p ∧ p.tone = true ∧ phaseDot t.c t.s p.c p.s < 0 := by
  have judged : t.next.reversal = (t.qualified && toneBlock t.c t.s t.e
    && t.previous.elim false fun p => p.tone && decide (phaseDot t.c t.s p.c p.s < 0)) := rfl
  rw [judged]
  cases t.previous <;> simp [and_assoc]

theorem Tone.next_run (t : Tone) : t.next.run = if toneBlock t.c t.s t.e = true then countUp 100 t.run else 0 := rfl

theorem Tone.next_qualified (t : Tone) : t.next.qualified = true ↔ t.qualified = true ∨ t.next.run = 100 := by
  have judged : t.next.qualified = (t.qualified || decide (t.next.run = 100)) := rfl
  simp [judged]

theorem Tone.next_release (t : Tone) : t.next.release = if t.e < 32768 then countUp 63 t.release else 0 := rfl

/-- The tone work of a block end tests a direction as R129 to R133 say. -/
theorem Tone.tested_next (t : Tone) : t.tested t.next := by
  have reversal := t.next_reversal
  have run := t.next_run
  have previous : t.next.previous = some ⟨t.c, t.s, toneBlock t.c t.s t.e⟩ := rfl
  simp only [toneBlock_eq, phaseDot_eq] at reversal run previous
  exact ⟨run, t.next_qualified, reversal, t.next_release, previous, rfl, rfl, rfl⟩

/-- A block with a tone ends a direction's release run (R130, R133). -/
theorem Tone.next_release_of_tone {t : Tone} (h : toneBlock t.c t.s t.e = true) : t.next.release = 0 := by
  rw [toneBlock_eq, decide_eq_true_eq] at h
  rw [t.next_release, if_neg (by omega)]

theorem Tone.next_release_of_reversal {t : Tone} (h : t.next.reversal = true) : t.next.release = 0 :=
  Tone.next_release_of_tone (t.next_reversal.1 h).2.1

/-- A direction that qualifies at this block end has a tone in its block. -/
theorem Tone.next_release_of_qualified {t : Tone} (was : t.qualified = false) (h : t.next.qualified = true) : t.next.release = 0 := by
  have run := (t.next_qualified.1 h).resolve_left (by simp [was])
  rw [t.next_run] at run
  by_cases tone : toneBlock t.c t.s t.e = true
  · exact Tone.next_release_of_tone tone
  · rw [if_neg tone] at run
    cases run

theorem blockParts_tones (s : State) (i : Nat) (sv : Serving) : (blockParts s i sv).toneReceive =
      (if (s.profileOf i).tone then sv.toneReceive.next else sv.toneReceive)
    ∧ (blockParts s i sv).toneSend = if (s.profileOf i).tone then sv.toneSend.next else sv.toneSend := by
  unfold blockParts toneBlockEnd
  split <;> exact ⟨rfl, rfl⟩

/-- The tone tests meet a call in SEARCH or TRACK with its tone hold and its tone state as the block's work left them. -/
structure ToneStage (i : Nat) (hold : Bool) (tr ts : Tone) (u : State) : Prop where
  processes : (u.ctx i).callState.processes = true
  toneHold : (u.ctx i).toneHold = hold
  tones : (u.ctx i).serving.map (fun v => (v.toneReceive, v.toneSend)) = some (tr, ts)

theorem ToneStage.serving {hold : Bool} {tr ts : Tone} (h : ToneStage i hold tr ts u) :
    ∃ v, (u.ctx i).serving = some v ∧ v.toneReceive = tr ∧ v.toneSend = ts := by
  obtain ⟨v, hv, eq⟩ := Option.map_eq_some_iff.1 h.tones
  exact ⟨v, hv, congrArg Prod.fst eq, congrArg Prod.snd eq⟩

theorem ToneStage.evaluate {hold : Bool} {tr ts : Tone} (h : ToneStage i hold tr ts u) : ToneStage i hold tr ts (evaluate i u) where
  processes := processes_evaluate h.processes
  toneHold := (Context.steady_toneHold (steady_evaluate i i u)).trans h.toneHold
  tones := (Context.steady_read (fun v => (v.toneReceive, v.toneSend)) (fun _ _ => rfl) (steady_evaluate i i u)).trans h.tones

theorem ToneStage.pathChanged {hold : Bool} {tr ts : Tone} (h : ToneStage i hold tr ts u) :
    ToneStage i hold tr ts (pathChanged i u) := by
  obtain ⟨v, hv, -⟩ := h.serving
  have hi := State.lt_of_serving hv
  have steady := steady_pathChanged_self hi
  refine ⟨processes_pathChanged hi, (Context.steady_toneHold steady).trans h.toneHold,
    (Context.steady_read (fun v => (v.toneReceive, v.toneSend)) (fun _ _ => rfl) steady).trans ?_⟩
  rw [Context.restarted, Option.map_map]
  exact h.tones

/-- The stage of the tone tests, after the evaluation and the path change of the block end. -/
theorem toneStage (hsv : (s.ctx i).serving = some sv) (hp : (s.ctx i).callState.processes = true) :
    ToneStage i (s.ctx i).toneHold (blockParts s i sv).toneReceive (blockParts s i sv).toneSend
      (pathChangeIfDue i (evaluateIfDue i (blockWork i sv s))) := by
  have worked : ToneStage i (s.ctx i).toneHold (blockParts s i sv).toneReceive (blockParts s i sv).toneSend (blockWork i sv s) :=
    ⟨by rw [blockWork_callState hsv, hp], blockWork_toneHold hsv, by rw [blockWork_serving hsv]; rfl⟩
  have evaluated := whenDue_of (due := fun c _ => evaluationDue c) worked worked.evaluate
  exact whenDue_of evaluated evaluated.pathChanged

section Stage

variable {hold : Bool} {tr ts : Tone}

/-- The tone events of a block end. -/
def toneEvents (i : Nat) (u : State) : State := toneHoldReleaseIfDue i (disableOnReversal i (toneHoldIfDue i u))

theorem reversalDirection_eq_zero : reversalDirection v = 0 ↔ v.toneReceive.reversal = false ∧ v.toneSend.reversal = false := by
  unfold reversalDirection
  cases v.toneReceive.reversal <;> cases v.toneSend.reversal <;> simp

theorem releaseCondition_iff : releaseCondition v = true ↔ v.toneReceive.release = 63 ∧ v.toneSend.release = 63 := by
  simp [releaseCondition]

/-- Without a qualification and a reversal nothing happens while tone hold is clear. -/
theorem ToneStage.idle (h : ToneStage i false tr ts u) (unqualified : (tr.qualified || ts.qualified) = false)
    (straight : tr.reversal = false ∧ ts.reversal = false) : toneEvents i u = u := by
  obtain ⟨v, hv, rfl, rfl⟩ := h.serving
  rw [toneEvents, toneHoldIfDue_of_not_due hv (.inl unqualified), disableOnReversal_of_zero hv (reversalDirection_eq_zero.2 straight),
    toneHoldReleaseIfDue_of_not_due hv (.inr (.inl h.toneHold))]

/-- A qualification begins tone hold. -/
theorem ToneStage.qualifies (h : ToneStage i false tr ts u) (qualified : (tr.qualified || ts.qualified) = true)
    (straight : tr.reversal = false ∧ ts.reversal = false) (loud : ¬(tr.release = 63 ∧ ts.release = 63)) :
    toneEvents i u = setToneHold i u := by
  obtain ⟨v, hv, rfl, rfl⟩ := h.serving
  have serving := congrArg Context.serving (setToneHold_ctx hv)
  rw [toneEvents, toneHoldIfDue_of_due hv h.processes qualified h.toneHold,
    disableOnReversal_of_zero serving (reversalDirection_eq_zero.2 straight),
    toneHoldReleaseIfDue_of_not_due serving (.inr (.inr (Bool.eq_false_iff.2 (mt releaseCondition_iff.1 loud))))]

/-- Tone hold ends when both release runs stand at 63. -/
theorem ToneStage.releases (h : ToneStage i true tr ts u) (straight : tr.reversal = false ∧ ts.reversal = false)
    (quiet : tr.release = 63 ∧ ts.release = 63) : toneEvents i u = releaseToneHold i u := by
  obtain ⟨v, hv, rfl, rfl⟩ := h.serving
  rw [toneEvents, toneHoldIfDue_of_not_due hv (.inr h.toneHold), disableOnReversal_of_zero hv (reversalDirection_eq_zero.2 straight),
    toneHoldReleaseIfDue_of_due hv h.processes h.toneHold (releaseCondition_iff.2 quiet)]

theorem ToneStage.holds (h : ToneStage i true tr ts u) (straight : tr.reversal = false ∧ ts.reversal = false)
    (loud : ¬(tr.release = 63 ∧ ts.release = 63)) : toneEvents i u = u := by
  obtain ⟨v, hv, rfl, rfl⟩ := h.serving
  rw [toneEvents, toneHoldIfDue_of_not_due hv (.inr h.toneHold), disableOnReversal_of_zero hv (reversalDirection_eq_zero.2 straight),
    toneHoldReleaseIfDue_of_not_due hv (.inr (.inr (Bool.eq_false_iff.2 (mt releaseCondition_iff.1 loud))))]

/-- The direction field of TONE DISABLE. -/
def toneDirection (tr ts : Tone) : Nat := tr.reversal.toNat + 2 * ts.reversal.toNat

/-- A reversal enters DISABLED with its notice. -/
theorem ToneStage.disables (h : ToneStage i true tr ts u) (reversed : ¬(tr.reversal = false ∧ ts.reversal = false)) :
    toneEvents i u = (enterPassing i .disabled u).notify 7 [(7, u.slotOf i), (2, toneDirection tr ts)]
      ∧ ((toneEvents i u).ctx i).unoffered = ((u.ctx i).passing .disabled).unoffered := by
  obtain ⟨v, hv, rfl, rfl⟩ := h.serving
  have entered := enterPassing_ctx (s := u) (st := .disabled) (State.lt_of_serving hv) rfl
  have disabled : disableOnReversal i u = (enterPassing i .disabled u).notify 7
      [(7, u.slotOf i), (2, toneDirection v.toneReceive v.toneSend)] :=
    disableOnReversal_of_ne hv (mt reversalDirection_eq_zero.1 reversed)
  rw [toneEvents, toneHoldIfDue_of_not_due hv (.inr h.toneHold), disabled]
  generalize enterPassing i .disabled u = w at entered
  have serving : ((w.notify 7 [(7, u.slotOf i), (2, toneDirection v.toneReceive v.toneSend)]).ctx i).serving = some v := by
    rw [State.notify_ctx, Context.unoffered_serving entered]
    exact hv
  have passes : ((w.notify 7 [(7, u.slotOf i), (2, toneDirection v.toneReceive v.toneSend)]).ctx i).callState.processes = false := by
    rw [State.notify_ctx, Context.unoffered_callState entered]
    rfl
  rw [toneHoldReleaseIfDue_of_not_due serving (.inl passes)]
  exact ⟨rfl, by rw [State.notify_ctx, entered]⟩

end Stage

/-! ### A call without blocks enters DISABLED -/

/-- A context without blocks outside the shortfall queue, with no open offer, leaves lane and pool as they are (R25). -/
theorem releaseHeld_empty (u : State) (i : Nat) (offering : ¬((u.ctx i).role = .homeOffering ∧ (u.ctx i).stopAt = none))
    (out : i ∉ u.pool.shortfall) (empty : u.heldBlocks i = []) : (releaseHeld i u).lane = u.lane := by
  have cancelled : u.cancelOffer i = u := if_neg offering
  have left : u.leaveShortfall i = u := if_neg (by simpa using out)
  have held : (u.ctx i).search.elim [] (·.heldBlocks) = [] := by
    unfold State.heldBlocks at empty
    cases hr : (u.ctx i).search with
    | none => rfl
    | some r =>
      rw [hr] at empty
      exact congrArg sortNums empty
  rw [releaseHeld, cancelled, left]
  simp only [held]
  rfl

theorem packLeft_toneDisable (slot field : Nat) : packLeft 16 [(7, slot), (2, field)] = slot % 128 * 512 + field % 4 * 128 := by
  simp only [packLeft, packed, widthOf, List.foldl]
  omega

theorem toneDirection_field (tr ts : Tone) : toneDirection tr ts % 4 * 128 =
    (if tr.reversal = true then 1 else 0) * 128 + (if ts.reversal = true then 2 else 0) * 128 := by
  unfold toneDirection
  cases tr.reversal <;> cases ts.reversal <;> rfl

/-- The TONE DISABLE notice of a call without blocks joins the send queue (R132, R136, R183). -/
theorem toneDisable_queue {u : State} {tr ts : Tone} (offering : ¬((u.ctx i).role = .homeOffering ∧ (u.ctx i).stopAt = none))
    (out : i ∉ u.pool.shortfall) (empty : u.heldBlocks i = []) (mask : maskBit u.profile.noticeMask 7 = true)
    (room : u.lane.queue.length < 16) :
    ((enterPassing i .disabled u).notify 7 [(7, u.slotOf i), (2, toneDirection tr ts)]).lane.queue =
      insertEntry ⟨.notice 7 (BitVec.ofNat 16 (u.slotOf i % 128 * 512 + (if tr.reversal = true then 1 else 0) * 128
        + (if ts.reversal = true then 2 else 0) * 128)) u.me, u.frame, none⟩ u.lane.queue := by
  have role : ((u.modCtx i fun c => { c with callState := .disabled }).ctx i).role = (u.ctx i).role :=
    State.ctx_modCtx_proj Context.role u i i _ fun _ => rfl
  have stopAt : ((u.modCtx i fun c => { c with callState := .disabled }).ctx i).stopAt = (u.ctx i).stopAt :=
    State.ctx_modCtx_proj Context.stopAt u i i _ fun _ => rfl
  have search : ((u.modCtx i fun c => { c with callState := .disabled }).ctx i).search = (u.ctx i).search :=
    State.ctx_modCtx_proj Context.search u i i _ fun _ => rfl
  have lane : (enterPassing i .disabled u).lane = u.lane :=
    releaseHeld_empty (u.modCtx i fun c => { c with callState := .disabled }) i (by rw [role, stopAt]; exact offering) out
      (by rw [State.heldBlocks, search]; exact empty)
  have outside := outside_enterPassing i .disabled u
  have me : (enterPassing i .disabled u).me = u.me := by rw [State.me, State.outside_profile outside]; rfl
  rw [State.notify_queue (by rw [lane]; exact room), State.outside_profile outside, if_pos mask, lane, me, State.outside_frame outside,
    packLeft_toneDisable, toneDirection_field, Nat.add_assoc]
  rfl

theorem countDwell_heldBlocks (report : CommitReport) (c : Context) :
    (countDwell report c).search.elim [] (fun r => r.bound.map (·.2) ++ r.spare) =
      c.search.elim [] fun r => r.bound.map (·.2) ++ r.spare := by
  unfold countDwell
  split
  · cases c.search with
    | none => rfl
    | some r =>
      rw [Option.map_some, Option.elim_some, Option.elim_some]
      split <;> rfl
  · rfl

theorem blockWork_heldBlocks (hsv : (s.ctx i).serving = some sv) : (blockWork i sv s).heldBlocks i = s.heldBlocks i := by
  rw [State.heldBlocks, blockWork_ctx hsv]
  exact countDwell_heldBlocks _ _

theorem countDwell_unsearched (report : CommitReport) (c : Context) : (countDwell report c).unsearched = c.unsearched := by
  unfold countDwell
  split <;> rfl

/-- The TONE DISABLE notice after the work of a block end (R132, R136). -/
theorem blockWork_toneDisable {tr ts : Tone} (hsv : (s.ctx i).serving = some sv) (sound : s.poolSound) (empty : s.heldBlocks i = [])
    (out : i ∉ s.pool.shortfall) (mask : maskBit s.profile.noticeMask 7 = true) (room : s.lane.queue.length < 16) :
    ((enterPassing i .disabled (blockWork i sv s)).notify 7 [(7, (blockWork i sv s).slotOf i), (2, toneDirection tr ts)]).lane.queue =
      insertEntry ⟨.notice 7 (BitVec.ofNat 16 (s.slotOf i % 128 * 512 + (if tr.reversal = true then 1 else 0) * 128
        + (if ts.reversal = true then 2 else 0) * 128)) s.me, s.frame, none⟩ s.lane.queue := by
  obtain ⟨-, -, -, -, -, -, -, -, -, -, offers, -⟩ := sound
  have outside := outside_blockWork i sv s
  have self := countDwell_unsearched (commitReport sv.hold sv.block.clean) (s.ctx i)
  have worked := blockWork_ctx hsv
  have role : ((blockWork i sv s).ctx i).role = (s.ctx i).role := by
    rw [worked]
    exact (congrArg Context.role self :)
  have stopAt : ((blockWork i sv s).ctx i).stopAt = (s.ctx i).stopAt := by
    rw [worked]
    exact (congrArg Context.stopAt self :)
  have slot : (blockWork i sv s).slotOf i = s.slotOf i := by
    rw [State.slotOf, worked]
    exact congrArg (·.getD 0) (congrArg Context.slot self :)
  rw [toneDisable_queue (by rw [role, stopAt]; exact fun h => out (offers i h.1 h.2)) (by rw [blockWork_shortfall]; exact out)
    (by rw [blockWork_heldBlocks hsv]; exact empty) (by rw [State.outside_profile outside]; exact mask)
    (by rw [blockWork_lane]; exact room), slot, blockWork_lane, State.me, State.outside_profile outside, State.outside_frame outside]
  rfl

/-- Settles O37: the block end's work tests both directions, and the events act on what the tests found. -/
theorem blockEndTestsTones : Obligations.BlockEndTestsTones := by
  unfold Obligations.BlockEndTestsTones
  intro s slot i sv h hp lead due held
  have hsv := h.2.2.2
  have ended := exec_blockEnd_full h hp lead due
  have stage := toneStage hsv hp
  obtain ⟨receive, send⟩ := blockParts_tones s i sv
  rw [receive, send] at stage
  have events : blockEvents i (blockWork i sv s) = toneEvents i (pathChangeIfDue i (evaluateIfDue i (blockWork i sv s))) := rfl
  have quiet := blockWork_quiet (sv := sv) hsv
  rw [events] at ended
  generalize pathChangeIfDue i (evaluateIfDue i (blockWork i sv s)) = u at ended stage quiet
  refine ⟨fun off hold rr rs => ?_, fun on => ?_⟩
  · have unqualified : (sv.toneReceive.qualified || sv.toneSend.qualified) = false := by
      rw [Bool.eq_false_iff]
      intro q
      exact absurd (held (by simpa using q)) (by simp [hold])
    simp only [off, hold] at stage
    rw [stage.idle unqualified ⟨rr, rs⟩] at ended
    obtain ⟨v, hv, htr, hts⟩ := stage.serving
    have now := State.ctx_modServing_some hv Serving.nextBlock
    exact ⟨_, _, ended, congrArg Context.serving now, htr, hts, (congrArg Context.toneHold now :).trans stage.toneHold⟩
  · simp only [on, if_true] at stage
    have tested := And.intro sv.toneReceive.tested_next sv.toneSend.tested_next
    have straightened : ∀ a b : Bool, ¬(a = true ∨ b = true) → a = false ∧ b = false := by decide
    cases hold : (s.ctx i).toneHold with
    | false =>
      rw [hold] at stage
      have fresh : sv.toneReceive.qualified = false ∧ sv.toneSend.qualified = false :=
        straightened _ _ fun q => absurd (held q) (by simp [hold])
      have straight : ¬(sv.toneReceive.next.reversal = true ∨ sv.toneSend.next.reversal = true) := by
        simp [Tone.next_reversal, fresh]
      by_cases q : sv.toneReceive.next.qualified = true ∨ sv.toneSend.next.qualified = true
      · have loud : ¬(sv.toneReceive.next.release = 63 ∧ sv.toneSend.next.release = 63) := by
          rcases q with q | q
          · simp [Tone.next_release_of_qualified fresh.1 q]
          · simp [Tone.next_release_of_qualified fresh.2 q]
        rw [stage.qualifies (by simpa using q) (straightened _ _ straight) loud] at ended
        obtain ⟨v, hv, htr, hts⟩ := stage.serving
        have set := setToneHold_ctx hv
        have now := State.ctx_modServing_some (s := setToneHold i u) (congrArg Context.serving set) Serving.nextBlock
        rw [set] at now
        refine ⟨_, _, ended, congrArg Context.serving now, _, _, tested.1, tested.2, fun r => absurd r straight, fun _ => ?_,
          fun _ _ _ => ⟨(congrArg Context.toneHold now :), rfl, rfl, htr, hts⟩, (nomatch ·), fun _ => (nomatch ·),
          fun _ n => absurd q n⟩
        rw [(congrArg Context.callState now :)]
        exact fun n => absurd (n ▸ stage.processes) (by decide)
      · rw [stage.idle (by simpa using q) (straightened _ _ straight)] at ended
        obtain ⟨v, hv, htr, hts⟩ := stage.serving
        have now := State.ctx_modServing_some hv Serving.nextBlock
        refine ⟨_, _, ended, congrArg Context.serving now, _, _, tested.1, tested.2, fun r => absurd r straight, fun _ => ?_,
          fun _ n => absurd n q, (nomatch ·), fun _ => (nomatch ·),
          fun _ _ _ => ⟨(congrArg Context.toneHold now :).trans stage.toneHold, htr, hts⟩⟩
        rw [(congrArg Context.callState now :)]
        exact fun n => absurd (n ▸ stage.processes) (by decide)
    | true =>
      rw [hold] at stage
      by_cases reversed : sv.toneReceive.next.reversal = true ∨ sv.toneSend.next.reversal = true
      · have loud : ¬(sv.toneReceive.next.release = 63 ∧ sv.toneSend.next.release = 63) := by
          rcases reversed with r | r
          · simp [Tone.next_release_of_reversal r]
          · simp [Tone.next_release_of_reversal r]
        obtain ⟨disabled, entered⟩ := stage.disables (by rcases reversed with r | r <;> simp [r])
        obtain ⟨v, hv, htr, hts⟩ := stage.serving
        have serving : ((toneEvents i u).ctx i).serving = some v := (Context.unoffered_serving entered).trans hv
        have now := State.ctx_modServing_some serving Serving.nextBlock
        refine ⟨_, _, ended, congrArg Context.serving now, _, _, tested.1, tested.2, fun _ =>
          ⟨(congrArg Context.callState now :).trans (Context.unoffered_callState entered),
            (congrArg Context.toneHold now :).trans ((Context.unoffered_toneHold entered).trans stage.toneHold),
            (congrArg Context.search now :).trans (Context.unoffered_search entered), htr, hts, ?_⟩,
          fun n => absurd reversed n, fun n => absurd reversed n, fun _ q => absurd q loud, fun n => absurd reversed n,
          fun n => absurd reversed n⟩
        intro sound empty dwell run out mask room
        change (toneEvents i u).lane.queue = _
        rw [disabled, quiet (fun r hr _ => dwell r hr) fun _ => run]
        exact blockWork_toneDisable hsv sound empty out mask room
      · by_cases quieted : sv.toneReceive.next.release = 63 ∧ sv.toneSend.next.release = 63
        · rw [stage.releases (straightened _ _ reversed) quieted] at ended
          obtain ⟨v, hv, htr, hts⟩ := stage.serving
          have released := releaseToneHold_ctx (u := u) (State.lt_of_serving hv)
          rw [Context.untold, hv] at released
          have now := State.ctx_modServing_some (s := releaseToneHold i u) (congrArg Context.serving released) Serving.nextBlock
          rw [released] at now
          refine ⟨_, _, ended, congrArg Context.serving now, _, _, tested.1, tested.2, fun r => absurd r reversed, fun _ => ?_,
            fun _ _ => (nomatch ·), fun _ _ => ⟨(congrArg Context.toneHold now :), rfl, rfl⟩, fun _ _ n => absurd quieted n,
            fun _ _ => (nomatch ·)⟩
          rw [(congrArg Context.callState now :)]
          exact fun n => absurd (n ▸ stage.processes) (by decide)
        · rw [stage.holds (straightened _ _ reversed) quieted] at ended
          obtain ⟨v, hv, htr, hts⟩ := stage.serving
          have now := State.ctx_modServing_some hv Serving.nextBlock
          refine ⟨_, _, ended, congrArg Context.serving now, _, _, tested.1, tested.2, fun r => absurd r reversed, fun _ => ?_,
            fun _ _ => (nomatch ·), fun _ n => absurd n quieted,
            fun _ _ _ => ⟨(congrArg Context.toneHold now :).trans stage.toneHold, htr, hts⟩, fun _ _ => (nomatch ·)⟩
          rw [(congrArg Context.callState now :)]
          exact fun n => absurd (n ▸ stage.processes) (by decide)

end ToneTests

end Sys2Proof.Machine

namespace Sys2Proof.Machine

open Sys2Proof

/-! ## New searches in any state (R77, R81, R82, R90) -/

/-! ### Releases while no context waits -/

/-- A block released while no context waits sets off nothing and touches no context, marked or not (R103, R109, R111). -/
theorem releaseTask_quiet {s : State} (b : Nat) (hq : s.pool.shortfall = []) :
    (releaseTask b s).2 = [] ∧ (releaseTask b s).1.pool.shortfall = [] ∧ ∀ k, (releaseTask b s).1.ctx k = s.ctx k := by
  have placed : ∀ (c : Nat) (u : State), u.pool.shortfall = [] → placeBlock c u = (u.freeBlock c, []) := fun c u hu => by
    rw [placeBlock, hu]
  have promoted : ∀ u : State, u.pool.shortfall = [] →
      (promoteTask u).2 = [] ∧ (promoteTask u).1.pool.shortfall = [] ∧ ∀ k, (promoteTask u).1.ctx k = u.ctx k := fun u hu => by
    unfold promoteTask
    split
    · exact ⟨rfl, hu, fun _ => rfl⟩
    · next rest _ =>
      have told : (if rest = [] then u.notify 6 [(9, u.countBlocks .failed)] else u).pool.shortfall = [] := by
        split
        · rw [State.notify_pool, hu]
        · exact hu
      rw [placed _ _ told]
      refine ⟨rfl, told, fun k => ?_⟩
      split <;> simp
  unfold releaseTask
  split
  · have retired : ((s.failBlock b (s.tapBlock b).corrected).noticeRetired b 2).pool.shortfall = [] := by
      rw [State.noticeRetired, State.notify_pool]
      exact hq
    obtain ⟨tasks, shortfall, contexts⟩ := promoted _ retired
    exact ⟨tasks, shortfall, fun k => (contexts k).trans (by simp [State.failBlock])⟩
  · rw [placed b s hq]
    exact ⟨rfl, hq, fun k => by simp⟩

theorem runTasks_release_quiet (fuel : Nat) (bs : List Nat) {s : State} (hq : s.pool.shortfall = []) :
    (runTasks fuel (bs.map .release) s).pool.shortfall = [] ∧ ∀ k, (runTasks fuel (bs.map .release) s).ctx k = s.ctx k := by
  induction fuel generalizing bs s with
  | zero => exact ⟨hq, fun _ => rfl⟩
  | succ n ih =>
    cases bs with
    | nil => exact ⟨hq, fun _ => rfl⟩
    | cons b bs =>
      obtain ⟨tasks, shortfall, contexts⟩ := releaseTask_quiet b hq
      have next := ih bs shortfall
      rw [List.map_cons, runTasks, doTask, tasks, List.nil_append]
      exact ⟨next.1, fun k => (next.2 k).trans (contexts k)⟩

/-! ### The request and the pass start of a new search -/

/-- A context with another search record. -/
def Context.searching (c : Context) (r : SearchRecord) : Context := { c with search := some r }

theorem insertNum_length_le (x : Nat) (xs : List Nat) : (insertNum x xs).length ≤ xs.length + 1 := by
  induction xs with
  | nil => exact Nat.le_refl _
  | cons y ys ih =>
    unfold insertNum
    split
    · exact Nat.le_refl _
    · split
      · simp
      · simpa using ih

theorem sortNums_length_le (xs : List Nat) : (sortNums xs).length ≤ xs.length := by
  induction xs with
  | nil => exact Nat.le_refl _
  | cons x xs ih => exact (insertNum_length_le x _).trans (Nat.succ_le_succ ih)

section NewSearch

variable {s : State} {i B : Nat} {X : List Nat}

/-- What a new search's request leaves in any state: only the spare hand changes, and a search that obtained blocks is the
only one that can wait (R81, R101). -/
theorem requestToSpare_newSearch (hi : i < s.table.contexts.length) (hr : (s.ctx i).search = some (newSearch B)) :
    ∃ X, (requestToSpare i s).1.ctx i = (s.ctx i).searching { newSearch B with spare := X }
      ∧ X.length ≤ B ∧ ((requestToSpare i s).2 = 0 → X = [])
      ∧ (0 < (requestToSpare i s).2 → (requestToSpare i s).1.pool.shortfall.erase i = []) := by
  have short : s.shortOf i = B := shortOf_newSearch (X := []) hr
  have standing : s.ctx i = (s.ctx i).searching { newSearch B with spare := [] } := by
    have same : ({ newSearch B with spare := [] } : SearchRecord) = newSearch B := rfl
    rw [same, Context.searching, ← hr]
  by_cases short0 : s.shortOf i = 0
  · have none : requestToSpare i s = (s, 0) := by rw [requestToSpare]; simp only [if_pos short0]
    rw [none]
    exact ⟨[], standing, Nat.zero_le _, fun _ => rfl, fun h => absurd h (Nat.lt_irrefl 0)⟩
  · by_cases hw : s.pool.shortfall = []
    · have request := requestToSpare_free short0 hw
      generalize hn : min (s.shortOf i) s.pool.fifo.length = n at request
      have hand := inHand_ctx (n := n) hi hr
      have shortfall : (s.inHand i n).pool.shortfall = [] := by
        rw [State.inHand, State.modSearch_pool, State.reserveAll_shortfall]
        exact hw
      have length : (sortNums (s.pool.fifo.take n)).length ≤ n := by
        refine (sortNums_length_le _).trans ?_
        rw [List.length_take]
        exact Nat.min_le_left _ _
      refine ⟨sortNums (s.pool.fifo.take n), ?_, by omega, fun h0 => ?_, fun _ => ?_⟩
      · rw [request]
        dsimp only
        split
        · rw [State.joinShortfall_ctx]
          exact hand
        · exact hand
      · rw [request] at h0
        rw [show n = 0 from h0]
        rfl
      · rw [request]
        dsimp only
        split
        · unfold State.joinShortfall
          split
          · rw [shortfall]; rfl
          · rw [State.notify_pool, shortfall]
            simp
        · rw [shortfall]; rfl
    · rw [requestToSpare_wait short0 hw]
      exact ⟨[], (State.joinShortfall_ctx s i i).trans standing, Nat.zero_le _, fun _ => rfl, fun h => absurd h (Nat.lt_irrefl 0)⟩

/-- The pass start of a new search in any state in which no other context waits (R82, R103). -/
theorem perform_passStart_first (hi : i < s.table.contexts.length) (hc : (s.ctx i).callState = .search)
    (hr : (s.ctx i).search = some { newSearch B with spare := X }) (reach : 0 < s.reachOf i) (hq : s.pool.shortfall.erase i = []) :
    ((perform [.passStart i] s).ctx i).unoffered = ((s.ctx i).searching
      (.first (if X.length ≤ s.reachOf i then B else s.reachOf i) (s.reachOf i) X)).unoffered := by
  have unseen : ({ newSearch B with spare := X } : SearchRecord).unexplored (s.reachOf i) = List.range (s.reachOf i) :=
    unexplored_newSearch B _
  have some_unseen : ({ newSearch B with spare := X } : SearchRecord).unexplored (s.reachOf i) ≠ [] := by
    rw [unseen, Ne, List.range_eq_nil]
    omega
  have passed := passed_newSearch B (s.reachOf i) X
  have len : i < (s.bindAll i ((List.range (s.reachOf i)).zip X)).table.contexts.length := by
    rw [State.bindAll_table]
    exact hi
  have set : ∀ r, ((s.bindAll i ((List.range (s.reachOf i)).zip X)).modSearch i fun _ => r).ctx i =
      (s.ctx i).searching r := fun r => by
    rw [State.ctx_modSearch_self _ _ _ len, State.bindAll_ctx, hr]
    rfl
  by_cases fits : X.length ≤ s.reachOf i
  · have start := perform_passStart_fits hc hr some_unseen (by rw [unseen, List.length_range]; exact fits)
    rw [unseen, passed] at start
    rw [start, set, if_pos fits]
  · have task := passStartTask_eq hc hr some_unseen
    rw [unseen, passed, List.length_range] at task
    have left : X.drop (s.reachOf i) ≠ [] := by
      rw [Ne, List.drop_eq_nil_iff]
      omega
    simp only [if_neg left] at task
    have want : (SearchRecord.first B (s.reachOf i) X).bound.length = s.reachOf i := by
      rw [SearchRecord.first_bound, List.length_zip, List.length_range]
      omega
    rw [want] at task
    rw [if_neg fits, perform, runTasks, doTask, task, List.append_nil]
    have shortfall : (((s.bindAll i ((List.range (s.reachOf i)).zip X)).modSearch i fun _ =>
        { SearchRecord.first B (s.reachOf i) X with want := s.reachOf i }).leaveShortfall i).pool.shortfall = [] := by
      rw [State.leaveShortfall_shortfall]
      simpa using hq
    rw [(runTasks_release_quiet _ _ shortfall).2, State.unoffered_leaveShortfall, set]
    rfl

end NewSearch

end Sys2Proof.Machine

namespace Sys2Proof.Machine

open Sys2Proof

/-- The profile in use is read from the profile table and the number in the serving parts (R27). -/
theorem State.profileOf_congr {s t : State} {i : Nat} (hp : t.profile = s.profile)
    (hs : (t.ctx i).serving.map (·.profile) = (s.ctx i).serving.map (·.profile)) : t.profileOf i = s.profileOf i := by
  have number : ∀ o : Option Serving, o.elim 0 (·.profile) = (o.map (·.profile)).getD 0 := fun o => by cases o <;> rfl
  rw [State.profileOf, State.profileOf, hp, number, number, hs]

/-- A new search's request and, on its blocks, its first pass (R81, R82, R90). -/
def beginSearch (i : Nat) (s : State) : State :=
  if 0 < (requestToSpare i s).2 then perform [.passStart i] (requestToSpare i s).1 else (requestToSpare i s).1

/-- A search record as a new search has it after its request: in pass 0 without a block, in pass 1 with them (R77, R82). -/
structure SearchRecord.Begun (B reach : Nat) (r : SearchRecord) : Prop where
  retained : r.retained = []
  pass : r.pass ≤ 1
  dwell : r.dwell = 0
  explored : r.explored = r.bound.map (·.1)
  want : B ≤ reach → r.want = B
  waiting : r.status = .waiting → r.explored = []

theorem SearchRecord.begun_newSearch (B reach : Nat) : (newSearch B).Begun B reach :=
  ⟨rfl, Nat.zero_le _, rfl, rfl, fun _ => rfl, fun _ => rfl⟩

theorem SearchRecord.begun_first {B reach : Nat} {X : List Nat} (hX : X.length ≤ B) :
    (first (if X.length ≤ reach then B else reach) reach X).Begun B reach := by
  refine ⟨rfl, Nat.le_refl _, rfl, ?_, fun h => if_pos (by omega), (nomatch ·)⟩
  rw [first_bound, zip_map_fst, List.take_range, Nat.min_comm]
  rfl

section Begin

variable {s u : State} {i B : Nat}

theorem requestToSpare_lt (hi : i < s.table.contexts.length) : i < (requestToSpare i s).1.table.contexts.length := by
  have out := outside_requestToSpare i s
  rw [State.outside_contexts out]
  exact hi

/-- A new search after its request and pass start, in any state. -/
theorem beginSearch_ctx (hi : i < s.table.contexts.length) (hc : (s.ctx i).callState = .search)
    (hr : (s.ctx i).search = some (newSearch B)) (reach : 0 < s.reachOf i) :
    ∃ r, ((beginSearch i s).ctx i).unoffered = ((s.ctx i).searching r).unoffered ∧ r.Begun B (s.reachOf i) := by
  obtain ⟨X, self, le, empty, alone⟩ := requestToSpare_newSearch hi hr
  rw [beginSearch]
  split
  · next got =>
    have reaches : (requestToSpare i s).1.reachOf i = s.reachOf i := by
      have out := outside_requestToSpare i s
      rw [State.reachOf, State.profileOf_congr (State.outside_profile out) (by rw [self]; rfl), State.reachOf]
    have start := perform_passStart_first (requestToSpare_lt hi) (by rw [self]; exact hc) (congrArg Context.search self)
      (reaches ▸ reach) (alone got)
    rw [reaches, self] at start
    exact ⟨_, start, SearchRecord.begun_first le⟩
  · next got =>
    rw [self, empty (by omega)]
    exact ⟨_, rfl, SearchRecord.begun_newSearch B _⟩

theorem beginSearch_onlyNotices (i : Nat) (s : State) : s.OnlyNotices (beginSearch i s) := by
  have asked := (State.OnlyNotices.refl s).requestToSpare i
  unfold beginSearch
  split
  · exact asked.perform _
  · exact asked

/-! ### A new search in a sound pool -/

/-- FREE blocks as a request may take them: distinct, of the pool, without a mark (R96, R100). -/
structure State.FreeSound (s : State) : Prop where
  nodup : s.pool.fifo.Nodup
  inPool : ∀ b ∈ s.pool.fifo, b < s.pool.blocks.length
  unmarked : ∀ b ∈ s.pool.fifo, (s.tapBlock b).retirePending = false
  few : s.pool.blocks.length = 264

/-- A list of distinct numbers below n has at most n. -/
theorem length_le_of_nodup {l : List Nat} {n : Nat} (nodup : l.Nodup) (below : ∀ b ∈ l, b < n) : l.length ≤ n := by
  have sub : l.Subperm (List.range n) := nodup.subperm fun b hb => List.mem_range.2 (below b hb)
  simpa using sub.length_le

theorem State.FreeSound.length_le (h : s.FreeSound) : s.pool.fifo.length ≤ 264 := h.few ▸ length_le_of_nodup h.nodup h.inPool

/-- A notice joins a queue with room. -/
theorem State.mem_notify {s : State} {kind : Nat} {fs : List Field} (hm : maskBit s.profile.noticeMask kind = true)
    (room : s.lane.queue.length < 16) :
    ⟨.notice (BitVec.ofNat 4 kind) (BitVec.ofNat 16 (packLeft 16 fs)) s.me, s.frame, none⟩ ∈ (s.notify kind fs).lane.queue := by
  rw [State.notify_queue room, if_pos hm]
  exact (mem_insertEntry _ _ _).2 (.inl rfl)

theorem packLeft_poolShort (slot short : Nat) : packLeft 16 [(7, slot), (5, short)] = slot % 128 * 512 + short % 32 * 16 := by
  simp only [packLeft, packed, widthOf, List.foldl]
  omega

/-- What the first pass start of a search makes of the pool while no other context waits (R82, R100, R103). -/
theorem passStart_pool {v : State} {X : List Nat} (hc : (v.ctx i).callState = .search)
    (hr : (v.ctx i).search = some { newSearch B with spare := X }) (reach : 0 < v.reachOf i) (hq : v.pool.shortfall.erase i = [])
    (distinct : X.Nodup) (inPool : ∀ b ∈ X, b < v.pool.blocks.length) (unmarked : ∀ b ∈ X, (v.tapBlock b).retirePending = false)
    (few : X.length ≤ 4000) :
    (perform [.passStart i] v).pool.fifo = v.pool.fifo ++ X.drop (v.reachOf i)
      ∧ (perform [.passStart i] v).pool.shortfall = (if X.length ≤ v.reachOf i then v.pool.shortfall else [])
      ∧ ∀ jb ∈ (List.range (v.reachOf i)).zip X,
        (perform [.passStart i] v).tapBlock jb.2 = (v.tapBlock jb.2).boundTo ⟨i, v.slotOf i⟩ jb.1 := by
  have unseen : ({ newSearch B with spare := X } : SearchRecord).unexplored (v.reachOf i) = List.range (v.reachOf i) :=
    unexplored_newSearch B _
  have some_unseen : ({ newSearch B with spare := X } : SearchRecord).unexplored (v.reachOf i) ≠ [] := by
    rw [unseen, Ne, List.range_eq_nil]
    omega
  have blocks : ((List.range (v.reachOf i)).zip X).map Prod.snd = X.take (v.reachOf i) := by rw [zip_map_snd, List.length_range]
  have mem : ∀ jb ∈ (List.range (v.reachOf i)).zip X, jb.2 ∈ X.take (v.reachOf i) := fun jb hjb => by
    rw [← blocks]
    exact List.mem_map_of_mem hjb
  obtain ⟨bound, stand⟩ := State.bindAll_tapBlock (s := v) (i := i) (pairs := (List.range (v.reachOf i)).zip X)
    (by rw [blocks]; exact distinct.sublist (List.take_sublist _ _)) fun jb hjb => inPool _ ((List.take_sublist _ _).mem (mem jb hjb))
  by_cases fits : X.length ≤ v.reachOf i
  · have start := perform_passStart_fits hc hr some_unseen (by rw [unseen, List.length_range]; exact fits)
    rw [unseen] at start
    rw [start, List.drop_eq_nil_of_le fits, if_pos fits, List.append_nil]
    exact ⟨State.bindAll_fifo v i _, State.bindAll_shortfall v i _, bound⟩
  · have apart : ∀ b ∈ X.drop (v.reachOf i), ∀ jb ∈ (List.range (v.reachOf i)).zip X, jb.2 ≠ b := fun b hb jb hjb h => by
      have parts := List.take_append_drop (v.reachOf i) X ▸ distinct
      exact (List.nodup_append.1 parts).2.2 jb.2 (mem jb hjb) b hb h
    have start := perform_passStart_over hc hr some_unseen (by rw [unseen, List.length_range]; exact Nat.lt_of_not_le fits) hq few (by
      rw [unseen, List.length_range]
      exact fun b hb => by rw [stand b (apart b hb)]; exact unmarked b ((List.drop_sublist _ _).mem hb))
    rw [unseen, List.length_range] at start
    rw [start, if_neg fits, State.freeAll_fifo, State.freeAll_shortfall, State.leaveShortfall_fifo, State.leaveShortfall_shortfall]
    refine ⟨by simp, by simpa using hq, fun jb hjb => ?_⟩
    rw [State.freeAll_tapBlock, if_neg fun h => apart jb.2 h.1 jb hjb rfl, State.leaveShortfall_tapBlock, State.modSearch_tapBlock,
      bound jb hjb]

/-- A new search in a sound pool stands as R77, R81, R82, R101 and R112 say. -/
theorem beginSearch_searchesFrom (hi : i < u.table.contexts.length) (hc : (u.ctx i).callState = .search)
    (hr : (u.ctx i).search = some (newSearch (s.profileOf i).budget)) (hB : 0 < (s.profileOf i).budget)
    (reach : 0 < (s.profileOf i).reach) (profile : u.profileOf i = s.profileOf i) (outside : u.outside = s.outside)
    (slot : u.slotOf i = s.slotOf i) (hq : i ∉ u.pool.shortfall) (free : u.FreeSound)
    (room : s.lane.queue.length ≤ 14 → u.lane.queue.length < 16) (X : List Nat) :
    s.searchesFrom i u.pool.shortfall u.pool.fifo X (beginSearch i u) := by
  unfold State.searchesFrom
  dsimp only
  generalize hn : (if u.pool.shortfall = [] then min (s.profileOf i).budget u.pool.fifo.length else 0) = n
  intro perm sorted
  have reaches : u.reachOf i = (s.profileOf i).reach := by rw [State.reachOf, profile]
  obtain ⟨got, req⟩ := requestToSpare_requested hi hr hB hq free.nodup hn.symm
  rw [sortNums_eq_of_perm sorted perm] at req
  have length : X.length = n := by
    rw [perm.length_eq, List.length_take]
    split at hn <;> omega
  have told : n < (s.profileOf i).budget → maskBit s.profile.noticeMask 3 = true → s.lane.queue.length ≤ 14 →
      ⟨.notice 3 (BitVec.ofNat 16 (s.slotOf i % 128 * 512 + ((s.profileOf i).budget - n) % 32 * 16)) s.me, s.frame, none⟩
        ∈ (requestToSpare i u).1.lane.queue := fun short mask le => by
    have own : u.me = s.me := by rw [State.me, State.outside_profile outside]; rfl
    have told := State.mem_notify (s := u) (kind := 3) (fs := [(7, u.slotOf i), (5, (s.profileOf i).budget - n)])
      (by rw [State.outside_profile outside]; exact mask) (room le)
    rw [packLeft_poolShort, slot, own, State.outside_frame outside] at told
    rw [req.lane, if_pos short, slot]
    exact told
  have state : ((requestToSpare i u).1.ctx i).callState = .search := by rw [req.self]; exact hc
  have search : ((requestToSpare i u).1.ctx i).search = some { newSearch (s.profileOf i).budget with spare := X } :=
    congrArg Context.search req.self
  by_cases zero : n = 0
  · have idle : beginSearch i u = (requestToSpare i u).1 := if_neg (by rw [got]; omega)
    have empty : X = [] := List.eq_nil_of_length_eq_zero (length.trans zero)
    rw [idle]
    refine ⟨state, _, search, ?_, ?_, empty, ?_, rfl, rfl, ?_, ?_, ?_, ?_, ?_, ?_, told⟩
    · rw [empty]; simp [newSearch, SearchRecord.bound]
    · rw [zero, Nat.min_zero]; rfl
    · rw [zero, Nat.min_zero]; rfl
    · rw [if_pos zero]; rfl
    · rw [if_pos zero]; rfl
    · rw [if_neg (by omega)]; rfl
    · rw [show SearchRecord.bound { newSearch (s.profileOf i).budget with spare := X } = [] from rfl]
      exact fun jb hjb => nomatch hjb
    · rw [req.fifo, empty, List.drop_nil, List.append_nil]
    · rw [req.shortfall, zero]
      simp [hB]
  · have none_waits : u.pool.shortfall = [] := by
      by_contra hne
      rw [if_neg hne] at hn
      omega
    have begun : beginSearch i u = perform [.passStart i] (requestToSpare i u).1 := if_pos (by rw [got]; omega)
    have shortfall : (requestToSpare i u).1.pool.shortfall = if n < (s.profileOf i).budget then [i] else [] := by
      rw [req.shortfall, none_waits]
      rfl
    have alone : (requestToSpare i u).1.pool.shortfall.erase i = [] := by
      rw [shortfall]
      split <;> simp
    have len := requestToSpare_lt hi
    have reaches' : (requestToSpare i u).1.reachOf i = (s.profileOf i).reach := by
      have out := outside_requestToSpare i u
      rw [State.reachOf, State.profileOf_congr (State.outside_profile out) (by rw [req.self]), ← reaches, State.reachOf]
    have member : ∀ b ∈ X, b ∈ u.pool.fifo := fun b hb => (List.take_sublist _ _).mem (perm.mem_iff.1 hb)
    have taken : ∀ b ∈ X, (requestToSpare i u).1.tapBlock b = (u.tapBlock b).reservedBy ⟨i, u.slotOf i⟩ := fun b hb =>
      req.taken b hb (free.inPool b (member b hb))
    have self := perform_passStart_first len state search (by rw [reaches']; exact reach) alone
    have few : X.length ≤ 264 := length_le_of_nodup (sorted.imp fun h => Nat.ne_of_lt h) fun b hb => free.few ▸ free.inPool b (member b hb)
    obtain ⟨fifo, queue, bound⟩ := passStart_pool state search (by rw [reaches']; exact reach) alone
      (sorted.imp fun h => Nat.ne_of_lt h) (fun b hb => by rw [req.length]; exact free.inPool b (member b hb))
      (fun b hb => by rw [taken b hb]; exact free.unmarked b (member b hb)) (by omega)
    rw [reaches', length] at self queue
    rw [reaches'] at fifo bound
    have owner : (requestToSpare i u).1.slotOf i = s.slotOf i := by
      rw [State.slotOf, req.self]
      exact slot
    rw [begun]
    refine ⟨(Context.unoffered_callState self).trans state, _, Context.unoffered_search self, SearchRecord.first_bound _ _ _, ?_, rfl, ?_,
      rfl, rfl, ?_, ?_, ?_, ?_, ?_, ?_, ?_⟩
    · rw [← length]
      exact (List.length_map ..).trans (by rw [List.length_zip, List.length_range])
    · rw [← length]; rfl
    · rw [if_neg zero]; rfl
    · rw [if_neg zero]; rfl
    · change (if n ≤ (s.profileOf i).reach then (s.profileOf i).budget else (s.profileOf i).reach) = _
      by_cases hle : n ≤ (s.profileOf i).reach
      · rw [if_pos hle, if_neg (Nat.not_lt.2 hle)]
      · rw [if_neg hle, if_pos (Nat.lt_of_not_le hle)]
    · rw [SearchRecord.first_bound]
      intro jb hjb
      rw [bound jb hjb, owner]
      exact ⟨rfl, rfl, rfl, rfl⟩
    · rw [fifo, req.fifo]
    · rw [queue, shortfall, none_waits]
      by_cases hle : n ≤ (s.profileOf i).reach <;> by_cases short : n < (s.profileOf i).budget <;> simp [hle, short]
    · exact fun short mask le => (perform_onlyNotices _ _).queue_stays (told short mask le)
        (show (3 : Nat) ≠ 9 by decide) (show (3 : Nat) ≠ 13 by decide)

end Begin

end Sys2Proof.Machine

namespace Sys2Proof.Machine

open Sys2Proof

/-! ## A search again (R57, R81, R90, R135) -/

section Again

variable {s u : State} {i k : Nat} {v : Serving}

/-- Context i as RESTART, a path change or a release from DISABLED puts it in SEARCH (R49, R56, R77). -/
def Context.searchingAgain (c : Context) (r : SearchRecord) : Context :=
  { c.restarted with callState := .search, search := some r }

/-- The state in which a search again makes its request. -/
def State.searchingAgain (s : State) (i : Nat) : State :=
  (s.modServing i restartFilter).modCtx i fun c =>
    { c with callState := .search, search := some (newSearch ((s.modServing i restartFilter).profileOf i).budget) }

theorem profileOf_modCtx {f : Context → Context} (hf : ∀ c, (f c).serving.map (·.profile) = c.serving.map (·.profile)) :
    (s.modCtx i f).profileOf k = s.profileOf k :=
  State.profileOf_congr (State.modCtx_profile s i f) (State.ctx_modCtx_proj (fun c => c.serving.map (·.profile)) s i k f hf)

theorem restarted_profileOf (s : State) (i : Nat) : (s.modServing i restartFilter).profileOf i = s.profileOf i :=
  profileOf_modCtx fun c => by
    rw [Option.map_map]
    rfl

theorem searchingAgain_profileOf (s : State) (i : Nat) : (s.searchingAgain i).profileOf i = s.profileOf i := by
  rw [State.searchingAgain, profileOf_modCtx, restarted_profileOf]
  exact fun _ => rfl

theorem searchAgain_of_budget (hB : 0 < (s.profileOf i).budget) : searchAgain i s = beginSearch i (s.searchingAgain i) := by
  unfold searchAgain
  dsimp only
  have budget : ((s.searchingAgain i).profileOf i).budget ≠ 0 := by
    rw [searchingAgain_profileOf]
    omega
  exact if_neg budget

theorem searchingAgain_ctx (hi : i < s.table.contexts.length) :
    (s.searchingAgain i).ctx i = (s.ctx i).searchingAgain (newSearch (s.profileOf i).budget) := by
  rw [State.searchingAgain, State.ctx_modCtx_self _ _ _ (by simpa using hi), State.ctx_modServing_self _ _ _ hi, restarted_profileOf]
  rfl

@[simp] theorem outside_searchingAgain (s : State) (i : Nat) : (s.searchingAgain i).outside = s.outside := by simp [State.searchingAgain]

/-- A search again in any state: a new search with nothing retained, the filter state restarted (R49, R90). -/
theorem searchAgain_ctx (hi : i < s.table.contexts.length) (hB : 0 < (s.profileOf i).budget) (reach : 0 < (s.profileOf i).reach) :
    ∃ r, ((searchAgain i s).ctx i).unoffered = ((s.ctx i).searchingAgain r).unoffered
      ∧ r.Begun (s.profileOf i).budget (s.profileOf i).reach := by
  have self := searchingAgain_ctx (s := s) hi
  have reaches : (s.searchingAgain i).reachOf i = (s.profileOf i).reach := by rw [State.reachOf, searchingAgain_profileOf]
  obtain ⟨r, begun, record⟩ := beginSearch_ctx (s := s.searchingAgain i) (by rw [State.outside_contexts (s := s) (by simp)]; exact hi)
    (by rw [self]; rfl) (by rw [self]; rfl) (by rw [reaches]; exact reach)
  rw [reaches] at record
  rw [self] at begun
  exact ⟨r, by rw [searchAgain_of_budget hB, begun]; rfl, record⟩

theorem searchAgain_searchesFrom {t : State} (hi : i < s.table.contexts.length) (hB : 0 < (t.profileOf i).budget)
    (reach : 0 < (t.profileOf i).reach) (profile : s.profileOf i = t.profileOf i) (outside : s.outside = t.outside)
    (slot : s.slotOf i = t.slotOf i) (hq : i ∉ s.pool.shortfall) (free : s.FreeSound)
    (room : t.lane.queue.length ≤ 14 → s.lane.queue.length < 16) (X : List Nat) :
    t.searchesFrom i s.pool.shortfall s.pool.fifo X (searchAgain i s) := by
  have self := searchingAgain_ctx (s := s) hi
  rw [searchAgain_of_budget (by rw [profile]; exact hB)]
  exact beginSearch_searchesFrom (s := t) (u := s.searchingAgain i) (by rw [State.outside_contexts (s := s) (by simp)]; exact hi)
    (by rw [self]; rfl) (by rw [self, profile]; rfl) hB reach ((searchingAgain_profileOf s i).trans profile)
    ((outside_searchingAgain s i).trans outside) (by rw [State.slotOf, self]; exact slot) hq ⟨free.nodup, free.inPool, free.unmarked, free.few⟩
    room X

end Again

/-! ### The blocks of a search given back in a sound pool -/

section GiveBack

variable {s : State} {i : Nat} {H : List Nat}

theorem poolSound_freeSound (h : s.poolSound) : s.FreeSound := by
  obtain ⟨-, blocks, nodup, free, -, marks, -⟩ := h
  refine ⟨nodup, fun b hb => blocks ▸ ((free b).1 hb).1, fun b hb => ?_, blocks⟩
  by_contra hm
  have state := ((free b).1 hb).2
  rcases marks b (by simpa using hm) with n | n <;> rw [state] at n <;> cases n

/-- The held blocks of a sound pool stand outside the FIFO. -/
theorem heldBlocks_state (h : s.poolSound) {b : Nat} (hb : b ∈ s.heldBlocks i) :
    (s.tapBlock b).state = .assigned ∨ (s.tapBlock b).state = .reserved := by
  obtain ⟨-, -, -, -, -, -, holds, -⟩ := h
  unfold State.heldBlocks at hb
  cases hr : (s.ctx i).search with
  | none => rw [hr] at hb; cases hb
  | some r =>
    rw [hr] at hb
    obtain ⟨-, -, bound, spare⟩ := holds i r hr
    rcases List.mem_append.1 hb with hb | hb
    · obtain ⟨jb, hjb, rfl⟩ := List.mem_map.1 hb
      exact .inl (bound jb hjb).1
    · exact .inr (spare b hb).1

theorem heldBlocks_lt (h : s.poolSound) {b : Nat} (hb : b ∈ s.heldBlocks i) : b < s.pool.blocks.length := by
  by_contra hge
  have state := heldBlocks_state h hb
  rw [State.tapBlock_ge h.2.1 (by rw [← h.2.1]; omega)] at state
  rcases state with n | n <;> cases n

/-- The station as context i gives up its place in the queue and its search record. -/
def State.givenUp (s : State) (i : Nat) : State := ((s.cancelOffer i).leaveShortfall i).modCtx i Context.unsearched

theorem givenUp_pool (s : State) (i : Nat) : (s.givenUp i).pool = { s.pool with shortfall := s.pool.shortfall.erase i } := by
  rw [State.givenUp, State.modCtx_pool, State.leaveShortfall_pool, State.cancelOffer_pool]

theorem givenUp_tapBlock (s : State) (i b : Nat) : (s.givenUp i).tapBlock b = s.tapBlock b := by
  rw [State.tapBlock, givenUp_pool, State.tapBlock]

theorem releaseHeld_eq (s : State) (i : Nat) : releaseHeld i s =
    perform ((((s.cancelOffer i).leaveShortfall i).ctx i).search.elim [] (·.heldBlocks) |>.map .release) (s.givenUp i) := rfl

theorem cancelOffer_search (s : State) (i : Nat) : (((s.cancelOffer i).leaveShortfall i).ctx i).search = (s.ctx i).search := by
  have h := Context.unoffered_search (State.unoffered_leaveShortfall (s.cancelOffer i) i i)
  rw [h, Context.unoffered_search (State.unoffered_cancelOffer s i i)]

theorem erase_of_alone {l : List Nat} (nodup : l.Nodup) (alone : ∀ h ∈ l, h = i) : l.erase i = [] := by
  refine List.eq_nil_iff_forall_not_mem.2 fun b hb => ?_
  have mem := List.mem_of_mem_erase hb
  rw [alone b mem] at hb
  exact nodup.not_mem_erase hb

/-- Where no other context waits, the unmarked blocks of a search join the FIFO tail in ascending number (R102, R103). -/
theorem releaseHeld_sound (sound : s.poolSound) (alone : ∀ h ∈ s.pool.shortfall, h = i) (held : s.holdsUnmarked i H) :
    releaseHeld i s = (s.givenUp i).freeAll H := by
  obtain ⟨perm, sorted, unmarked⟩ := held
  have few : H.length ≤ 264 := length_le_of_nodup (sorted.imp fun h => Nat.ne_of_lt h) fun b hb =>
    sound.2.1 ▸ heldBlocks_lt sound (perm.mem_iff.1 hb)
  have blocks : (((s.cancelOffer i).leaveShortfall i).ctx i).search.elim [] (·.heldBlocks) = H := by
    rw [cancelOffer_search]
    unfold State.heldBlocks at perm
    cases hr : (s.ctx i).search with
    | none =>
      rw [hr] at perm
      exact perm.eq_nil.symm
    | some r =>
      rw [hr] at perm
      exact sortNums_eq_of_perm sorted perm
  rw [releaseHeld_eq, blocks]
  refine perform_release ?_ (fun b hb => by rw [givenUp_tapBlock]; exact unmarked b hb) (by omega)
  rw [givenUp_pool]
  exact erase_of_alone sound.2.2.2.2.2.2.2.1 alone

theorem givenUp_queue_le (s : State) (i : Nat) : (s.givenUp i).lane.queue.length ≤ s.lane.queue.length := by
  have cancelled : ∀ u : State, (u.cancelOffer i).lane.queue.length ≤ u.lane.queue.length := fun u => by
    unfold State.cancelOffer
    dsimp only
    split
    · exact State.recall_queue_le u _
    · exact Nat.le_refl _
  have left : ∀ u : State, (u.leaveShortfall i).lane.queue.length ≤ u.lane.queue.length := fun u => by
    unfold State.leaveShortfall
    split
    · exact cancelled _
    · exact Nat.le_refl _
  exact (left _).trans (cancelled s)

/-- The pool after such a release. -/
theorem givenBack_freeSound (sound : s.poolSound) (held : s.holdsUnmarked i H) : ((s.givenUp i).freeAll H).FreeSound := by
  obtain ⟨perm, sorted, unmarked⟩ := held
  have free := poolSound_freeSound sound
  have pool := givenUp_pool s i
  have length : ((s.givenUp i).freeAll H).pool.blocks.length = s.pool.blocks.length := by rw [State.freeAll_length, pool]
  have fifo : ((s.givenUp i).freeAll H).pool.fifo = s.pool.fifo ++ H := by rw [State.freeAll_fifo, pool]
  have read : ∀ b, (((s.givenUp i).freeAll H).tapBlock b).retirePending = (s.tapBlock b).retirePending := fun b => by
    rw [State.freeAll_tapBlock, givenUp_tapBlock]
    split <;> rfl
  refine ⟨?_, fun b hb => ?_, fun b hb => ?_, length.trans free.few⟩
  · rw [fifo, List.nodup_append]
    refine ⟨free.nodup, sorted.imp fun h => Nat.ne_of_lt h, fun a ha b hb hab => ?_⟩
    have state := ((sound.2.2.2.1 a).1 ha).2
    rcases heldBlocks_state sound (perm.mem_iff.1 hb) with n | n <;> rw [← hab, state] at n <;> cases n
  · rw [length]
    rw [fifo] at hb
    exact (List.mem_append.1 hb).elim (free.inPool b) fun h => heldBlocks_lt sound (perm.mem_iff.1 h)
  · rw [read]
    rw [fifo] at hb
    exact (List.mem_append.1 hb).elim (free.unmarked b) (unmarked b)

end GiveBack

end Sys2Proof.Machine

namespace Sys2Proof.Machine

open Sys2Proof

section PathChange

variable {s : State} {i k : Nat} {sv : Serving}

theorem slotOf_of_steady {t : State} (h : (t.ctx i).steady = (s.ctx i).steady) : t.slotOf i = s.slotOf i := by
  rw [State.slotOf, Context.steady_slot h, State.slotOf]

theorem profileOf_of_steady {t : State} (hp : t.profile = s.profile) (h : (t.ctx i).steady = (s.ctx i).steady) :
    t.profileOf i = s.profileOf i :=
  State.profileOf_congr hp (Context.steady_read (·.profile) (fun _ _ => rfl) h)

/-- A notice lengthens the queue by at most one. -/
theorem State.notify_queue_length (s : State) (kind : Nat) (fs : List Field) :
    (s.notify kind fs).lane.queue.length ≤ s.lane.queue.length + 1 := by
  have joined : ∀ e, (joinQueueWith e s.lane.queue).1.length ≤ s.lane.queue.length + 1 := fun e => by
    obtain ⟨-, hj⟩ | ⟨-, -, h3, hj⟩ | ⟨-, -, -, h4, hj⟩ | ⟨-, hj⟩ := joinQueueWith_cases e s.lane.queue <;> rw [hj]
    · simp
    · have := removeNewest_length 3 _ h3
      simp; omega
    · have := removeNewest_length 4 _ h4
      simp; omega
    · simp
  unfold State.notify
  split
  · exact joined _
  · exact Nat.le_succ _

theorem State.FreeSound.of_pool {s t : State} (h : s.FreeSound) (hp : t.pool = s.pool) : t.FreeSound :=
  ⟨hp ▸ h.nodup, hp ▸ h.inPool, fun b hb => by rw [State.tapBlock, hp]; exact h.unmarked b (hp ▸ hb), hp ▸ h.few⟩

/-- The serving parts of a search again, from a state that keeps what is steady of the context. -/
theorem restarted_serving {u : State} (steady : (u.ctx i).steady = (s.ctx i).steady) (hsv : (s.ctx i).serving = some sv) :
    (u.ctx i).restarted.serving = some (restartFilter sv) :=
  (Context.steady_read restartFilter (fun _ _ => rfl) steady).trans (by rw [hsv]; rfl)

theorem packLeft_slot (slot : Nat) : packLeft 16 [(7, slot)] = slot % 128 * 512 := by
  simp only [packLeft, packed, widthOf, List.foldl]
  omega

/-- Settles O38: the path change releases the blocks and searches again behind them. -/
theorem pathChangeSearchesAgain : Obligations.PathChangeSearchesAgain := by
  unfold Obligations.PathChangeSearchesAgain
  intro s slot i sv h track run budget reach
  have hsv := h.2.2.2
  have hi := h.lt
  have ended : exec (.pathChange slot) s = .next (pathChanged i s) :=
    congrArg Host.Outcome.next ((h.onServed pathChangeIfDue).trans
      (whenDue_of_due hsv (by simp [pathChangeDue, track, Config.pathTop, run])))
  generalize hu : (releaseHeld i s).notify 1 [(7, s.slotOf i)] = u
  have changed : pathChanged i s = searchAgain i u := by rw [pathChanged, hu]
  have outside : u.outside = s.outside := by simp [← hu]
  have steady : (u.ctx i).steady = (s.ctx i).steady := by rw [← hu, State.notify_ctx, steady_releaseHeld]
  have profile : u.profileOf i = s.profileOf i := profileOf_of_steady (State.outside_profile outside) steady
  obtain ⟨r, again, record⟩ := searchAgain_ctx (s := u) (State.outside_contexts outside ▸ hi) (profile ▸ budget) (profile ▸ reach)
  rw [profile] at record
  have parts := (Context.unoffered_serving again).trans (restarted_serving steady hsv)
  have toneHold : ((searchAgain i u).ctx i).toneHold = (s.ctx i).toneHold :=
    (Context.unoffered_toneHold again).trans (show (u.ctx i).toneHold = _ from Context.steady_toneHold steady)
  rw [changed] at ended
  refine ⟨_, restartFilter sv, r, ended, parts, Context.unoffered_search again, Context.unoffered_callState again,
    record.retained, record.pass, record.dwell, record.explored, record.want, rfl, rfl, rfl, rfl, rfl, rfl, rfl, rfl, rfl, rfl, rfl,
    toneHold, (outside_searchAgain i u).trans outside, fun k hk => changed ▸ steady_pathChanged_ne hk, fun sound alone H X held => ?_⟩
  have released := releaseHeld_sound sound alone held
  have pool : u.pool = ((s.givenUp i).freeAll H).pool := by rw [← hu, State.notify_pool, released]
  have fifo : u.pool.fifo = s.pool.fifo ++ H := by rw [pool, State.freeAll_fifo, givenUp_pool]
  have shortfall : u.pool.shortfall = [] := by
    rw [pool, State.freeAll_shortfall, givenUp_pool]
    exact erase_of_alone sound.2.2.2.2.2.2.2.1 alone
  have released_queue : (releaseHeld i s).lane.queue.length ≤ s.lane.queue.length := by
    rw [released, State.freeAll_lane]
    exact givenUp_queue_le s i
  have room : s.lane.queue.length ≤ 14 → u.lane.queue.length < 16 := fun le => by
    have := State.notify_queue_length (releaseHeld i s) 1 [(7, s.slotOf i)]
    rw [hu] at this
    omega
  have searches := searchAgain_searchesFrom (s := u) (t := s) (State.outside_contexts outside ▸ hi) budget reach profile outside
    (slotOf_of_steady steady) (by rw [shortfall]; exact List.not_mem_nil) ((givenBack_freeSound sound held).of_pool pool) room X
  rw [shortfall, fifo] at searches
  refine ⟨searches, fun mask le => ?_⟩
  have out := outside_releaseHeld i s
  have own : (releaseHeld i s).me = s.me := by rw [State.me, State.outside_profile out]; rfl
  have told := State.mem_notify (s := releaseHeld i s) (kind := 1) (fs := [(7, s.slotOf i)])
    (by rw [State.outside_profile out]; exact mask) (by omega)
  rw [packLeft_slot, own, State.outside_frame out, hu] at told
  exact ((State.OnlyNotices.refl u).searchAgain i).queue_stays told (show (3 : Nat) ≠ 9 by decide) (show (3 : Nat) ≠ 13 by decide)

end PathChange

end Sys2Proof.Machine

namespace Sys2Proof.Machine

open Sys2Proof

/-! ## Searches that end level-only (R85, R88) -/

section LevelOnly

variable {s v : State} {i k : Nat} {r : SearchRecord}

/-- The station as a search with nothing retained ends, before its blocks are given back (R85). -/
def State.levelled (s : State) (i : Nat) : State :=
  (((s.modSearch i fun r => { r with want := 0 }).leaveShortfall i).modSearch i fun r => { r with map := [], spare := [] }).toTrack i

theorem searchEndTask_levelled (hr : (s.ctx i).search = some r) (hn : r.retained = []) :
    searchEndTask i s = (s.levelled i, r.heldBlocks.map .release ++ [.finishSearch i]) := by
  rw [searchEndTask, hr]
  simp only [if_pos hn]
  rfl

theorem perform_searchEnd_levelled (hr : (s.ctx i).search = some r) (hn : r.retained = []) :
    perform [.searchEnd i] s = runTasks 4095 (r.heldBlocks.map .release ++ [.finishSearch i]) (s.levelled i) := by
  rw [perform, runTasks, doTask, searchEndTask_levelled hr hn, List.append_nil]

@[simp] theorem outside_levelled (s : State) (i : Nat) : (s.levelled i).outside = s.outside := by simp [State.levelled]

/-- The record of a search that has ended level-only. -/
def SearchRecord.levelled (r : SearchRecord) : SearchRecord := { r with want := 0, map := [], spare := [] }

theorem levelled_ctx (hi : i < s.table.contexts.length) (hr : (s.ctx i).search = some r) :
    ((s.levelled i).ctx i).unoffered = ({ s.ctx i with callState := .track, search := some r.levelled } : Context).unoffered := by
  have wanted : (s.modSearch i fun r => { r with want := 0 }).ctx i = (s.ctx i).searching { r with want := 0 } := by
    rw [State.ctx_modSearch_self _ _ _ hi, hr]
    rfl
  have left := State.unoffered_leaveShortfall (s.modSearch i fun r => { r with want := 0 }) i i
  rw [wanted] at left
  have len : i < ((s.modSearch i fun r => { r with want := 0 }).leaveShortfall i).table.contexts.length := by
    rw [State.outside_contexts (s := s) (by simp)]
    exact hi
  rw [State.levelled, State.toTrack]
  generalize (s.modSearch i fun r => { r with want := 0 }).leaveShortfall i = u at left len
  rw [State.ctx_modCtx_self _ _ _ (by simpa using len), State.ctx_modSearch_self _ _ _ len]
  refine (Context.unoffered_congr left (fun c => { c with callState := .track, search := c.search.map fun r => { r with map := [], spare := [] } })
    fun _ => rfl).trans rfl

theorem levelled_pool (s : State) (i : Nat) : (s.levelled i).pool = { s.pool with shortfall := s.pool.shortfall.erase i } := by
  have left : ((s.modSearch i fun r => { r with want := 0 }).leaveShortfall i).pool = { s.pool with shortfall := s.pool.shortfall.erase i } :=
    State.leaveShortfall_pool _ i
  exact left

theorem levelled_queue_le (s : State) (i : Nat) : (s.levelled i).lane.queue.length ≤ s.lane.queue.length := by
  have left : ∀ u : State, (u.leaveShortfall i).lane.queue.length ≤ u.lane.queue.length := fun u => by
    unfold State.leaveShortfall State.cancelOffer
    dsimp only
    split
    · split
      · exact State.recall_queue_le _ _
      · exact Nat.le_refl _
    · exact Nat.le_refl _
  exact left (s.modSearch i fun r => { r with want := 0 })

/-- The last step of a search end whose plan misses nothing (R88). -/
def State.finished (s : State) (i : Nat) (size first : Nat) : State :=
  ((s.modSearch i fun r => { r with dwell := 0 }).modServing i fun sv => { sv with pathRun := 0 }).notify 2
    [(7, s.slotOf i), (5, size), (4, first)]

theorem slotOf_modCtx {f : Context → Context} (hf : ∀ c, (f c).slot = c.slot) : (s.modCtx i f).slotOf k = s.slotOf k := by
  have same : ((s.modCtx i f).ctx k).slot = (s.ctx k).slot := State.ctx_modCtx_proj Context.slot s i k f hf
  rw [State.slotOf, same, State.slotOf]

theorem finishSearchTask_levelled (hi : i < s.table.contexts.length) (hr : (s.ctx i).search = some r) (want : r.want = 0) (map : r.map = []) :
    finishSearchTask i s = (s.finished i 0 0, []) := by
  have short : s.shortOf i = 0 := by
    rw [State.shortOf, hr]
    simp [want]
  have full : requestForPlan i s = s := if_pos (.inl short)
  have slot : ((s.modSearch i fun r => { r with dwell := 0 }).modServing i fun sv => { sv with pathRun := 0 }).slotOf i = s.slotOf i := by
    rw [State.modServing, slotOf_modCtx, State.modSearch, slotOf_modCtx] <;> exact fun _ => rfl
  have search : (((s.modSearch i fun r => { r with dwell := 0 }).modServing i fun sv => { sv with pathRun := 0 }).ctx i).search =
      some { r with dwell := 0 } := by
    rw [State.ctx_modServing_self _ _ _ (by simpa using hi), State.ctx_modSearch_self _ _ _ hi, hr]
    rfl
  rw [finishSearchTask, full]
  simp only [search, slot, Option.elim_some, map]
  rfl

/-- The context after that step. -/
theorem finished_ctx (hi : i < s.table.contexts.length) (hr : (s.ctx i).search = some r) (size first : Nat) :
    (s.finished i size first).ctx i = { s.ctx i with search := some { r with dwell := 0 }
                                                     serving := (s.ctx i).serving.map fun sv => { sv with pathRun := 0 } } := by
  rw [State.finished, State.notify_ctx, State.ctx_modServing_self _ _ _ (by simpa using hi), State.ctx_modSearch_self _ _ _ hi, hr]
  rfl

/-- The context of a level-only end. -/
def Context.levelOnly (c : Context) (r : SearchRecord) : Context :=
  { c with callState := .track, search := some { r.levelled with dwell := 0 }
           serving := c.serving.map fun sv => { sv with pathRun := 0 } }

theorem levelled_lt (hi : i < s.table.contexts.length) : i < (s.levelled i).table.contexts.length := by
  rw [State.outside_contexts (outside_levelled s i)]
  exact hi

/-- A search without blocks ends level-only in any state (R85, R88). -/
theorem searchEnd_levelOnly (hi : i < s.table.contexts.length) (hr : (s.ctx i).search = some r) (hn : r.retained = [])
    (empty : r.heldBlocks = []) : perform [.searchEnd i] s = (s.levelled i).finished i 0 0
      ∧ ((perform [.searchEnd i] s).ctx i).unoffered = ((s.ctx i).levelOnly r).unoffered := by
  have self := levelled_ctx hi hr
  have search := Context.unoffered_search self
  have ended := perform_searchEnd_levelled hr hn
  rw [empty, List.map_nil, List.nil_append, runTasks, doTask, finishSearchTask_levelled (levelled_lt hi) search rfl rfl,
    List.append_nil, runTasks_nil] at ended
  refine ⟨ended, ?_⟩
  rw [ended, finished_ctx (levelled_lt hi) search]
  exact Context.unoffered_congr self
    (fun c => { c with search := some { r.levelled with dwell := 0 }, serving := c.serving.map fun sv => { sv with pathRun := 0 } })
    fun _ => rfl

/-- While no other context waits, the unmarked blocks of the search join the FIFO tail (R103). -/
theorem searchEnd_gives (hi : i < s.table.contexts.length) (hr : (s.ctx i).search = some r) (hn : r.retained = [])
    (alone : s.pool.shortfall.erase i = []) (unmarked : ∀ b ∈ r.heldBlocks, (s.tapBlock b).retirePending = false)
    (few : r.heldBlocks.length ≤ 4000) :
    perform [.searchEnd i] s = ((s.levelled i).freeAll r.heldBlocks).finished i 0 0
      ∧ ((perform [.searchEnd i] s).ctx i).unoffered = ((s.ctx i).levelOnly r).unoffered := by
  have self := levelled_ctx hi hr
  have shortfall : (s.levelled i).pool.shortfall = [] := by
    rw [levelled_pool]
    exact alone
  have read : ∀ b, (s.levelled i).tapBlock b = s.tapBlock b := fun b => by rw [State.tapBlock, levelled_pool, State.tapBlock]
  have released := runTasks_release (bs := r.heldBlocks) (s := s.levelled i) (4095 - r.heldBlocks.length) [.finishSearch i] shortfall
    fun b hb => by rw [read]; exact unmarked b hb
  rw [Nat.add_sub_of_le (by omega), ← perform_searchEnd_levelled hr hn] at released
  have freed : ((s.levelled i).freeAll r.heldBlocks).ctx i = (s.levelled i).ctx i := State.freeAll_ctx _ _ _
  have len : i < ((s.levelled i).freeAll r.heldBlocks).table.contexts.length := by
    rw [State.freeAll_table]
    exact levelled_lt hi
  have search : (((s.levelled i).freeAll r.heldBlocks).ctx i).search = some r.levelled := by
    rw [freed]
    exact Context.unoffered_search self
  have fuel : 4095 - r.heldBlocks.length = (4094 - r.heldBlocks.length) + 1 := by omega
  rw [fuel, runTasks, doTask, finishSearchTask_levelled len search rfl rfl, List.append_nil, runTasks_nil] at released
  refine ⟨released, ?_⟩
  rw [released, finished_ctx len search, freed]
  exact Context.unoffered_congr self
    (fun c => { c with search := some { r.levelled with dwell := 0 }, serving := c.serving.map fun sv => { sv with pathRun := 0 } })
    fun _ => rfl

theorem packLeft_searchDone (slot size first : Nat) :
    packLeft 16 [(7, slot), (5, size), (4, first)] = slot % 128 * 512 + size % 32 * 16 + first % 16 := by
  simp only [packLeft, packed, widthOf, List.foldl]
  omega

theorem packLeft_levelOnly (slot : Nat) : packLeft 16 [(7, slot), (5, 0), (4, 0)] = slot % 128 * 512 := by
  rw [packLeft_searchDone]
  omega

/-- A level-only end as R85 and R88 say, its blocks given back behind the FREE ones. -/
theorem levelOnly_of_searchEnd {F H : List Nat} (hi : i < v.table.contexts.length) (hr : (v.ctx i).search = some r) (hn : r.retained = [])
    (alone : v.pool.shortfall.erase i = []) (unmarked : ∀ b ∈ r.heldBlocks, (v.tapBlock b).retirePending = false)
    (few : r.heldBlocks.length ≤ 4000) (outside : v.outside = s.outside) (slot : v.slotOf i = s.slotOf i)
    (fifo : v.pool.fifo = s.pool.fifo ++ F) (blocks : H = F ++ r.heldBlocks) (queue : v.lane.queue.length ≤ s.lane.queue.length) :
    s.levelOnly i H (perform [.searchEnd i] v) := by
  obtain ⟨ended, self⟩ := searchEnd_gives hi hr hn alone unmarked few
  have pool : (perform [.searchEnd i] v).pool = ((v.levelled i).freeAll r.heldBlocks).pool := by
    rw [ended, State.finished, State.notify_pool]
    rfl
  refine ⟨Context.unoffered_callState self, ⟨_, Context.unoffered_search self, rfl, rfl, rfl, hn, rfl⟩, ?_, ?_, fun mask room => ?_⟩
  · rw [pool, State.freeAll_fifo, levelled_pool, blocks, ← List.append_assoc, ← fifo]
  · rw [pool, State.freeAll_shortfall, levelled_pool]
    exact alone
  · have slot' : ((v.levelled i).freeAll r.heldBlocks).slotOf i = s.slotOf i := by
      rw [State.slotOf, State.freeAll_ctx, Context.unoffered_slot (levelled_ctx hi hr)]
      exact slot
    have out := (outside_levelled v i).trans outside
    have told := State.mem_notify (s := (((v.levelled i).freeAll r.heldBlocks).modSearch i fun r => { r with dwell := 0 }).modServing i
        fun sv => { sv with pathRun := 0 }) (kind := 2) (fs := [(7, ((v.levelled i).freeAll r.heldBlocks).slotOf i), (5, 0), (4, 0)])
      (by rw [State.modServing_profile, State.modSearch_profile, State.freeAll_profile, State.outside_profile out]; exact mask)
      (by
        rw [State.modServing_lane, State.modSearch_lane, State.freeAll_lane]
        have := levelled_queue_le v i
        omega)
    rw [State.me, State.modServing_profile, State.modSearch_profile, State.freeAll_profile, State.outside_profile out,
      State.modServing_frame, State.modSearch_frame, State.freeAll_frame, State.outside_frame out, packLeft_levelOnly, slot'] at told
    rw [ended, State.finished, slot']
    exact told

end LevelOnly

end Sys2Proof.Machine

namespace Sys2Proof.Machine

open Sys2Proof

/-! ## The release from DISABLED and the block ends of the other call states (R54, R126, R133, R135) -/

section Disabled

variable {s : State} {i k : Nat} {sv : Serving}

/-- Serving parts as the release from DISABLED leaves them before the new search (R126, R134). -/
def Serving.released (p : Profile) (sv : Serving) : Serving :=
  { sv.untoned with receive := sv.receive.released p.receiveG, send := sv.send.released p.sendG }

/-- The station as the release from DISABLED begins its new search. -/
def State.undisabled (s : State) (i : Nat) : State :=
  (releaseToneHold i s).modServing i fun sv =>
    { sv with receive := sv.receive.released (s.profileOf i).receiveG, send := sv.send.released (s.profileOf i).sendG }

theorem releaseDisabled_eq (i : Nat) (s : State) : releaseDisabled i s = searchAgain i (s.undisabled i) := rfl

theorem undisabled_ctx (hsv : (s.ctx i).serving = some sv) :
    (s.undisabled i).ctx i = { s.ctx i with toneHold := false, serving := some (sv.released (s.profileOf i)) } := by
  have released := releaseToneHold_ctx (u := s) (State.lt_of_serving hsv)
  have parts : ((releaseToneHold i s).ctx i).serving = some sv.untoned := by
    rw [released, Context.untold, hsv]
    rfl
  rw [State.undisabled, State.ctx_modServing_some parts, released]
  rfl

theorem undisabled_ctx_ne (hk : k ≠ i) : (s.undisabled i).ctx k = s.ctx k := by
  rw [State.undisabled, State.ctx_modServing_ne _ _ _ _ hk.symm, releaseToneHold_ctx_ne hk]

@[simp] theorem outside_undisabled (s : State) (i : Nat) : (s.undisabled i).outside = s.outside := by simp [State.undisabled]

/-- In a sound pool a context outside SEARCH and TRACK neither searches nor waits (R25, R91). -/
theorem passive_out (sound : s.poolSound) (hp : (s.ctx i).callState.processes = false) :
    i ∉ s.pool.shortfall ∧ (s.ctx i).search = none := by
  obtain ⟨-, -, -, -, -, -, -, -, -, takes, -, -, searches, -⟩ := sound
  refine ⟨fun hm => ?_, ?_⟩
  · rcases takes i hm with n | n <;> rw [n.1] at hp <;> cases hp
  · cases hr : (s.ctx i).search with
    | none => rfl
    | some r =>
      have := (searches i (by rw [hr]; rfl)).2.1
      rw [hp] at this
      cases this

/-- With a budget of 0 a search again is the end of a new search (R85). -/
theorem searchAgain_of_zero (hB : (s.profileOf i).budget = 0) : searchAgain i s = perform [.searchEnd i] (s.searchingAgain i) := by
  unfold searchAgain
  dsimp only
  have budget : ((s.searchingAgain i).profileOf i).budget = 0 := by
    rw [searchingAgain_profileOf]
    exact hB
  exact if_pos budget

/-- A search again with a budget of 0 ends level-only at once (R85, R88). -/
theorem searchAgain_levelled (hi : i < s.table.contexts.length) (hB : (s.profileOf i).budget = 0) :
    ((searchAgain i s).ctx i).unoffered = ((s.ctx i).searchingAgain (newSearch 0)).unoffered.levelOnly (newSearch 0) := by
  have self := searchingAgain_ctx (s := s) hi
  rw [hB] at self
  have ended := (searchEnd_levelOnly (s := s.searchingAgain i) (by rw [State.outside_contexts (s := s) (by simp)]; exact hi)
    (by rw [self]; rfl) rfl rfl).2
  rw [searchAgain_of_zero hB, ended, self]
  rfl

theorem levelOnly_unoffered (c : Context) (r : SearchRecord) : (c.unoffered).levelOnly r = (c.levelOnly r).unoffered := rfl

/-- A block end in DISABLED (R54, R133). -/
theorem blockEnded_of_disabled (hsv : (s.ctx i).serving = some sv) (hc : (s.ctx i).callState = .disabled) :
    blockEnded i s = (disabledBlockEnd i s).modServing i Serving.nextBlock := by
  unfold blockEnded
  rw [hsv, hc]
  rfl

end Disabled

end Sys2Proof.Machine

namespace Sys2Proof.Machine

open Sys2Proof

/-! ## The pool's acts and what they never read of the serving parts

A change `g` of one context's serving parts that keeps the profile number and leaves the path-change run count to its writers may
be made before or after the acts of the pool and of the searches. -/

section Commute

/-- Changes of contexts that commute context by context commute. -/
theorem State.modCtx_comm {F f : Context → Context} (h : ∀ c, f (F c) = F (f c)) (s : State) (i k : Nat) :
    (s.modCtx i F).modCtx k f = (s.modCtx k f).modCtx i F := by
  have written : ∀ (s : State) (i k : Nat) (F f : Context → Context), (s.modCtx i F).modCtx k f = { s with table := { s.table with
      contexts := (s.table.contexts.set i (F (s.ctx i))).set k (f ((s.modCtx i F).ctx k)) } } := fun _ _ _ _ _ => rfl
  rw [written, written]
  by_cases hk : i = k
  · subst hk
    by_cases hi : i < s.table.contexts.length
    · rw [State.ctx_modCtx_self _ _ _ hi, State.ctx_modCtx_self _ _ _ hi, List.set_set, List.set_set, h]
    · rw [List.set_eq_of_length_le (Nat.not_lt.1 hi), List.set_eq_of_length_le (Nat.not_lt.1 hi),
        List.set_eq_of_length_le (Nat.not_lt.1 hi), List.set_eq_of_length_le (Nat.not_lt.1 hi)]
  · rw [State.ctx_modCtx_ne _ _ _ _ hk, State.ctx_modCtx_ne _ _ _ _ (Ne.symm hk), List.set_comm _ _ hk]

/-- A change of serving parts that the pool's acts neither read nor write. -/
structure Apart (g : Serving → Serving) : Prop where
  profile : ∀ sv, (g sv).profile = sv.profile
  pathRun : ∀ sv, g { sv with pathRun := 0 } = { g sv with pathRun := 0 }

variable {g : Serving → Serving} (s : State) (i k : Nat)

/-- Reading anything but the serving parts. -/
theorem State.apart_read {α : Type} (p : Context → α) (hp : ∀ c o, p { c with serving := o } = p c) (g : Serving → Serving) :
    p ((s.modServing i g).ctx k) = p (s.ctx k) := State.ctx_modCtx_proj p s i k _ fun c => hp c _

@[simp] theorem apart_callState : ((s.modServing i g).ctx k).callState = (s.ctx k).callState := s.apart_read i k (·.callState) (fun _ _ => rfl) g
@[simp] theorem apart_search : ((s.modServing i g).ctx k).search = (s.ctx k).search := s.apart_read i k (·.search) (fun _ _ => rfl) g
@[simp] theorem apart_role : ((s.modServing i g).ctx k).role = (s.ctx k).role := s.apart_read i k (·.role) (fun _ _ => rfl) g
@[simp] theorem apart_stopAt : ((s.modServing i g).ctx k).stopAt = (s.ctx k).stopAt := s.apart_read i k (·.stopAt) (fun _ _ => rfl) g
@[simp] theorem apart_slotOf : (s.modServing i g).slotOf k = s.slotOf k := s.apart_read i k (·.slot.getD 0) (fun _ _ => rfl) g
@[simp] theorem apart_shortOf : (s.modServing i g).shortOf k = s.shortOf k :=
  s.apart_read i k (·.search.elim 0 fun r => r.want - r.held) (fun _ _ => rfl) g

theorem apart_profileOf (hg : Apart g) : (s.modServing i g).profileOf k = s.profileOf k :=
  profileOf_modCtx fun c => by
    rw [Option.map_map]
    exact congrArg (fun f => c.serving.map f) (funext hg.profile)

/-! ### The updates -/

theorem apart_modCtx {f : Context → Context}
    (hf : ∀ c : Context, f { c with serving := c.serving.map g } = { f c with serving := (f c).serving.map g }) :
    (s.modServing i g).modCtx k f = (s.modCtx k f).modServing i g := State.modCtx_comm hf s i k

@[simp] theorem apart_modBlock (b : Nat) (f : TapBlock → TapBlock) : (s.modServing i g).modBlock b f = (s.modBlock b f).modServing i g := rfl

@[simp] theorem apart_modSearch (f : SearchRecord → SearchRecord) : (s.modServing i g).modSearch k f = (s.modSearch k f).modServing i g := by
  unfold State.modSearch
  exact apart_modCtx s i k fun _ => rfl

@[simp] theorem apart_toTrack : (s.modServing i g).toTrack k = (s.toTrack k).modServing i g := by
  unfold State.toTrack
  exact apart_modCtx s i k fun _ => rfl

@[simp] theorem apart_notify (kind : Nat) (fs : List Field) : (s.modServing i g).notify kind fs = (s.notify kind fs).modServing i g := by
  unfold State.notify
  rw [State.modServing_profile]
  split <;> rfl

@[simp] theorem apart_recall (p : Entry → Bool) : (s.modServing i g).recall p = (s.recall p).modServing i g := by
  unfold State.recall
  rw [State.modServing_lane]
  split <;> rfl

theorem apart_setPool (p : Pool) : ({ s.modServing i g with pool := p } : State) = State.modServing { s with pool := p } i g := rfl

@[simp] theorem apart_reserveBlock (b : Nat) : (s.modServing i g).reserveBlock k b = (s.reserveBlock k b).modServing i g := by
  rw [State.reserveBlock, apart_slotOf, apart_modBlock]
  rfl

@[simp] theorem apart_bindBlock (j b : Nat) : (s.modServing i g).bindBlock k j b = (s.bindBlock k j b).modServing i g := by
  rw [State.bindBlock, apart_slotOf, apart_modBlock]
  rfl

@[simp] theorem apart_freeBlock (b : Nat) : (s.modServing i g).freeBlock b = (s.freeBlock b).modServing i g := rfl
@[simp] theorem apart_failBlock (b n : Nat) : (s.modServing i g).failBlock b n = (s.failBlock b n).modServing i g := rfl

@[simp] theorem apart_noticeRetired (b n : Nat) : (s.modServing i g).noticeRetired b n = (s.noticeRetired b n).modServing i g := by
  simp [State.noticeRetired]

@[simp] theorem apart_takeBlocks (n : Nat) : ((s.modServing i g).takeBlocks n).2 = (s.takeBlocks n).2.modServing i g := rfl

theorem apart_foldl {α : Type} (f : State → α → State) (hf : ∀ s a, f (s.modServing i g) a = (f s a).modServing i g) (l : List α)
    (s : State) : l.foldl f (s.modServing i g) = (l.foldl f s).modServing i g := by
  induction l generalizing s with
  | nil => rfl
  | cons a l ih => rw [List.foldl_cons, hf, ih, List.foldl_cons]

@[simp] theorem apart_cancelOffer : (s.modServing i g).cancelOffer k = (s.cancelOffer k).modServing i g := by
  unfold State.cancelOffer
  simp only [apart_role, apart_stopAt, apart_slotOf, apart_recall]
  split
  · exact apart_modCtx _ i k fun _ => rfl
  · rfl

@[simp] theorem apart_leaveShortfall : (s.modServing i g).leaveShortfall k = (s.leaveShortfall k).modServing i g := by
  unfold State.leaveShortfall
  rw [State.modServing_pool, apart_setPool, apart_cancelOffer]
  split <;> rfl

@[simp] theorem apart_leaveIfMet : (s.modServing i g).leaveIfMet k = (s.leaveIfMet k).modServing i g := by
  unfold State.leaveIfMet
  rw [apart_shortOf, apart_leaveShortfall]
  split <;> rfl

@[simp] theorem apart_joinShortfall : (s.modServing i g).joinShortfall k = (s.joinShortfall k).modServing i g := by
  unfold State.joinShortfall
  rw [apart_shortOf, apart_slotOf, State.modServing_pool, apart_setPool, apart_notify]
  split <;> rfl

/-! ### Tasks -/

/-- An answer of a task with the serving parts changed. -/
def apart (i : Nat) (g : Serving → Serving) (r : State × List Task) : State × List Task := (r.1.modServing i g, r.2)

theorem apart_placeBlock (b : Nat) : placeBlock b (s.modServing i g) = apart i g (placeBlock b s) := by
  unfold placeBlock
  rw [State.modServing_pool]
  split
  · rfl
  · simp only [apart_callState, apart_search, apart_reserveBlock, apart_modSearch, apart_bindBlock, apart_leaveIfMet, apart_freeBlock]
    split
    · rfl
    · split <;> rfl
    · rfl

theorem apart_promoteTask : promoteTask (s.modServing i g) = apart i g (promoteTask s) := by
  unfold promoteTask
  rw [State.modServing_pool]
  split
  · rfl
  · rw [show (s.modServing i g).countBlocks .failed = s.countBlocks .failed from rfl, apart_notify, ← apart_placeBlock]
    split <;> rfl

theorem apart_releaseTask (b : Nat) : releaseTask b (s.modServing i g) = apart i g (releaseTask b s) := by
  unfold releaseTask
  rw [State.modServing_tapBlock, apart_failBlock, apart_noticeRetired, apart_promoteTask, apart_placeBlock]
  split <;> rfl

theorem apart_bindAll (l : List (Nat × Nat)) : l.foldl (fun s jb => s.bindBlock k jb.1 jb.2) (s.modServing i g) =
    (l.foldl (fun s jb => s.bindBlock k jb.1 jb.2) s).modServing i g :=
  apart_foldl i (fun s (jb : Nat × Nat) => s.bindBlock k jb.1 jb.2) (fun s jb => apart_bindBlock s i k jb.1 jb.2) l s

theorem apart_passStartTask (hg : Apart g) : passStartTask k (s.modServing i g) = apart i g (passStartTask k s) := by
  unfold passStartTask State.reachOf
  simp only [apart_callState, apart_search, apart_profileOf s i k hg, apart_bindAll, apart_modSearch, apart_leaveShortfall]
  split
  · split
    · rfl
    · split <;> rfl
  · rfl

theorem apart_fillMap (map : List Segment) (bs : List Nat) : (s.modServing i g).fillMap k map bs =
    ((s.fillMap k map bs).1.modServing i g, (s.fillMap k map bs).2) := by
  unfold State.fillMap
  simp only [apart_bindAll, apart_modSearch]

theorem apart_searchEndTask (hg : Apart g) : searchEndTask k (s.modServing i g) = apart i g (searchEndTask k s) := by
  unfold searchEndTask State.reachOf
  simp only [apart_search, apart_profileOf s i k hg, apart_modSearch, apart_leaveShortfall, apart_toTrack, apart_fillMap]
  split
  · rfl
  · split
    · rfl
    · split
      · rw [apart_toTrack]
        rfl
      · rw [apart_toTrack]
        rfl

theorem apart_requestForPlan : requestForPlan k (s.modServing i g) = (requestForPlan k s).modServing i g := by
  unfold requestForPlan
  simp only [apart_shortOf, apart_search, State.modServing_pool, apart_joinShortfall, apart_takeBlocks, apart_fillMap]
  split
  · rfl
  · split
    · rfl
    · simp only [State.takeBlocks, State.free, State.modServing_pool]
      exact (apply_ite (fun u : State => u.modServing i g) _ _ _).symm

theorem apart_finishSearchTask (hg : Apart g) : finishSearchTask k (s.modServing i g) = apart i g (finishSearchTask k s) := by
  have rest : ∀ u : State, (u.modServing i g).modServing k (fun sv => { sv with pathRun := 0 }) =
      (u.modServing k fun sv => { sv with pathRun := 0 }).modServing i g := fun u => State.modCtx_comm (fun c => by
    simp only [Option.map_map]
    exact congrArg (fun f => ({ c with serving := c.serving.map f } : Context)) (funext fun sv => (hg.pathRun sv).symm)) u i k
  unfold finishSearchTask
  simp only [apart_requestForPlan, apart_modSearch, rest, apart_search, apart_slotOf, apart_notify]
  rfl

/-- A task may be taken before or after such a change. -/
theorem apart_doTask (hg : Apart g) (t : Task) : doTask t (s.modServing i g) = apart i g (doTask t s) := by
  cases t with
  | release b => exact apart_releaseTask s i b
  | promote => exact apart_promoteTask s i
  | passStart k => exact apart_passStartTask s i k hg
  | checkMet k => exact congrArg (fun u => (u, [])) (apart_leaveIfMet s i k)
  | searchEnd k => exact apart_searchEndTask s i k hg
  | finishSearch k => exact apart_finishSearchTask s i k hg

theorem apart_perform (hg : Apart g) (ts : List Task) : perform ts (s.modServing i g) = (perform ts s).modServing i g := by
  unfold perform
  generalize 4096 = fuel
  induction fuel generalizing ts s with
  | zero => rfl
  | succ n ih =>
    cases ts with
    | nil => rfl
    | cons t ts =>
      rw [runTasks, apart_doTask s i hg, runTasks]
      exact ih (doTask t s).1 ((doTask t s).2 ++ ts)

theorem apart_reserveAll (l : List Nat) : l.foldl (fun s b => s.reserveBlock k b) (s.modServing i g) =
    (l.foldl (fun s b => s.reserveBlock k b) s).modServing i g :=
  apart_foldl i (fun s b => s.reserveBlock k b) (fun s b => apart_reserveBlock s i k b) l s

theorem apart_requestToSpare : requestToSpare k (s.modServing i g) = ((requestToSpare k s).1.modServing i g, (requestToSpare k s).2) := by
  unfold requestToSpare
  simp only [apart_shortOf, State.modServing_pool, apart_joinShortfall]
  split
  · rfl
  · split
    · rfl
    · simp only [State.takeBlocks, State.free, State.modServing_pool, apart_setPool, apart_reserveAll, apart_modSearch,
        apart_joinShortfall]
      exact congrArg (fun u => (u, _)) (apply_ite (fun u : State => u.modServing i g) _ _ _).symm

theorem apart_beginSearch (hg : Apart g) : beginSearch k (s.modServing i g) = (beginSearch k s).modServing i g := by
  unfold beginSearch
  rw [apart_requestToSpare]
  dsimp only
  rw [apart_perform _ i hg]
  split <;> rfl

/-- A search again of the same context (R90). -/
theorem apart_searchAgain (hg : Apart g) (restart : ∀ sv, g (restartFilter sv) = restartFilter (g sv)) :
    searchAgain i (s.modServing i g) = (searchAgain i s).modServing i g := by
  have again : (s.modServing i g).searchingAgain i = (s.searchingAgain i).modServing i g := by
    have restarted : (s.modServing i g).modServing i restartFilter = (s.modServing i restartFilter).modServing i g :=
      State.modCtx_comm (fun c => by
        simp only [Option.map_map]
        exact congrArg (fun f => ({ c with serving := c.serving.map f } : Context)) (funext fun sv => (restart sv).symm)) s i i
    rw [State.searchingAgain, restarted, apart_profileOf _ i i hg]
    exact apart_modCtx _ i i fun _ => rfl
  have profile := apart_profileOf s i i hg
  rcases Nat.eq_zero_or_pos (s.profileOf i).budget with hB | hB
  · rw [searchAgain_of_zero hB, searchAgain_of_zero (by rw [profile]; exact hB), again, apart_perform _ i hg]
  · rw [searchAgain_of_budget hB, searchAgain_of_budget (by rw [profile]; exact hB), again, apart_beginSearch _ i i hg]

end Commute

end Sys2Proof.Machine

namespace Sys2Proof.Machine

open Sys2Proof

section Release

variable {s : State} {i k : Nat} {sv : Serving}

theorem nextBlock_apart : Apart Serving.nextBlock := ⟨fun _ => rfl, fun _ => rfl⟩

/-- The next block may begin before or after a release from DISABLED. -/
theorem releaseDisabled_nextBlock (s : State) (i : Nat) :
    releaseDisabled i (s.modServing i Serving.nextBlock) = (releaseDisabled i s).modServing i Serving.nextBlock := by
  have serving : ∀ (u : State) (f : Serving → Serving), (∀ sv, f sv.nextBlock = (f sv).nextBlock) →
      (u.modServing i Serving.nextBlock).modServing i f = (u.modServing i f).modServing i Serving.nextBlock := fun u f hf =>
    State.modCtx_comm (fun c => by
      simp only [Option.map_map]
      exact congrArg (fun f => ({ c with serving := c.serving.map f } : Context)) (funext hf)) u i i
  have released : (s.modServing i Serving.nextBlock).undisabled i = (s.undisabled i).modServing i Serving.nextBlock := by
    have hold : (s.modServing i Serving.nextBlock).modCtx i (fun c => { c with toneHold := false }) =
        (s.modCtx i fun c => { c with toneHold := false }).modServing i Serving.nextBlock := apart_modCtx s i i fun _ => rfl
    have toned := serving (s.modCtx i fun c => { c with toneHold := false }) Serving.untoned fun _ => rfl
    rw [State.undisabled, apart_profileOf s i i nextBlock_apart, releaseToneHold, clearTone, hold]
    exact (congrArg (fun u : State => u.modServing i _) toned).trans (serving _ _ fun _ => rfl)
  rw [releaseDisabled_eq, releaseDisabled_eq, released]
  exact apart_searchAgain _ i nextBlock_apart fun _ => rfl

/-- The release from DISABLED: tone state cleared, gains at their initial values, and a new search (R126, R135). -/
theorem releaseDisabled_ctx (hsv : (s.ctx i).serving = some sv) (reach : 0 < (s.profileOf i).reach) :
    ∃ r, ((releaseDisabled i s).ctx i).unoffered = ({ s.ctx i with
        toneHold := false, callState := if (s.profileOf i).budget = 0 then .track else .search, search := some r
        serving := some (restartFilter (sv.released (s.profileOf i))) } : Context).unoffered
      ∧ r.Begun (s.profileOf i).budget (s.profileOf i).reach := by
  have self := undisabled_ctx hsv
  have len : i < (s.undisabled i).table.contexts.length := by
    rw [State.outside_contexts (outside_undisabled s i)]
    exact State.lt_of_serving hsv
  have profile : (s.undisabled i).profileOf i = s.profileOf i :=
    State.profileOf_congr (State.outside_profile (outside_undisabled s i)) (by rw [self, hsv]; rfl)
  rw [releaseDisabled_eq]
  by_cases hB : (s.profileOf i).budget = 0
  · have ended := searchAgain_levelled len (profile ▸ hB)
    rw [if_pos hB, ended, self, hB]
    exact ⟨_, rfl, SearchRecord.begun_newSearch 0 _⟩
  · obtain ⟨r, again, record⟩ := searchAgain_ctx len (profile ▸ Nat.pos_of_ne_zero hB) (profile ▸ reach)
    rw [profile] at record
    rw [if_neg hB, again, self]
    exact ⟨r, rfl, record⟩

theorem steady_releaseDisabled_ne (hk : k ≠ i) : ((releaseDisabled i s).ctx k).steady = (s.ctx k).steady := by
  rw [releaseDisabled_eq, steady_searchAgain_ne hk, undisabled_ctx_ne hk]

theorem undisabled_pool (s : State) (i : Nat) : (s.undisabled i).pool = s.pool := rfl
theorem undisabled_lane (s : State) (i : Nat) : (s.undisabled i).lane = s.lane := rfl

/-- The release from DISABLED in a sound pool. -/
theorem releaseDisabled_sound (hsv : (s.ctx i).serving = some sv) (hc : (s.ctx i).callState = .disabled)
    (reach : 0 < (s.profileOf i).reach) (sound : s.poolSound) :
    (0 < (s.profileOf i).budget → ∀ X, s.searchesFrom i s.pool.shortfall s.pool.fifo X (releaseDisabled i s))
      ∧ ((s.profileOf i).budget = 0 → s.pool.shortfall = [] → s.levelOnly i [] (releaseDisabled i s)) := by
  have self := undisabled_ctx hsv
  have out := outside_undisabled s i
  have len : i < (s.undisabled i).table.contexts.length := by
    rw [State.outside_contexts out]
    exact State.lt_of_serving hsv
  have profile : (s.undisabled i).profileOf i = s.profileOf i :=
    State.profileOf_congr (State.outside_profile out) (by rw [self, hsv]; rfl)
  have slot : (s.undisabled i).slotOf i = s.slotOf i := by
    rw [State.slotOf, self]
    rfl
  have pool := undisabled_pool s i
  have lane := undisabled_lane s i
  rw [releaseDisabled_eq]
  refine ⟨fun hB X => ?_, fun hB none => ?_⟩
  · have from_undisabled := searchAgain_searchesFrom (s := s.undisabled i) (t := s) len hB reach profile out slot
      (by rw [pool]; exact (passive_out sound (by rw [hc]; rfl)).1) ((poolSound_freeSound sound).of_pool pool)
      (fun le => by rw [lane]; omega) X
    rw [pool] at from_undisabled
    exact from_undisabled
  · have again := searchingAgain_ctx len
    rw [searchAgain_of_zero (by rw [profile]; exact hB)]
    have start : ((s.undisabled i).searchingAgain i).pool = s.pool := pool
    refine levelOnly_of_searchEnd (s := s) (v := (s.undisabled i).searchingAgain i) (F := []) (H := []) (r := newSearch 0)
      ?_ (by rw [again, profile, hB]; rfl) rfl ?_ (fun b hb => nomatch hb) (Nat.zero_le _) ((outside_searchingAgain _ i).trans out)
      (by rw [State.slotOf, again]; exact slot) (by rw [start, List.append_nil]) rfl (Nat.le_of_eq ?_)
    · have out' := outside_searchingAgain (s.undisabled i) i
      rw [State.outside_contexts out']
      exact len
    · rw [start, none]
      rfl
    · exact congrArg (fun l : Lane => l.queue.length) lane

/-- The tone work of a block end in DISABLED (R129, R133). -/
def Serving.counted (sv : Serving) : Serving :=
  { sv with toneReceive := zeroSums (releaseCount sv.toneReceive), toneSend := zeroSums (releaseCount sv.toneSend) }

theorem disabledBlockEnd_off (h : (s.profileOf i).tone = false) : disabledBlockEnd i s = s := by
  rw [disabledBlockEnd, h]
  rfl

theorem disabledBlockEnd_on (h : (s.profileOf i).tone = true) :
    disabledBlockEnd i s = disabledReleaseIfDue i (s.modServing i Serving.counted) := by
  rw [disabledBlockEnd, h]
  rfl

theorem nextBlock_of_passed {v : Serving} (h : v.block.leadIn = false) : v.nextBlock = { v with phase := 0 } := by
  have block : ({ v.block with leadIn := false } : BlockRecord) = v.block := by rw [← h]
  rw [Serving.nextBlock, block]

/-- Settles O41: the release is a new search behind cleared tone state, and the next block may begin before or after it. -/
theorem disabledReleaseAndPassingBlockEnds : Obligations.DisabledReleaseAndPassingBlockEnds := by
  unfold Obligations.DisabledReleaseAndPassingBlockEnds
  intro s slot i sv h
  have hsv := h.2.2.2
  have hi := h.lt
  refine ⟨fun hc quietR quietS reach => ?_, fun hc lead due => ?_, fun hc due => ?_⟩
  · have ended : exec (.disabledRelease slot) s = .next (releaseDisabled i s) :=
      congrArg Host.Outcome.next ((h.onServed disabledReleaseIfDue).trans
        (whenDue_of_due hsv (by simp [disabledReleaseDue, hc, releaseCondition, quietR, quietS])))
    obtain ⟨r, self, record⟩ := releaseDisabled_ctx hsv reach
    exact ⟨_, restartFilter (sv.released (s.profileOf i)), r, ended, Context.unoffered_serving self, Context.unoffered_search self,
      Context.unoffered_callState self, Context.unoffered_toneHold self, record.retained, record.pass, record.dwell, record.explored,
      record.want, rfl, rfl, rfl, rfl, rfl, rfl, rfl, rfl, rfl, rfl, rfl, rfl, rfl, rfl, rfl, rfl, rfl, rfl, rfl, rfl, rfl,
      outside_releaseDisabled i s, fun k hk => steady_releaseDisabled_ne hk, fun sound => releaseDisabled_sound hsv hc reach sound⟩
  · have ended := exec_blockEnd h due
    rw [blockEnded_of_disabled hsv hc] at ended
    have counted : ((s.modServing i Serving.counted).ctx i) = { s.ctx i with serving := some sv.counted } := State.ctx_modServing_some hsv _
    have begun : (s.modServing i Serving.counted).modServing i Serving.nextBlock =
        s.setCtx i { s.ctx i with serving := some { sv.counted with phase := 0 } } := by
      rw [State.modServing_of_some (congrArg Context.serving counted), counted, nextBlock_of_passed (v := sv.counted) lead,
        State.modServing_of_some hsv, State.setCtx_setCtx]
    refine ⟨fun tone loud => ?_, fun tone quietR quietS => ?_, fun tone => ?_⟩
    · have still : disabledReleaseIfDue i (s.modServing i Serving.counted) = s.modServing i Serving.counted :=
        whenDue_of_not_due (congrArg Context.serving counted) (by
          rw [disabledReleaseDue, Bool.eq_false_iff.2 (mt releaseCondition_iff.1 loud), Bool.and_false])
      rw [disabledBlockEnd_on tone, still, begun] at ended
      exact ended
    · have released : disabledReleaseIfDue i (s.modServing i Serving.counted) = releaseDisabled i (s.modServing i Serving.counted) :=
        whenDue_of_due (congrArg Context.serving counted) (by
          rw [disabledReleaseDue, counted, releaseCondition_iff.2 ⟨quietR, quietS⟩, hc]
          rfl)
      rw [disabledBlockEnd_on tone, released, ← releaseDisabled_nextBlock, begun] at ended
      have self : (s.setCtx i { s.ctx i with serving := some { sv.counted with phase := 0 } }).ctx i =
          { s.ctx i with serving := some { sv.counted with phase := 0 } } := State.ctx_setCtx_self _ _ _ hi
      have serves : (s.setCtx i { s.ctx i with serving := some { sv.counted with phase := 0 } }).servesWith slot.toNat i
          { sv.counted with phase := 0 } := ⟨h.1, h.2.1, by rw [self]; exact h.2.2.1, by rw [self]⟩
      have again : exec (.disabledRelease slot) (s.setCtx i { s.ctx i with serving := some { sv.counted with phase := 0 } }) =
          .next (releaseDisabled i (s.setCtx i { s.ctx i with serving := some { sv.counted with phase := 0 } })) :=
        congrArg Host.Outcome.next ((serves.onServed disabledReleaseIfDue).trans (whenDue_of_due serves.2.2.2 (by
          have condition : releaseCondition { sv.counted with phase := 0 } = true := releaseCondition_iff.2 ⟨quietR, quietS⟩
          rw [disabledReleaseDue, self, condition, hc]
          rfl)))
      exact ended.trans again.symm
    · rw [disabledBlockEnd_off tone, State.modServing_of_some hsv, nextBlock_of_passed lead] at ended
      exact ended
  · have ended := exec_blockEnd h due
    rw [blockEnded_of_idle (by rcases hc with hc | hc <;> rw [hc] <;> decide), State.modServing_of_some hsv] at ended
    exact ended

end Release

end Sys2Proof.Machine

namespace Sys2Proof.Machine

open Sys2Proof

/-! ## Call starts in any state (R26, R27, R81, R82, R101, R158) -/

section CallStart

variable {s : State} {i k B : Nat} {X : List Nat} {sv : Serving}

/-! ### Offers -/

theorem unoffered_offer (c : Context) (o : Option OfferRecord) (h : c.role = .homeServing ∨ c.role = .homeOffering) :
    ({ c with role := .homeOffering, offer := o } : Context).unoffered = c.unoffered := by
  rcases h with h | h <;> simp [Context.unoffered, h]

/-- An offer changes nothing of a context but the offer. -/
theorem unoffered_offerIfShort (i n k : Nat) (s : State) : ((offerIfShort i n s).ctx k).unoffered = (s.ctx k).unoffered := by
  unfold offerIfShort
  split
  · next h =>
    have offering : ((s.modCtx i fun c => { c with role := .homeOffering, offer := some ⟨none, none⟩ }).ctx k).unoffered =
        (s.ctx k).unoffered := by
      rw [State.ctx_modCtx]
      split
      · next hk =>
        obtain ⟨rfl, -⟩ := hk
        exact unoffered_offer _ _ (.inl h.1)
      · rfl
    unfold makeOffer
    dsimp only
    split
    · exact offering
    · rw [State.notify_ctx, ← offering, State.ctx_modCtx]
      split
      · next hk =>
        obtain ⟨rfl, hlt⟩ := hk
        rw [State.outside_contexts (s := s) (by simp)] at hlt
        have self := State.ctx_modCtx_self s i (fun c => { c with role := .homeOffering, offer := some ⟨none, none⟩ }) hlt
        rw [State.enqueue_ctx, self]
        rfl
      · rfl
  · rfl

theorem offerIfShort_pool (i n : Nat) (s : State) : (offerIfShort i n s).pool = s.pool := by
  unfold offerIfShort makeOffer
  dsimp only
  split
  · split
    · rfl
    · rw [State.notify_pool]
      rfl
  · rfl

/-! ### Blocks newly bound read without errors (R106) -/

/-- The blocks that hold wrong bits, with them. -/
def State.wrongs (s : State) (b : Nat) : List (Nat × Nat) := (s.tapBlock b).wrong

theorem wrongs_modBlock {f : TapBlock → TapBlock} (hf : ∀ t, (f t).wrong = t.wrong) (b k : Nat) :
    (s.modBlock b f).wrongs k = s.wrongs k := by
  rw [State.wrongs, State.tapBlock_modBlock]
  split
  · next h => rw [hf, h.1, State.wrongs]
  · rfl

theorem wrongs_notify (kind : Nat) (fs : List Field) (k : Nat) : (s.notify kind fs).wrongs k = s.wrongs k := by
  rw [State.wrongs, State.notify_tapBlock, State.wrongs]

/-- A block released while no context waits changes no wrong bit. -/
theorem releaseTask_wrongs (b k : Nat) (hq : s.pool.shortfall = []) : (releaseTask b s).1.wrongs k = s.wrongs k := by
  have freed : ∀ (u : State) (c : Nat), (u.freeBlock c).wrongs k = u.wrongs k := fun u c => wrongs_modBlock (s := u)
    (f := fun t => { t with state := .free, owner := none, segment := none, lastSegment := none }) (fun _ => rfl) c k
  have placed : ∀ (c : Nat) (u : State), u.pool.shortfall = [] → (placeBlock c u).1.wrongs k = u.wrongs k := fun c u hu => by
    rw [placeBlock, hu]
    exact freed u c
  unfold releaseTask
  split
  · have retired : ((s.failBlock b (s.tapBlock b).corrected).noticeRetired b 2).pool.shortfall = [] := by
      rw [State.noticeRetired, State.notify_pool]
      exact hq
    have failed : ((s.failBlock b (s.tapBlock b).corrected).noticeRetired b 2).wrongs k = s.wrongs k := by
      rw [State.noticeRetired, wrongs_notify, State.failBlock, wrongs_modBlock]
      exact fun _ => rfl
    rw [← failed]
    unfold promoteTask
    split
    · rfl
    · split
      · rw [placed _ _ (by rw [State.notify_pool]; exact retired), wrongs_notify]
      · rw [placed _ _ retired]
  · exact placed b s hq

theorem runTasks_release_wrongs (fuel : Nat) (bs : List Nat) (k : Nat) {s : State} (hq : s.pool.shortfall = []) :
    (runTasks fuel (bs.map .release) s).wrongs k = s.wrongs k := by
  induction fuel generalizing bs s with
  | zero => rfl
  | succ n ih =>
    cases bs with
    | nil => rfl
    | cons b bs =>
      obtain ⟨tasks, shortfall, -⟩ := releaseTask_quiet b hq
      rw [List.map_cons, runTasks, doTask, tasks, List.nil_append, ih bs shortfall, releaseTask_wrongs b k hq]

theorem bindAll_wrongs (pairs : List (Nat × Nat)) : ∀ jb ∈ pairs, (s.bindAll i pairs).wrongs jb.2 = [] := by
  have step : ∀ (u : State) (j b k : Nat), u.wrongs k = [] → (u.bindBlock i j b).wrongs k = [] := fun u j b k h => by
    rw [State.wrongs, State.bindBlock, State.tapBlock_modBlock]
    split
    · rfl
    · exact h
  have keep : ∀ (pairs : List (Nat × Nat)) (u : State) (k : Nat), u.wrongs k = [] → (u.bindAll i pairs).wrongs k = [] := fun pairs => by
    induction pairs with
    | nil => exact fun _ _ h => h
    | cons p pairs ih => exact fun u k h => ih (u.bindBlock i p.1 p.2) k (step u _ _ k h)
  have own : ∀ (u : State) (j b : Nat), (u.bindBlock i j b).wrongs b = [] := fun u j b => by
    rw [State.wrongs, State.bindBlock, State.tapBlock_modBlock]
    split
    · rfl
    · next h =>
      rw [State.tapBlock, List.getD_eq_getElem?_getD, List.getElem?_eq_none (by simpa using h)]
      rfl
  induction pairs generalizing s with
  | nil => exact fun jb h => nomatch h
  | cons p pairs ih =>
    intro jb hjb
    rcases List.mem_cons.1 hjb with rfl | hjb
    · exact keep pairs _ _ (own s _ _)
    · exact ih jb hjb

/-- The blocks of a new search's first pass read without errors. -/
theorem passStart_wrongs (hc : (s.ctx i).callState = .search)
    (hr : (s.ctx i).search = some { newSearch B with spare := X }) (reach : 0 < s.reachOf i) (hq : s.pool.shortfall.erase i = []) :
    ∀ jb ∈ (List.range (s.reachOf i)).zip X, (perform [.passStart i] s).wrongs jb.2 = [] := by
  have unseen : ({ newSearch B with spare := X } : SearchRecord).unexplored (s.reachOf i) = List.range (s.reachOf i) :=
    unexplored_newSearch B _
  have some_unseen : ({ newSearch B with spare := X } : SearchRecord).unexplored (s.reachOf i) ≠ [] := by
    rw [unseen, Ne, List.range_eq_nil]
    omega
  have bound := bindAll_wrongs (s := s) (i := i) ((List.range (s.reachOf i)).zip X)
  intro jb hjb
  by_cases fits : X.length ≤ s.reachOf i
  · have start := perform_passStart_fits hc hr some_unseen (by rw [unseen, List.length_range]; exact fits)
    rw [unseen] at start
    rw [start]
    exact bound jb hjb
  · have task := passStartTask_eq hc hr some_unseen
    rw [unseen, List.length_range] at task
    have left : X.drop (s.reachOf i) ≠ [] := by
      rw [Ne, List.drop_eq_nil_iff]
      omega
    simp only [if_neg left] at task
    rw [perform, runTasks, doTask, task, List.append_nil, runTasks_release_wrongs]
    · rw [State.wrongs, State.leaveShortfall_tapBlock]
      exact bound jb hjb
    · rw [State.leaveShortfall_shortfall]
      simpa using hq

/-! ### The start of a search -/

/-- The state in which a call start makes its request. -/
def State.searchStarting (s : State) (i : Nat) : State :=
  s.modCtx i fun c => { c with callState := .search, search := some (newSearch (s.profileOf i).budget) }

theorem searchStarting_profileOf (s : State) (i : Nat) : (s.searchStarting i).profileOf i = s.profileOf i := by
  rw [State.searchStarting, profileOf_modCtx]
  exact fun _ => rfl

/-- The request of a call start and the offer that may follow it. -/
def State.asked (s : State) (i : Nat) : State := offerIfShort i (requestToSpare i (s.searchStarting i)).2 (requestToSpare i (s.searchStarting i)).1

theorem startSearch_eq (i : Nat) (s : State) : startSearch i s =
    if 0 < (requestToSpare i (s.searchStarting i)).2 then perform [.passStart i] (s.asked i) else s.asked i := rfl

@[simp] theorem outside_asked (s : State) (i : Nat) : (s.asked i).outside = s.outside := by simp [State.asked, State.searchStarting]

/-- A context whose search has started. -/
def Context.searchStarted (c : Context) (r : SearchRecord) : Context := { c with callState := .search, search := some r }

/-- A call start's search in any state: a new search on clean blocks (R77, R82). -/
theorem startSearch_ctx (hi : i < s.table.contexts.length) (reach : 0 < (s.profileOf i).reach) :
    ∃ r, ((startSearch i s).ctx i).unoffered = ((s.ctx i).searchStarted r).unoffered
      ∧ r.Begun (s.profileOf i).budget (s.profileOf i).reach ∧ ∀ jb ∈ r.bound, ((startSearch i s).tapBlock jb.2).wrong = [] := by
  have len : i < (s.searchStarting i).table.contexts.length := by simpa [State.searchStarting] using hi
  have starting : (s.searchStarting i).ctx i = (s.ctx i).searchStarted (newSearch (s.profileOf i).budget) :=
    State.ctx_modCtx_self _ _ _ hi
  obtain ⟨X, self, le, empty, alone⟩ := requestToSpare_newSearch len (congrArg Context.search starting)
  have offered := unoffered_offerIfShort i (requestToSpare i (s.searchStarting i)).2 i (requestToSpare i (s.searchStarting i)).1
  have out := outside_asked s i
  rw [self, starting] at offered
  have asked : ((s.asked i).ctx i).unoffered = ((s.ctx i).searchStarted { newSearch (s.profileOf i).budget with spare := X }).unoffered :=
    offered
  rw [startSearch_eq]
  split
  · next got =>
    have reaches : (s.asked i).reachOf i = (s.profileOf i).reach := by
      rw [State.reachOf, State.profileOf_congr (State.outside_profile out)
        (congrArg (Option.map (·.profile)) (Context.unoffered_serving asked))]
    have alone' : (s.asked i).pool.shortfall.erase i = [] := by
      rw [State.asked, offerIfShort_pool]
      exact alone got
    have state := Context.unoffered_callState asked
    have search := Context.unoffered_search asked
    have reach' : 0 < (s.asked i).reachOf i := by rw [reaches]; exact reach
    have start := perform_passStart_first (by rw [State.outside_contexts out]; exact hi) state search reach' alone'
    have clean := passStart_wrongs state search reach' alone'
    rw [reaches] at start clean
    refine ⟨_, start.trans ?_, SearchRecord.begun_first le, fun jb hjb => clean jb ?_⟩
    · exact Context.unoffered_congr asked (fun c => c.searching _) fun _ => rfl
    · rwa [SearchRecord.first_bound] at hjb
  · next got =>
    rw [empty (by omega)] at asked
    exact ⟨_, asked, SearchRecord.begun_newSearch _ _, fun jb hjb => nomatch hjb⟩

/-! ### The set-up of a call -/

/-- The station with context i set up for a call (R27). -/
def State.callSet (s : State) (i : Nat) : State :=
  (s.modCtx i fun c => { c with toneHold := false }).modServing i
    (callSetUp (s.ctx i).profile (s.profileAt (s.ctx i).profile) (s.slotOf i))

/-- The serving parts of a call's first sample (R27). -/
def State.callParts (s : State) (i : Nat) (sv : Serving) : Serving :=
  callSetUp (s.ctx i).profile (s.profileAt (s.ctx i).profile) (s.slotOf i) sv

theorem callSet_ctx (hsv : (s.ctx i).serving = some sv) :
    (s.callSet i).ctx i = { s.ctx i with toneHold := false, serving := some (s.callParts i sv) } := by
  have hi := State.lt_of_serving hsv
  have held := State.ctx_modCtx_self s i (fun c => { c with toneHold := false }) hi
  rw [State.callSet, State.ctx_modServing_some (sv := sv) (by rw [held]; exact hsv), held]
  rfl

@[simp] theorem outside_callSet (s : State) (i : Nat) : (s.callSet i).outside = s.outside := by simp [State.callSet]

theorem callSet_profileOf (hsv : (s.ctx i).serving = some sv) : (s.callSet i).profileOf i = s.profileAt (s.ctx i).profile := by
  rw [State.profileOf, callSet_ctx hsv]
  rfl

theorem callStart_eq (hsv : (s.ctx i).serving = some sv) : callStart i s =
    if (s.profileAt (s.ctx i).profile).budget = 0 then
      (s.callSet i).modCtx i fun c => { c with callState := .track, search := some (newSearch 0) }
    else startSearch i (s.callSet i) := by
  have profile := callSet_profileOf hsv
  have slot : (s.modCtx i fun c => { c with toneHold := false }).slotOf i = s.slotOf i := by
    rw [slotOf_modCtx]
    exact fun _ => rfl
  have set : (s.modCtx i fun c => { c with toneHold := false }).modServing i (callSetUp (s.ctx i).profile
      ((s.modCtx i fun c => { c with toneHold := false }).profileAt (s.ctx i).profile)
      ((s.modCtx i fun c => { c with toneHold := false }).slotOf i)) = s.callSet i := by
    rw [slot]
    rfl
  rw [callStart]
  simp only [set, profile]

/-- A call start in any state: the profile number in use, the signal state set up, and a new search or none (R26, R27). -/
theorem callStart_ctx (hsv : (s.ctx i).serving = some sv) (reach : 0 < (s.profileAt (s.ctx i).profile).reach) :
    ∃ r, ((callStart i s).ctx i).unoffered = ({ s.ctx i with
        toneHold := false, callState := if (s.profileAt (s.ctx i).profile).budget = 0 then .track else .search
        search := some r, serving := some (s.callParts i sv) } : Context).unoffered
      ∧ r.Begun (s.profileAt (s.ctx i).profile).budget (s.profileAt (s.ctx i).profile).reach
      ∧ ∀ jb ∈ r.bound, ((callStart i s).tapBlock jb.2).wrong = [] := by
  have self := callSet_ctx hsv
  have profile := callSet_profileOf hsv
  have len : i < (s.callSet i).table.contexts.length := by
    rw [State.outside_contexts (outside_callSet s i)]
    exact State.lt_of_serving hsv
  rw [callStart_eq hsv]
  by_cases hB : (s.profileAt (s.ctx i).profile).budget = 0
  · rw [if_pos hB, if_pos hB, State.ctx_modCtx_self _ _ _ len, self, hB]
    exact ⟨_, rfl, SearchRecord.begun_newSearch 0 _, fun jb hjb => nomatch hjb⟩
  · obtain ⟨r, start, record, clean⟩ := startSearch_ctx len (by rw [profile]; exact reach)
    rw [profile] at record
    rw [if_neg hB, if_neg hB, start, self]
    exact ⟨r, rfl, record, clean⟩

theorem steady_callStart_ne (hk : k ≠ i) : ((callStart i s).ctx k).steady = (s.ctx k).steady := by
  have set : ((s.callSet i).ctx k) = s.ctx k := by
    rw [State.callSet, State.ctx_modServing_ne _ _ _ _ hk.symm, State.ctx_modCtx_ne _ _ _ _ hk.symm]
  cases hsv : (s.ctx i).serving with
  | none =>
    unfold callStart
    dsimp only
    split
    · rw [State.ctx_modCtx_ne _ _ _ _ hk.symm, State.ctx_modServing_ne _ _ _ _ hk.symm, State.ctx_modCtx_ne _ _ _ _ hk.symm]
    · rw [steady_startSearch, State.ctx_modServing_ne _ _ _ _ hk.symm, State.ctx_modCtx_ne _ _ _ _ hk.symm]
  | some sv =>
    rw [callStart_eq hsv]
    split
    · rw [State.ctx_modCtx_ne _ _ _ _ hk.symm, set]
    · rw [steady_startSearch, set]

end CallStart

end Sys2Proof.Machine

namespace Sys2Proof.Machine

open Sys2Proof

/-! ## Slot controls (R31 to R35) -/

section SlotControls

variable {s : State} {i n : Nat} {sv : Serving}

/-- A context whose transparency is set. -/
def Context.withTransparent (c : Context) (on : Bool) : Context := { c with transparent := on }

/-- The station as transparency is recorded in context i. -/
def State.transparency (s : State) (i : Nat) (on : Bool) : State := s.modCtx i fun c => c.withTransparent on

theorem transparency_serves (on : Bool) : (s.transparency i on).serves i = s.serves i := by
  simp only [State.transparency, State.serves, State.ctx_modCtx, State.modCtx_profile]
  split <;> rfl

theorem transparency_ctx (on : Bool) (hi : i < s.table.contexts.length) :
    (s.transparency i on).ctx i = (s.ctx i).withTransparent on := State.ctx_modCtx_self _ _ _ hi

theorem transparency_callState (on : Bool) : ((s.transparency i on).ctx i).callState = (s.ctx i).callState := by
  simp only [State.transparency, State.ctx_modCtx]
  split <;> rfl

theorem steady_transparency_ne (on : Bool) (hn : n ≠ i) : ((s.transparency i on).ctx n).steady = (s.ctx n).steady := by
  rw [State.transparency, State.ctx_modCtx_ne _ _ _ _ hn.symm]

theorem transparentOn_eq (i : Nat) (s : State) : transparentOn i s =
    if s.serves i = true ∧ (s.ctx i).callState ≠ .bypass then enterPassing i .bypass (s.transparency i true)
    else s.transparency i true := by
  rw [← transparency_serves true, ← transparency_callState true]
  rfl

theorem rejudge_of_not (h : ¬((s.ctx i).callState = .bypass ∧ s.serves i = true ∧ (!(s.ctx i).transparent) = true)) :
    rejudge s i = s := by
  unfold rejudge
  split
  · rfl
  · exact if_neg h

theorem rejudge_of_bypass (hsv : (s.ctx i).serving = some sv) (hs : s.serves i = true) (hb : (s.ctx i).callState = .bypass)
    (ht : (s.ctx i).transparent = false) :
    rejudge s i = if sv.callPresent = true then callStart i s else enterPassing i .idle s := by
  have due : (s.ctx i).callState = .bypass ∧ s.serves i = true ∧ (!(s.ctx i).transparent) = true := ⟨hb, hs, by rw [ht]; rfl⟩
  unfold rejudge
  rw [hsv]
  exact if_pos due

theorem transparentOff_of_run (h : s.profile.station = .run) : transparentOff i s = rejudge (s.transparency i false) i := if_pos h

theorem transparentOff_quiet (h : s.serves i = false ∨ (s.ctx i).callState ≠ .bypass ∨ s.profile.station ≠ .run) :
    transparentOff i s = s.transparency i false := by
  by_cases run : s.profile.station = .run
  · rw [transparentOff_of_run run]
    refine rejudge_of_not fun ⟨bypass, serves, _⟩ => ?_
    rw [transparency_callState] at bypass
    rw [transparency_serves] at serves
    rcases h with h | h | h
    · exact Bool.noConfusion (serves.symm.trans h)
    · exact h bypass
    · exact h run
  · exact if_neg run

/-- TRANSPARENT ON of a serving context not in BYPASS takes it there (R33). -/
theorem transparentOn_enters (hsv : (s.ctx i).serving = some sv) (hs : s.serves i = true) (hb : (s.ctx i).callState ≠ .bypass) :
    ((transparentOn i s).ctx i).unoffered = (((s.ctx i).withTransparent true).passing .bypass).unoffered
      ∧ ∀ n, n ≠ i → ((transparentOn i s).ctx n).steady = (s.ctx n).steady := by
  have hi := State.lt_of_serving hsv
  rw [transparentOn_eq, if_pos ⟨hs, hb⟩]
  constructor
  · rw [enterPassing_ctx (by simpa [State.transparency] using hi) rfl, transparency_ctx _ hi]
  · exact fun n hn => (steady_enterPassing_ne hn).trans (steady_transparency_ne true hn)

/-- A context after TRANSPARENT OFF is not transparent in any later state (R34). -/
theorem withTransparent_of_unoffered {c d : Context} (h : d.unoffered = c.unoffered) : d.transparent = c.transparent :=
  congrArg (·.transparent) h

/-- Settles O57: what each action does to the context that holds the slot, with the call start for TRANSPARENT OFF. -/
theorem slotControls : Obligations.SlotControls := by
  intro s slot k i hears held
  have acts : ∀ action p : BitVec 3, receive (.slotControl slot action p k) s = controlAction action p i s :=
    fun action p => Laws.slotControl_held slot action p s k i hears held
  refine ⟨fun p => congrArg Host.Outcome.next (acts 0 p), congrArg Host.Outcome.next (acts 3 0), congrArg Host.Outcome.next (acts 4 0),
    congrArg Host.Outcome.next (acts 7 0), fun h => ?on_quiet, fun sv hsv hs hb => ?on_enters, fun h => ?off_quiet,
    fun sv hsv hs hb run => ?off_judged⟩
  case on_quiet =>
    refine congrArg Host.Outcome.next ((acts 1 0).trans ((transparentOn_eq i s).trans (if_neg fun ⟨hs, hb⟩ => ?_)))
    rcases h with h | h
    · exact Bool.noConfusion (hs.symm.trans h)
    · exact hb h
  case on_enters =>
    obtain ⟨self, others⟩ := transparentOn_enters hsv hs hb
    have out : (transparentOn i s).outside = s.outside := outside_controlAction 1 0 i s
    exact ⟨_, sv.untoned, congrArg Host.Outcome.next (acts 1 0),
      (Context.unoffered_serving self).trans (congrArg (Option.map Serving.untoned) hsv), withTransparent_of_unoffered self,
      Context.unoffered_callState self, Context.unoffered_search self, Context.unoffered_toneHold self, rfl, out, others⟩
  case off_quiet => exact congrArg Host.Outcome.next ((acts 2 0).trans (transparentOff_quiet h))
  case off_judged =>
    have hi := State.lt_of_serving hsv
    have len : i < (s.transparency i false).table.contexts.length := by simpa [State.transparency] using hi
    have self := transparency_ctx (s := s) false hi
    have hsv' : ((s.transparency i false).ctx i).serving = some sv := by rw [self]; exact hsv
    have off : exec (.transparentOff slot k) s = .next (rejudge (s.transparency i false) i) :=
      congrArg Host.Outcome.next ((acts 2 0).trans (transparentOff_of_run run))
    have out : (s.transparency i false).outside = s.outside := by simp [State.transparency]
    have same : (s.transparency i false).profileAt ((s.transparency i false).ctx i).profile = s.profileAt (s.ctx i).profile := by
      rw [self]
      rfl
    rw [off, rejudge_of_bypass hsv' (by rw [transparency_serves]; exact hs) (by rw [transparency_callState]; exact hb)
      (by rw [self]; rfl)]
    constructor
    · intro absent
      rw [if_neg (by rw [absent]; exact Bool.false_ne_true)]
      have idle := enterPassing_ctx (s := s.transparency i false) (st := .idle) len rfl
      rw [self] at idle
      exact ⟨_, rfl, withTransparent_of_unoffered idle, Context.unoffered_callState idle, by simp [out],
        fun n hn => (steady_enterPassing_ne hn).trans (steady_transparency_ne false hn)⟩
    · intro present reach
      rw [if_pos present]
      obtain ⟨r, start, -⟩ := callStart_ctx hsv' (by rw [same]; exact reach)
      rw [same, self] at start
      have parts : (s.transparency i false).callParts i sv =
          callSetUp (s.ctx i).profile (s.profileAt (s.ctx i).profile) ((s.transparency i false).slotOf i) sv := by
        rw [State.callParts, self]
        rfl
      refine ⟨_, _, rfl, Context.unoffered_serving start, withTransparent_of_unoffered start, Context.unoffered_callState start,
        Context.unoffered_toneHold start, (congrArg Context.frozen start :), ?_⟩
      rw [parts]
      exact ⟨present, rfl, rfl, rfl, rfl, rfl, rfl, rfl, rfl, rfl, rfl, rfl, rfl, rfl, by simp [out],
        fun n hn => (steady_callStart_ne hn).trans (steady_transparency_ne false hn)⟩

end SlotControls

end Sys2Proof.Machine

namespace Sys2Proof.Machine

open Sys2Proof

/-! ## Whom a task touches -/

section Touches

variable {s : State} {k : Nat}

/-- A block placed changes no context but the one at the queue head (R91, R103). -/
theorem placeBlock_ctx_ne (b : Nat) (hk : s.pool.shortfall.head? ≠ some k) : (placeBlock b s).1.ctx k = s.ctx k := by
  unfold placeBlock
  split
  · exact State.freeBlock_ctx s b k
  · next h _ queue =>
    have hne : h ≠ k := fun he => hk (by rw [queue, he]; rfl)
    split
    · rw [State.ctx_modSearch_ne _ _ _ _ hne]
      exact State.reserveBlock_ctx s h b k
    · split
      · rw [State.ctx_leaveIfMet_ne _ _ _ hne, State.ctx_modSearch_ne _ _ _ _ hne]
        exact State.bindBlock_ctx s h _ b k
      · exact State.freeBlock_ctx s b k
    · exact State.freeBlock_ctx s b k

/-- A task about another context changes no context but that one. -/
theorem doTask_ctx_ne {t : Task} {j : Nat} (ht : t.subject = some j) (hne : j ≠ k) : (doTask t s).1.ctx k = s.ctx k := by
  cases t with
  | release b => cases ht
  | promote => cases ht
  | passStart i =>
    obtain rfl : i = j := Option.some.inj ht
    simp only [doTask, passStartTask]
    split
    · split
      · rfl
      · split
        · rw [State.ctx_modSearch_ne _ _ _ _ hne, State.ctx_foldl _ (by simp)]
        · rw [State.ctx_leaveShortfall_ne _ _ _ hne, State.ctx_modSearch_ne _ _ _ _ hne, State.ctx_foldl _ (by simp)]
    · rfl
  | checkMet i =>
    obtain rfl : i = j := Option.some.inj ht
    exact State.ctx_leaveIfMet_ne s i k hne
  | searchEnd i =>
    obtain rfl : i = j := Option.some.inj ht
    simp only [doTask, searchEndTask]
    split
    · rfl
    · split
      · rw [State.ctx_toTrack_ne _ _ _ hne, State.ctx_modSearch_ne _ _ _ _ hne, State.ctx_leaveShortfall_ne _ _ _ hne,
          State.ctx_modSearch_ne _ _ _ _ hne]
      · dsimp only
        rw [State.ctx_toTrack_ne _ _ _ hne]
        split
        · rw [State.ctx_leaveShortfall_ne _ _ _ hne, State.ctx_fillMap_ne _ _ _ _ _ hne, State.ctx_modSearch_ne _ _ _ _ hne]
        · rw [State.ctx_fillMap_ne _ _ _ _ _ hne, State.ctx_modSearch_ne _ _ _ _ hne]
  | finishSearch i =>
    obtain rfl : i = j := Option.some.inj ht
    simp only [doTask, finishSearchTask, State.notify_ctx]
    rw [State.ctx_modServing_ne _ _ _ _ hne, State.ctx_modSearch_ne _ _ _ _ hne, ctx_requestForPlan_ne _ _ _ hne]

end Touches

/-! ## Searches that have ended level-only stay so (R85) -/

section Ended

variable {s : State} {i k pass : Nat} {explored : List Nat}

/-- A record of a search that has ended with nothing retained (R85). -/
structure SearchRecord.Ended (pass : Nat) (explored : List Nat) (r : SearchRecord) : Prop where
  want : r.want = 0
  retained : r.retained = []
  map : r.map = []
  spare : r.spare = []
  pass : r.pass = pass
  explored : r.explored = explored

/-- A context whose search has ended so. -/
def Context.Ended (pass : Nat) (explored : List Nat) (c : Context) : Prop :=
  c.callState = .track ∧ ∃ r, c.search = some r ∧ r.Ended pass explored

theorem Context.Ended.of_unoffered {c d : Context} (h : c.Ended pass explored) (hd : d.unoffered = c.unoffered) :
    d.Ended pass explored := by
  obtain ⟨track, r, search, ended⟩ := h
  exact ⟨(Context.unoffered_callState hd).trans track, r, (Context.unoffered_search hd).trans search, ended⟩

theorem SearchRecord.Ended.levelled {r : SearchRecord} (h : r.Ended pass explored) : r.levelled.Ended pass explored :=
  ⟨rfl, h.retained, rfl, rfl, h.pass, h.explored⟩

theorem lt_of_ended (h : (s.ctx k).Ended pass explored) : k < s.table.contexts.length := by
  by_contra hge
  obtain ⟨-, r, search, -⟩ := h
  rw [State.ctx_ge _ _ (Nat.not_lt.1 hge)] at search
  cases search

theorem placeBlock_ended (b : Nat) (h : (s.ctx k).Ended pass explored) : ((placeBlock b s).1.ctx k).Ended pass explored := by
  by_cases head : s.pool.shortfall.head? = some k
  · obtain ⟨rest, queue⟩ : ∃ rest, s.pool.shortfall = k :: rest := List.head?_eq_some_iff.1 head
    obtain ⟨track, r, search, ended⟩ := h
    have placed : placeBlock b s = (s.freeBlock b, []) := by
      rw [placeBlock, queue]
      dsimp only
      rw [track, search]
      dsimp only
      rw [ended.map]
      rfl
    rw [placed]
    exact ⟨track, r, search, ended⟩
  · rw [placeBlock_ctx_ne b head]
    exact h

theorem promoteTask_ended (h : (s.ctx k).Ended pass explored) : ((promoteTask s).1.ctx k).Ended pass explored := by
  unfold promoteTask
  split
  · exact h
  · refine placeBlock_ended _ ?_
    split
    · rw [State.notify_ctx]
      exact h
    · exact h

/-- No task changes the record of a search that has ended level-only (R85). -/
theorem doTask_ended (t : Task) (h : (s.ctx k).Ended pass explored) : ((doTask t s).1.ctx k).Ended pass explored := by
  obtain ⟨track, r, search, ended⟩ := id h
  cases ht : t.subject with
  | some j =>
    by_cases hj : j = k
    · subst hj
      cases t with
      | release b => cases ht
      | promote => cases ht
      | passStart i =>
        obtain rfl : i = j := Option.some.inj ht
        have none : passStartTask i s = (s, []) := by
          unfold passStartTask
          rw [track]
        rw [doTask, none]
        exact h
      | checkMet i =>
        obtain rfl : i = j := Option.some.inj ht
        simp only [doTask, State.leaveIfMet]
        split
        · exact h.of_unoffered (State.unoffered_leaveShortfall s i i)
        · exact h
      | searchEnd i =>
        obtain rfl : i = j := Option.some.inj ht
        rw [doTask, searchEndTask_levelled search ended.retained]
        refine Context.Ended.of_unoffered (c := { s.ctx i with callState := .track, search := some r.levelled }) ?_
          (levelled_ctx (lt_of_ended h) search)
        exact ⟨rfl, _, rfl, ended.levelled⟩
      | finishSearch i =>
        obtain rfl : i = j := Option.some.inj ht
        rw [doTask, finishSearchTask_levelled (lt_of_ended h) search ended.want ended.map, finished_ctx (lt_of_ended h) search]
        exact ⟨track, _, rfl, ended.want, ended.retained, ended.map, ended.spare, ended.pass, ended.explored⟩
    · rw [doTask_ctx_ne ht hj]
      exact h
  | none =>
    cases t with
    | release b =>
      simp only [doTask, releaseTask]
      split
      · refine promoteTask_ended ?_
        rw [State.noticeRetired_ctx]
        exact h
      · exact placeBlock_ended b h
    | promote => exact promoteTask_ended h
    | passStart i => cases ht
    | checkMet i => cases ht
    | searchEnd i => cases ht
    | finishSearch i => cases ht

theorem runTasks_ended (fuel : Nat) (ts : List Task) {s : State} (h : (s.ctx k).Ended pass explored) :
    ((runTasks fuel ts s).ctx k).Ended pass explored := by
  induction fuel generalizing ts s with
  | zero => exact h
  | succ n ih =>
    cases ts with
    | nil => exact h
    | cons t ts => exact ih _ (doTask_ended t h)

/-- A search end with nothing retained is level-only in any state, whoever waits for its blocks (R85, R103). -/
theorem searchEnd_ended {r : SearchRecord} (hi : i < s.table.contexts.length) (hr : (s.ctx i).search = some r) (hn : r.retained = []) :
    ((perform [.searchEnd i] s).ctx i).Ended r.pass r.explored := by
  rw [perform_searchEnd_levelled hr hn]
  refine runTasks_ended _ _ (Context.Ended.of_unoffered ?_ (levelled_ctx hi hr))
  exact ⟨rfl, _, rfl, rfl, hn, rfl, rfl, rfl, rfl⟩

end Ended

/-! ## The judgement of the bound segments (R79, R84) -/

section Judge

variable {s : State} {i : Nat} {r : SearchRecord} {S : List (Nat × Nat)}

/-- Strength order of segments with their energies (R79). -/
def AsStrong (x y : Nat × Nat) : Prop := y.2 < x.2 ∨ (y.2 = x.2 ∧ x.1 ≤ y.1)

theorem AsStrong.trans {x y z : Nat × Nat} (h : AsStrong x y) (h' : AsStrong y z) : AsStrong x z := by
  unfold AsStrong at *
  omega

theorem AsStrong.antisymm {x y : Nat × Nat} (h : AsStrong x y) (h' : AsStrong y x) : x = y := by
  unfold AsStrong at *
  exact Prod.ext (by omega) (by omega)

theorem insertStrength_perm (x : Nat × Nat) (l : List (Nat × Nat)) : (insertStrength x l).Perm (x :: l) := by
  induction l with
  | nil => rfl
  | cons y ys ih =>
    rw [insertStrength]
    split
    · rfl
    · exact (ih.cons y).trans (List.Perm.swap x y ys)

theorem insertStrength_sorted {x : Nat × Nat} {l : List (Nat × Nat)} (h : l.Pairwise AsStrong) :
    (insertStrength x l).Pairwise AsStrong := by
  induction l with
  | nil => exact List.pairwise_singleton _ _
  | cons y ys ih =>
    obtain ⟨first, rest⟩ := List.pairwise_cons.1 h
    rw [insertStrength]
    split
    · next hx =>
      have lead : AsStrong x y := by
        unfold AsStrong
        omega
      exact List.pairwise_cons.2 ⟨fun z hz => (List.mem_cons.1 hz).elim (fun hz => hz ▸ lead) fun hz => lead.trans (first z hz), h⟩
    · next hx =>
      have behind : AsStrong y x := by
        unfold AsStrong
        omega
      exact List.pairwise_cons.2 ⟨fun z hz => (List.mem_cons.1 ((insertStrength_perm x ys).mem_iff.1 hz)).elim
        (fun hz => hz ▸ behind) (first z), ih rest⟩

theorem strengthSort_perm (l : List (Nat × Nat)) : (l.foldr insertStrength []).Perm l := by
  induction l with
  | nil => rfl
  | cons x xs ih => exact (insertStrength_perm x _).trans (ih.cons x)

theorem strengthSort_sorted (l : List (Nat × Nat)) : (l.foldr insertStrength []).Pairwise AsStrong := by
  induction l with
  | nil => exact List.Pairwise.nil
  | cons x xs ih => exact insertStrength_sorted ih

/-- The greatest energy stands above none that a bound holds for. -/
theorem foldl_max_le {l : List (Nat × Nat)} {m bound : Nat} : l.foldl (fun m e => max m e.2) m ≤ bound ↔ m ≤ bound ∧ ∀ e ∈ l, e.2 ≤ bound := by
  induction l generalizing m with
  | nil => simp
  | cons e es ih => simp [ih, and_assoc]

/-- The judgement retains the first B of the significant segments in strength order (R79, R84). -/
theorem judgeSegments_of_order (hr : (s.ctx i).search = some r) (order : s.significantOrder r S) :
    s.judgeSegments i = (S.map (·.1)).take (s.profileOf i).budget := by
  obtain ⟨perm, sorted⟩ := order
  have bound : s.boundOf i = r.bound := by rw [State.boundOf, hr]; rfl
  have judged : s.judgeSegments i = (((((r.bound.map fun jb => (jb.1, s.energyAt jb)).filter fun e =>
      significant e.2 ((r.bound.map fun jb => (jb.1, s.energyAt jb)).foldl (fun m e => max m e.2) 0)).foldr insertStrength []).map
        (·.1))).take (s.profileOf i).budget := by
    rw [State.judgeSegments, bound]
  have kept : ((r.bound.map fun jb => (jb.1, s.energyAt jb)).filter fun e =>
      significant e.2 ((r.bound.map fun jb => (jb.1, s.energyAt jb)).foldl (fun m e => max m e.2) 0)).Perm
        (S.map fun jb => (jb.1, s.energyAt jb)) := by
    rw [List.filter_map]
    refine (List.Perm.of_eq ?_).trans (perm.symm.map _)
    refine congrArg (List.map _) (List.filter_congr fun jb _ => ?_)
    rw [Bool.eq_iff_iff]
    simp only [Function.comp, significant, Bool.and_eq_true, decide_eq_true_eq, foldl_max_le, List.all_eq_true, List.forall_mem_map]
    exact and_congr_right fun _ => ⟨fun h => h.2, fun h => ⟨Nat.zero_le _, h⟩⟩
  have order' : (S.map fun jb => (jb.1, s.energyAt jb)).Pairwise AsStrong :=
    List.pairwise_map.2 (sorted.imp fun {a b} h => by
      unfold AsStrong
      simp only
      omega)
  have same := List.Perm.eq_of_pairwise (fun a b _ _ h h' => AsStrong.antisymm h h') (strengthSort_sorted _) order'
    ((strengthSort_perm _).trans kept)
  rw [judged, same, List.map_map]
  rfl

end Judge

end Sys2Proof.Machine

namespace Sys2Proof.Machine

open Sys2Proof

section SettleRestart

variable {s : State} {i n : Nat} {sv : Serving} {r : SearchRecord}

/-- The record of a search judged with nothing significant (R84). -/
def SearchRecord.unretained (r : SearchRecord) : SearchRecord := { r with retained := [] }

theorem settleSearch_unretained (judged : s.judgeSegments i = []) :
    settleSearch i s = perform [.searchEnd i] (s.modSearch i SearchRecord.unretained) := by
  rw [settleSearch, judged]
  rfl

theorem unretained_search (hr : (s.ctx i).search = some r) :
    ((s.modSearch i SearchRecord.unretained).ctx i).search = some r.unretained := by
  have hi : i < s.table.contexts.length := by
    by_contra hge
    rw [State.ctx_ge _ _ (Nat.not_lt.1 hge)] at hr
    cases hr
  rw [State.ctx_modSearch_self _ _ _ hi, hr]
  rfl

theorem lt_of_search (hr : (s.ctx i).search = some r) : i < s.table.contexts.length := by
  by_contra hge
  rw [State.ctx_ge _ _ (Nat.not_lt.1 hge)] at hr
  cases hr

/-- SETTLE with nothing significant ends the search level-only (R85, R89). -/
theorem settleSearch_ended (hr : (s.ctx i).search = some r) (judged : s.judgeSegments i = []) :
    ((settleSearch i s).ctx i).Ended r.pass r.explored := by
  have hi := lt_of_search hr
  rw [settleSearch_unretained judged]
  exact searchEnd_ended (r := r.unretained) (by simpa using hi) (unretained_search hr) rfl

/-- The blocks a context holds, in ascending number. -/
theorem heldBlocks_of_unmarked {H : List Nat} (hr : (s.ctx i).search = some r) (held : s.holdsUnmarked i H) : r.heldBlocks = H := by
  obtain ⟨perm, sorted, -⟩ := held
  rw [State.heldBlocks, hr] at perm
  exact sortNums_eq_of_perm sorted perm

theorem holdsUnmarked_few {H : List Nat} (sound : s.poolSound) (held : s.holdsUnmarked i H) : H.length ≤ 264 := by
  obtain ⟨perm, sorted, -⟩ := held
  exact length_le_of_nodup (sorted.imp fun h => Nat.ne_of_lt h) fun b hb => sound.2.1 ▸ heldBlocks_lt sound (perm.mem_iff.1 hb)

/-- SETTLE with nothing significant gives the blocks to the FIFO while no other context waits (R85, R103). -/
theorem settleSearch_levelOnly {H : List Nat} (hr : (s.ctx i).search = some r) (judged : s.judgeSegments i = []) (sound : s.poolSound)
    (alone : ∀ h ∈ s.pool.shortfall, h = i) (held : s.holdsUnmarked i H) : s.levelOnly i H (settleSearch i s) := by
  have blocks : r.unretained.heldBlocks = H := (show _ = r.heldBlocks from rfl).trans (heldBlocks_of_unmarked hr held)
  have few := holdsUnmarked_few sound held
  rw [settleSearch_unretained judged]
  refine levelOnly_of_searchEnd (v := s.modSearch i SearchRecord.unretained) (F := []) (by simpa using lt_of_search hr)
    (unretained_search hr) rfl (erase_of_alone sound.2.2.2.2.2.2.2.1 alone) ?_ (by rw [blocks]; omega) (by simp) ?_
    (List.append_nil _).symm blocks.symm (Nat.le_refl _)
  · rw [blocks]
    exact held.2.2
  · exact slotOf_modCtx fun _ => rfl

theorem judgeSegments_of_unbound (hr : (s.ctx i).search = some r) (map : r.map = []) : s.judgeSegments i = [] := by
  have none : s.significantOrder r [] := by
    rw [State.significantOrder, SearchRecord.bound, map]
    exact ⟨List.Perm.refl _, List.Pairwise.nil⟩
  rw [judgeSegments_of_order hr none]
  exact List.take_nil

/-! ### RESTART -/

/-- RESTART on a call in SEARCH or TRACK (R36, R90). -/
theorem restartSearch_of (hs : s.serves i = true) (hp : (s.ctx i).callState.processes = true) :
    restartSearch i s = searchAgain i (releaseHeld i s) := if_pos ⟨hs, hp⟩

/-- What a release of the blocks keeps for the search that follows. -/
structure State.StillServes (s : State) (i : Nat) (u : State) : Prop where
  steady : (u.ctx i).steady = (s.ctx i).steady
  outside : u.outside = s.outside

theorem releaseHeld_stillServes (i : Nat) (s : State) : s.StillServes i (releaseHeld i s) :=
  ⟨steady_releaseHeld i i s, outside_releaseHeld i s⟩

/-- What such a release gives back while no other context waits. -/
structure State.GivesBack (s : State) (i : Nat) (H : List Nat) (u : State) : Prop extends s.StillServes i u where
  fifo : u.pool.fifo = s.pool.fifo ++ H
  shortfall : u.pool.shortfall = []
  queue : u.lane.queue.length ≤ s.lane.queue.length
  free : u.FreeSound

theorem releaseHeld_givesBack {H : List Nat} (sound : s.poolSound) (alone : ∀ h ∈ s.pool.shortfall, h = i)
    (held : s.holdsUnmarked i H) : s.GivesBack i H (releaseHeld i s) := by
  have released := releaseHeld_sound sound alone held
  refine ⟨releaseHeld_stillServes i s, ?_, ?_, ?_, ?_⟩ <;> rw [released]
  · rw [State.freeAll_fifo, givenUp_pool]
  · rw [State.freeAll_shortfall, givenUp_pool]
    exact erase_of_alone sound.2.2.2.2.2.2.2.1 alone
  · rw [State.freeAll_lane]
    exact givenUp_queue_le s i
  · exact givenBack_freeSound sound held

section Released

variable {u : State}

theorem State.StillServes.lt (h : s.StillServes i u) (hsv : (s.ctx i).serving = some sv) : i < u.table.contexts.length :=
  State.outside_contexts h.outside ▸ State.lt_of_serving hsv

theorem State.StillServes.profileOf (h : s.StillServes i u) : u.profileOf i = s.profileOf i :=
  profileOf_of_steady (State.outside_profile h.outside) h.steady

/-- A search again after the blocks are released keeps the signal state (R36, R90). -/
theorem searchAgain_released (h : s.StillServes i u) (hsv : (s.ctx i).serving = some sv) (hB : 0 < (s.profileOf i).budget)
    (reach : 0 < (s.profileOf i).reach) : ∃ r, ((searchAgain i u).ctx i).serving = some (restartFilter sv)
      ∧ ((searchAgain i u).ctx i).search = some r ∧ ((searchAgain i u).ctx i).callState = .search
      ∧ r.Begun (s.profileOf i).budget (s.profileOf i).reach := by
  obtain ⟨r, again, record⟩ := searchAgain_ctx (s := u) (h.lt hsv) (h.profileOf ▸ hB) (h.profileOf ▸ reach)
  rw [h.profileOf] at record
  exact ⟨r, (Context.unoffered_serving again).trans (restarted_serving h.steady hsv), Context.unoffered_search again,
    Context.unoffered_callState again, record⟩

/-- It requests its budget behind its own blocks while no other context waits (R90, R101). -/
theorem searchAgain_givenBack {H : List Nat} (h : s.GivesBack i H u) (hsv : (s.ctx i).serving = some sv)
    (hB : 0 < (s.profileOf i).budget) (reach : 0 < (s.profileOf i).reach) (X : List Nat) :
    s.searchesFrom i [] (s.pool.fifo ++ H) X (searchAgain i u) := by
  have queue := h.queue
  have searches := searchAgain_searchesFrom (s := u) (t := s) (h.lt hsv) hB reach h.profileOf h.outside (slotOf_of_steady h.steady)
    (by rw [h.shortfall]; exact List.not_mem_nil) h.free (fun le => by omega) X
  rwa [h.shortfall, h.fifo] at searches

/-- A search again with a budget of 0 (R85, R90). -/
theorem searchAgain_budgetless (h : s.StillServes i u) (hsv : (s.ctx i).serving = some sv) (hB : (s.profileOf i).budget = 0) :
    ((searchAgain i u).ctx i).serving = some (restartFilter sv)
      ∧ ((searchAgain i u).ctx i).search = some { (newSearch 0).levelled with dwell := 0 }
      ∧ ((searchAgain i u).ctx i).callState = .track := by
  have again := searchAgain_levelled (s := u) (h.lt hsv) (by rw [h.profileOf]; exact hB)
  have parts : (u.ctx i).restarted.serving.map (fun sv => { sv with pathRun := 0 }) = some (restartFilter sv) := by
    rw [restarted_serving h.steady hsv]
    rfl
  exact ⟨(congrArg Context.serving again :).trans parts, (congrArg Context.search again :), (congrArg Context.callState again :)⟩

theorem searchAgain_levelOnly {H : List Nat} (h : s.GivesBack i H u) (hsv : (s.ctx i).serving = some sv)
    (hB : (s.profileOf i).budget = 0) : s.levelOnly i H (searchAgain i u) := by
  have self := searchingAgain_ctx (s := u) (h.lt hsv)
  rw [h.profileOf, hB] at self
  have slot : (u.searchingAgain i).slotOf i = s.slotOf i := by
    rw [State.slotOf, self]
    exact slotOf_of_steady h.steady
  rw [searchAgain_of_zero (by rw [h.profileOf]; exact hB)]
  refine levelOnly_of_searchEnd (v := u.searchingAgain i) (r := newSearch 0) (F := H)
    (by rw [State.outside_contexts (outside_searchingAgain u i)]; exact h.lt hsv) (by rw [self]; rfl) rfl ?_ (fun b hb => nomatch hb)
    (Nat.zero_le _) ((outside_searchingAgain u i).trans h.outside) slot h.fifo (List.append_nil H).symm h.queue
  exact (congrArg (List.erase · i) h.shortfall).trans rfl

end Released

/-- Settles O58: a SETTLE with nothing significant ends level-only, and a RESTART searches again behind its own blocks. -/
theorem settleAndRestart : Obligations.SettleAndRestart := by
  intro s slot k i hears held
  have acts : ∀ action : BitVec 3, receive (.slotControl slot action 0 k) s = controlAction action 0 i s :=
    fun action => Laws.slotControl_held slot action 0 s k i hears held
  have settles : ∀ {t : State}, settleSlot i s = t → exec (.settle slot k) s = .next t :=
    fun h => congrArg Host.Outcome.next ((acts 5).trans h)
  have restarts : ∀ {t : State}, restartSearch i s = t → exec (.restart slot k) s = .next t :=
    fun h => congrArg Host.Outcome.next ((acts 6).trans h)
  have others : ∀ n, n ≠ i → ((searchAgain i (releaseHeld i s)).ctx n).steady = (s.ctx n).steady :=
    fun n hn => (steady_searchAgain_ne hn).trans (steady_releaseHeld i n s)
  have outside : (searchAgain i (releaseHeld i s)).outside = s.outside := (outside_searchAgain i _).trans (outside_releaseHeld i s)
  refine ⟨fun r hs hc hr map spare => ?empty, fun r hs hc hr sound order => ?insignificant, fun h => ?unsettled,
    fun sv hs hsv hp hB reach => ?again, fun sv hs hsv hp hB => ?budgetless, fun h => ?unrestarted⟩
  case empty =>
    obtain ⟨track, r', search, ended⟩ := settleSearch_ended hr (judgeSegments_of_unbound hr map)
    exact ⟨_, r', settles (if_pos ⟨hs, hc⟩), track, search, ended.want, ended.retained, ended.map, ended.spare,
      outside_settleSearch i s, fun n _ => steady_settleSearch i n s⟩
  case insignificant =>
    have judged : s.judgeSegments i = [] := (judgeSegments_of_order hr order).trans List.take_nil
    obtain ⟨track, r', search, ended⟩ := settleSearch_ended hr judged
    exact ⟨_, r', settles (if_pos ⟨hs, hc⟩), track, search, ended.want, ended.retained, ended.map, ended.spare, ended.pass,
      ended.explored, outside_settleSearch i s, fun n _ => steady_settleSearch i n s,
      fun alone H holds => settleSearch_levelOnly hr judged sound alone holds⟩
  case unsettled =>
    refine settles (if_neg fun ⟨hs, hc⟩ => ?_)
    exact h.elim (fun h => Bool.noConfusion (hs.symm.trans h)) fun h => h hc
  case again =>
    obtain ⟨r, parts, search, state, record⟩ := searchAgain_released (releaseHeld_stillServes i s) hsv hB reach
    exact ⟨_, _, r, restarts (restartSearch_of hs hp), parts, search, state, record.pass, record.dwell, record.retained,
      rfl, rfl, rfl, rfl, rfl, rfl, rfl, rfl, rfl, rfl, rfl, outside, others,
      fun sound alone H X holds => searchAgain_givenBack (releaseHeld_givesBack sound alone holds) hsv hB reach X⟩
  case budgetless =>
    obtain ⟨parts, search, state⟩ := searchAgain_budgetless (releaseHeld_stillServes i s) hsv hB
    exact ⟨_, _, _, restarts (restartSearch_of hs hp), parts, search, state, rfl, rfl, rfl, rfl, rfl, rfl, rfl, rfl, outside, others,
      fun sound alone H holds => searchAgain_levelOnly (releaseHeld_givesBack sound alone holds) hsv hB⟩
  case unrestarted =>
    refine restarts (if_neg fun ⟨hs, hp⟩ => ?_)
    exact h.elim (fun h => Bool.noConfusion (hs.symm.trans h)) fun h => Bool.noConfusion (hp.symm.trans h)

end SettleRestart

end Sys2Proof.Machine

namespace Sys2Proof.Machine

open Sys2Proof

/-! ## The sample that starts a call (R12, R26, R27, R45) -/

section FirstSample

variable {s w : State} {slot i k : Nat} {sv v : Serving} {rin sin : Byte} {atStart : List (Nat × Nat)}

/-- The first sample of a call meets an empty history, so its hangover is set (R60, R61). -/
theorem nextHangover_first (hangover : Nat) : nextHangover hangover (peakOf []) (expand sin) = 240 := by
  rw [nextHangover_eq, if_pos]
  exact fun x hx => nomatch hx

theorem sampleParts_hangover (hv : v.history = []) (bound : List Nat) (parts : List (Nat × Nat)) :
    (sampleParts w i rin sin bound parts v).1.hangover = 240 := by
  have hangover : (sampleParts w i rin sin bound parts v).1.hangover = nextHangover v.hangover (peakOf v.history) (expand sin) := rfl
  rw [hangover, hv, nextHangover_first]

theorem sampleParts_dtFlag (hv : v.history = []) (bound : List Nat) (parts : List (Nat × Nat)) :
    (sampleParts w i rin sin bound parts v).1.dtFlag = true := by
  have flag : (sampleParts w i rin sin bound parts v).1.dtFlag = decide (0 < (sampleParts w i rin sin bound parts v).1.hangover) := rfl
  rw [flag, sampleParts_hangover hv]
  rfl

/-- Under double talk the NLP stays open (R66, R67). -/
theorem nextNlp_open_of_dt {switch hold active : Bool} {inactive hangover : Nat} :
    nextNlp .opened switch hold active true inactive hangover = .opened := by
  cases h : nextNlp .opened switch hold active true inactive hangover with
  | opened => rfl
  | closed => exact Bool.noConfusion (nextNlp_closes.1 h).2.2.2

theorem sampleParts_nlp (hv : v.history = []) (open_ : v.nlp = .opened) (bound : List Nat) (parts : List (Nat × Nat)) :
    (sampleParts w i rin sin bound parts v).1.nlp = .opened := by
  have nlp : (sampleParts w i rin sin bound parts v).1.nlp = nextNlp v.nlp (w.profileOf i).nlp (w.ctx i).toneHold
      (refActive (sampleParts w i rin sin bound parts v).1.power) (sampleParts w i rin sin bound parts v).1.dtFlag
      (sampleParts w i rin sin bound parts v).1.inactive (nlpHangover bound) := rfl
  rw [nlp, open_, sampleParts_dtFlag hv, nextNlp_open_of_dt]

/-- The first sample of a call gathers no gradient (R46). -/
theorem stagesOf_first (hv : v.history = []) (failed : List Nat) : (stagesOf i rin sin atStart failed v w).1 = w.setCtx i { w.ctx i with
    serving := some { (sampleParts w i rin sin (atStart.map (·.1)) (takingPart atStart (w.boundOf i) failed) v).1 with failed } } := by
  have quiet : sampleContributes w i rin v (sampleParts w i rin sin (atStart.map (·.1)) (takingPart atStart (w.boundOf i) failed) v).1 =
      false := by
    rw [sampleContributes, sampleParts_dtFlag hv]
    simp [contributes]
  rw [stagesOf]
  dsimp only
  rw [quiet]
  rfl

/-! ### Up to the call start -/

/-- The station as a sample starts the call of context i, before the set-up (R12, R164). -/
def State.ringing (s : State) (slot i : Nat) (rin sin : Byte) (sv : Serving) : State :=
  unreturned i (hear i rin sin sv (driveSlot slot true s))

theorem ringing_ctx (hi : i < s.table.contexts.length) :
    (s.ringing slot i rin sin sv).ctx i = { s.ctx i with serving := some (heard s rin sin sv) } :=
  unreturned_ctx.trans (hear_ctx hi)

theorem ringing_ctx_ne (hk : k ≠ i) : (s.ringing slot i rin sin sv).ctx k = s.ctx k :=
  unreturned_ctx.trans (State.ctx_setCtx_ne _ _ _ _ hk.symm)

theorem ringing_pool : (s.ringing slot i rin sin sv).pool = s.pool := unreturned_pool

theorem unreturned_outside : (unreturned i s).outside = s.outside := by
  unfold unreturned
  split <;> simp

theorem ringing_profile : (s.ringing slot i rin sin sv).profile = s.profile :=
  (State.outside_profile unreturned_outside).trans rfl

theorem ringing_slotOf : (s.ringing slot i rin sin sv).slotOf i = s.slotOf i := by
  by_cases hi : i < s.table.contexts.length
  · rw [State.slotOf, ringing_ctx hi, State.slotOf]
  · have out : ¬ i < (s.ringing slot i rin sin sv).table.contexts.length := by
      rw [State.ringing, State.outside_contexts unreturned_outside]
      simpa [hear, State.setCtx, driveSlot] using hi
    rw [State.slotOf, State.ctx_ge _ _ (Nat.not_lt.1 out), State.slotOf, State.ctx_ge _ _ (Nat.not_lt.1 hi)]

theorem recognise_rings (h : s.servesWith slot i sv) (run : s.profile.station = .run) (idle : (s.ctx i).callState = .idle)
    (call : sv.callPresent = false) (loud : silent s.highway.idleCodes rin sin = false) :
    recognise i rin sin (driveSlot slot true s) = callStart i (s.ringing slot i rin sin sv) := by
  have self := hear_ctx (slot := slot) (rin := rin) (sin := sin) (sv := sv) h.lt
  rw [recognise_starts (s := driveSlot slot true s) h.2.2.2 loud call, callStarted_eq, if_pos]
  · rfl
  · rw [self]
    exact ⟨idle, run⟩

/-! ### From the call start on -/

/-- A context at the start of its call: in SEARCH or TRACK, with the profile and the signal state of a set-up (R27). -/
structure State.Started (s : State) (i : Nat) (r : SearchRecord) (v : Serving) (w : State) : Prop where
  context : (w.ctx i).unoffered = ({ s.ctx i with
    toneHold := false, callState := if (s.profileAt (s.ctx i).profile).budget = 0 then .track else .search
    search := some r, serving := some v } : Context).unoffered
  record : r.Begun (s.profileAt (s.ctx i).profile).budget (s.profileAt (s.ctx i).profile).reach
  clean : ∀ jb ∈ r.bound, (w.tapBlock jb.2).wrong = []

/-- The serving parts of a call that a sample starts. -/
def State.startParts (s : State) (i : Nat) (rin sin : Byte) (sv : Serving) : Serving :=
  callSetUp (s.ctx i).profile (s.profileAt (s.ctx i).profile) (s.slotOf i) (heard s rin sin sv)

theorem callStart_started (hsv : (s.ctx i).serving = some sv) (reach : 0 < (s.profileAt (s.ctx i).profile).reach) :
    ∃ r, s.Started i r (s.startParts i rin sin sv) (callStart i (s.ringing slot i rin sin sv)) := by
  have hi := State.lt_of_serving hsv
  have self := ringing_ctx (slot := slot) (rin := rin) (sin := sin) (sv := sv) hi
  have profile : (s.ringing slot i rin sin sv).profileAt ((s.ringing slot i rin sin sv).ctx i).profile = s.profileAt (s.ctx i).profile := by
    rw [self, State.profileAt, ringing_profile]
    rfl
  obtain ⟨r, start, record, clean⟩ := callStart_ctx (s := s.ringing slot i rin sin sv) (congrArg Context.serving self)
    (by rw [profile]; exact reach)
  have parts : (s.ringing slot i rin sin sv).callParts i (heard s rin sin sv) = s.startParts i rin sin sv := by
    rw [State.callParts, profile, ringing_slotOf, self]
    rfl
  rw [profile, parts, self] at start
  rw [profile] at record
  exact ⟨r, start, record, clean⟩

variable {r : SearchRecord}

theorem State.Started.serving (h : s.Started i r v w) : (w.ctx i).serving = some v := Context.unoffered_serving h.context

theorem State.Started.processes (h : s.Started i r v w) : (w.ctx i).callState.processes = true := by
  rw [Context.unoffered_callState h.context]
  dsimp only
  split <;> rfl

theorem State.Started.boundOf (h : s.Started i r v w) : w.boundOf i = r.bound := by
  rw [State.boundOf, Context.unoffered_search h.context]
  rfl

/-- The serving parts after the first sample. -/
def State.firstParts (w : State) (i : Nat) (rin sin : Byte) (r : SearchRecord) (v : Serving) : Serving :=
  { (sampleParts w i rin sin (r.bound.map (·.1)) r.bound v).1 with failed := [], phase := v.phase + 1 }

/-- The stages of the first sample change the serving parts alone (R45, R46). -/
theorem processByState_first (h : s.Started i r v w) (hv : v.history = []) : ∃ codes, processByState i rin sin [] w =
    (w.setCtx i { w.ctx i with serving := some { (sampleParts w i rin sin (r.bound.map (·.1)) r.bound v).1 with failed := [] } }, codes) := by
  have bound := h.boundOf
  have sound : ∀ jb ∈ w.boundOf i, (w.tapBlock jb.2).wrong = [] := by
    rw [bound]
    exact h.clean
  rw [processByState_of_processes h.processes,
    processSample_eq i rin sin [] (u := w) (by rw [strike_nil]; exact readBlocks_clean i _ _ sound) h.serving, strike_nil,
    failedSegments_clean _ _ sound, bound]
  have first := stagesOf_first (w := w) (i := i) (rin := rin) (sin := sin) (atStart := r.bound) hv []
  rw [bound, takingPart_self] at first
  exact ⟨_, Prod.ext first rfl⟩

/-- A station with its contexts' serving parts, its blocks and its queues: what a sample's end leaves alone. -/
theorem endSample_first (h : s.Started i r v w) (hv : v.history = []) :
    ∃ u, endSample slot i (processByState i rin sin [] w) = u ∧ u.ctx i = { w.ctx i with serving := some (w.firstParts i rin sin r v) }
      ∧ (∀ k, k ≠ i → u.ctx k = w.ctx k) ∧ u.pool = w.pool ∧ u.lane = w.lane := by
  obtain ⟨codes, first⟩ := processByState_first (rin := rin) (sin := sin) h hv
  have set := State.ctx_setCtx_self w i { w.ctx i with
    serving := some { (sampleParts w i rin sin (r.bound.map (·.1)) r.bound v).1 with failed := [] } } (State.lt_of_serving h.serving)
  refine ⟨_, rfl, ?_, fun k hk => ?_, ?_, ?_⟩ <;> rw [first]
  · rw [endSample_ctx (congrArg Context.serving set), set]
    rfl
  · rw [endSample_ctx_ne hk]
    exact State.ctx_setCtx_ne _ _ _ _ hk.symm
  · rfl
  · rfl

/-- What a lead-in block end brings to the serving parts (R49, R53). -/
def Serving.afterLeadIn (sv : Serving) : Serving := if 32 ≤ sv.phase then sv.ledIn.nextBlock else sv

/-- A lead-in block goes on or ends with its gradients reset (R49, R53). -/
theorem blockEndIfDue_leadIn (hv : (s.ctx i).serving = some v) (hp : (s.ctx i).callState.processes = true)
    (lead : 32 ≤ v.phase → v.block.leadIn = true) :
    (blockEndIfDue i s).ctx i = { s.ctx i with serving := some v.afterLeadIn }
      ∧ (∀ k, k ≠ i → (blockEndIfDue i s).ctx k = s.ctx k)
      ∧ (blockEndIfDue i s).lane = s.lane ∧ (blockEndIfDue i s).pool.fifo = s.pool.fifo
      ∧ (blockEndIfDue i s).pool.shortfall = s.pool.shortfall
      ∧ ∀ b, (blockEndIfDue i s).tapBlock b = s.tapBlock b ∨ (blockEndIfDue i s).tapBlock b = (s.tapBlock b).ungraded := by
  unfold Serving.afterLeadIn
  split
  · next due =>
    have ended : blockEndIfDue i s = (leadInBlockEnd i s).modServing i Serving.nextBlock := by
      rw [blockEndIfDue, whenDue_of_due hv (decide_eq_true due), blockEnded_of_processes hv hp, if_pos (lead due)]
    obtain ⟨lane, fifo, shortfall⟩ := mapBound_rest s i fun es => es.map fun e => { e with gc := 0, gh := 0 }
    have led := State.ctx_modServing_some (s := s.mapBound i fun es => es.map fun e => { e with gc := 0, gh := 0 }) (i := i)
      (by rw [mapBound_ctx]; exact hv) Serving.ledIn
    rw [mapBound_ctx, ← leadInBlockEnd_eq] at led
    rw [ended]
    refine ⟨?_, fun k hk => ?_, lane, fifo, shortfall, fun b => ?_⟩
    · rw [State.ctx_modServing_some (congrArg Context.serving led), led]
    · rw [State.ctx_modServing_ne _ _ _ _ hk.symm, leadInBlockEnd_eq, State.ctx_modServing_ne _ _ _ _ hk.symm, mapBound_ctx]
    · have read := mapBound_ungraded s i b
      split at read
      · exact .inr read
      · exact .inl read
  · next phase =>
    rw [blockEndIfDue_of_lt hv (Nat.not_le.1 phase), ← hv]
    exact ⟨rfl, fun _ _ => rfl, rfl, rfl, rfl, fun _ => .inl rfl⟩

/-- The state after the sample that starts a call, beside what its call start leaves (R26, R27, R45). -/
theorem sample_starts (h : s.servesWith slot i sv) (locked : s.highway.sync = .locked) (run : s.profile.station = .run)
    (idle : (s.ctx i).callState = .idle) (call : sv.callPresent = false) (loud : silent s.highway.idleCodes rin sin = false)
    (started : s.Started i r (s.startParts i rin sin sv) w) (hw : callStart i (s.ringing slot i rin sin sv) = w) :
    ∃ t, sampleSlot slot rin sin [] s = t
      ∧ t.ctx i = { w.ctx i with serving := some (w.firstParts i rin sin r (s.startParts i rin sin sv)).afterLeadIn }
      ∧ (∀ k, k ≠ i → t.ctx k = w.ctx k) ∧ t.lane = w.lane ∧ t.pool.fifo = w.pool.fifo ∧ t.pool.shortfall = w.pool.shortfall
      ∧ ∀ b, t.tapBlock b = w.tapBlock b ∨ t.tapBlock b = (w.tapBlock b).ungraded := by
  obtain ⟨u, ended, self, others, pool, lane⟩ := endSample_first (slot := slot) (rin := rin) (sin := sin) started rfl
  have lead : 32 ≤ (w.firstParts i rin sin r (s.startParts i rin sin sv)).phase →
      (w.firstParts i rin sin r (s.startParts i rin sin sv)).block.leadIn = true := fun due => by
    have phase : (w.firstParts i rin sin r (s.startParts i rin sin sv)).phase = sv.phase + 1 := rfl
    have block : (w.firstParts i rin sin r (s.startParts i rin sin sv)).block.leadIn = (sv.phase != 0) := rfl
    rw [phase] at due
    rw [block, bne_iff_ne]
    omega
  obtain ⟨self', others', lane', fifo', shortfall', blocks'⟩ := blockEndIfDue_leadIn (congrArg Context.serving self)
    (by rw [self]; exact started.processes) lead
  rw [self] at self'
  have read : ∀ b, u.tapBlock b = w.tapBlock b := fun b => by rw [State.tapBlock, pool, State.tapBlock]
  refine ⟨_, ?_, self', fun k hk => (others' k hk).trans (others k hk), lane'.trans lane, fifo'.trans (congrArg Pool.fifo pool),
    shortfall'.trans (congrArg Pool.shortfall pool), fun b => read b ▸ blocks' b⟩
  rw [exec_sample h locked, recognise_rings h run idle call loud, hw, ended]

/-- What a lead-in's end leaves of the serving parts. -/
theorem afterLeadIn_read {α : Type} (p : Serving → α) (hp : p v.ledIn.nextBlock = p v) : p v.afterLeadIn = p v := by
  unfold Serving.afterLeadIn
  split
  · exact hp
  · rfl

/-- Settles O28: the call and the pending RETURN are what idle recognition makes of them; the call it starts is set up and takes
its first sample. -/
theorem idleRecognitionAndCallStart : Obligations.IdleRecognitionAndCallStart := by
  refine ⟨idleRecognition, fun s slot rin sin i sv h locked run idle call loud reach => ?_⟩
  obtain ⟨r, started⟩ := callStart_started (slot := slot.toNat) (rin := rin) (sin := sin) h.2.2.2 reach
  obtain ⟨t, sampled, self, others, -⟩ := sample_starts h locked run idle call loud started rfl
  generalize hw : callStart i (s.ringing slot.toNat i rin sin sv) = w at started self others
  have kept : ∀ {α : Type} (p : Serving → α) (_ : ∀ v, p (Serving.nextBlock (Serving.ledIn v)) = p v),
      p (w.firstParts i rin sin r (s.startParts i rin sin sv)).afterLeadIn = p (w.firstParts i rin sin r (s.startParts i rin sin sv)) :=
    fun p hp => afterLeadIn_read p (hp _)
  have gains := kept (fun v => (v.receive.gain, v.send.gain)) fun _ => rfl
  have power : (w.firstParts i rin sin r (s.startParts i rin sin sv)).power =
      0 + (referenceOf (s.profileAt (s.ctx i).profile).receiveG rin).natAbs ^ 2 - squareAt [] 255 := rfl
  refine ⟨t, _, congrArg Host.Outcome.next ((unlessHeld_of_ne h.ne_held).trans sampled), congrArg Context.serving self,
    ?_, ?_, ?_, ?_, ?_, ?_, ?_, ?_, ?_, ?_, ?_, ?_, congrArg Prod.fst gains, congrArg Prod.snd gains, ?_, ?_, ?_, ?_, fun k hk => ?_⟩
  · rw [self]
    exact Context.unoffered_callState started.context
  · rw [self]
    exact Context.unoffered_toneHold started.context
  · rw [self]
    exact (congrArg Context.frozen started.context :)
  · rw [kept (·.callPresent) fun _ => rfl]
    show (sv.callPresent || !silent s.highway.idleCodes rin sin) = true
    rw [loud, Bool.not_false, Bool.or_true]
  · rw [kept (·.idleRun) fun _ => rfl]
    show (if silent s.highway.idleCodes rin sin then countUp 4095 sv.idleRun else 0) = 0
    rw [loud]
    rfl
  · exact kept (·.profile) fun _ => rfl
  · exact kept (·.history) fun _ => rfl
  · rw [kept (·.power) fun _ => rfl, power]
    simp [squareAt]
  · rw [kept (·.hangover) fun _ => rfl]
    exact sampleParts_hangover (w := w) (i := i) (rin := rin) (v := s.startParts i rin sin sv) rfl (r.bound.map (·.1)) r.bound
  · rw [kept (·.dtFlag) fun _ => rfl]
    exact sampleParts_dtFlag (w := w) (i := i) (rin := rin) (v := s.startParts i rin sin sv) rfl (r.bound.map (·.1)) r.bound
  · rw [kept (·.nlp) fun _ => rfl]
    exact sampleParts_nlp (w := w) (i := i) (rin := rin) (v := s.startParts i rin sin sv) rfl rfl (r.bound.map (·.1)) r.bound
  · exact kept (·.noise) fun _ => rfl
  · exact kept (·.pathRun) fun _ => rfl
  · exact kept (·.msSin) fun _ => rfl
  · exact kept (·.msErr) fun _ => rfl
  · exact kept (·.generator) fun _ => rfl
  · rw [others k hk, ← hw, steady_callStart_ne hk, ringing_ctx_ne hk]

end FirstSample

end Sys2Proof.Machine

namespace Sys2Proof.Machine

open Sys2Proof

/-! ## The blocks and the offer of a call start (R81, R82, R101, R112, R158) -/

section Offers

variable {s u t : State} {i k n : Nat}

/-- A home whose offer is open (R158). -/
def Context.offering (c : Context) : Context := { c with role := .homeOffering, offer := some ⟨none, none⟩ }

/-- The OFFER of a context's whole budget (R158). -/
def State.offerEntry (s : State) (p : Profile) (i : Nat) : Entry :=
  ⟨.offer (BitVec.ofNat 7 (s.slotOf i)) (BitVec.ofNat 5 p.budget) (BitVec.ofNat 3 (s.ctx i).profile)
    (BitVec.ofBool (s.ctx i).frozen) s.me, s.frame, none⟩

/-- `t` is `s` after a call start of context i that obtained n blocks has made its offer, if it makes one (R158). -/
structure State.Offers (s : State) (i n : Nat) (t : State) : Prop where
  none : n = (s.profileOf i).budget ∨ (s.ctx i).role ≠ .homeServing → t = s
  offers : n < (s.profileOf i).budget → (s.ctx i).role = .homeServing →
    t.ctx i = (s.ctx i).offering ∧ t.lane.queue = insertEntry (s.offerEntry (s.profileOf i) i) s.lane.queue
  others : ∀ k, k ≠ i → t.ctx k = s.ctx k
  search : (t.ctx i).search = (s.ctx i).search
  callState : (t.ctx i).callState = (s.ctx i).callState
  slot : (t.ctx i).slot = (s.ctx i).slot
  serving : (t.ctx i).serving = (s.ctx i).serving
  pool : t.pool = s.pool
  profile : t.profile = s.profile
  keeps : ∀ e ∈ s.lane.queue, e ∈ t.lane.queue
  queue : t.lane.queue.length ≤ s.lane.queue.length + 1

theorem makeOffer_of_room (room : s.lane.queue.length < 16) :
    makeOffer i s = ((s.modCtx i Context.offering).enqueue (s.offerEntry (s.profileOf i) i)).1 := by
  have joins : ((s.modCtx i Context.offering).enqueue (s.offerEntry (s.profileOf i) i)).2 = true :=
    congrArg Prod.snd (State.enqueue_eq_of_room (s := s.modCtx i Context.offering) room)
  have slot : (s.modCtx i Context.offering).slotOf i = s.slotOf i := slotOf_modCtx fun _ => rfl
  have profile : (s.modCtx i Context.offering).profileOf i = s.profileOf i := profileOf_modCtx fun _ => rfl
  have entry : (⟨.offer (BitVec.ofNat 7 ((s.modCtx i Context.offering).slotOf i))
      (BitVec.ofNat 5 ((s.modCtx i Context.offering).profileOf i).budget) (BitVec.ofNat 3 (s.ctx i).profile)
      (BitVec.ofBool (s.ctx i).frozen) (s.modCtx i Context.offering).me, (s.modCtx i Context.offering).frame, none⟩ : Entry) =
      s.offerEntry (s.profileOf i) i := by
    rw [slot, profile]
    rfl
  rw [← entry] at joins ⊢
  exact if_pos joins

/-- With room in the queue every offer a call start is to make is made (R158). -/
theorem offerIfShort_offers (run : s.profile.station = .run) (hi : i < s.table.contexts.length) (room : s.lane.queue.length < 16) :
    s.Offers i n (offerIfShort i n s) := by
  by_cases h : (s.ctx i).role = .homeServing ∧ n < (s.profileOf i).budget
  · have offers : offerIfShort i n s = ((s.modCtx i Context.offering).enqueue (s.offerEntry (s.profileOf i) i)).1 :=
      (if_pos ⟨h.1, run, h.2⟩).trans (makeOffer_of_room room)
    have self : (offerIfShort i n s).ctx i = (s.ctx i).offering := by
      rw [offers, State.enqueue_ctx, State.ctx_modCtx_self _ _ _ hi]
    have queue : (offerIfShort i n s).lane.queue = insertEntry (s.offerEntry (s.profileOf i) i) s.lane.queue := by
      rw [offers, State.enqueue_eq_of_room (s := s.modCtx i Context.offering) room]
      rfl
    refine ⟨fun hn => ?_, fun _ _ => ⟨self, queue⟩, fun k hk => ?_, by rw [self]; rfl, by rw [self]; rfl, by rw [self]; rfl,
      by rw [self]; rfl, by rw [offers]; rfl, by rw [offers]; rfl, fun e he => ?_, ?_⟩
    · rcases hn with hn | hn
      · omega
      · exact absurd h.1 hn
    · rw [offers, State.enqueue_ctx, State.ctx_modCtx_ne _ _ _ _ hk.symm]
    · rw [queue]
      exact (mem_insertEntry _ _ _).2 (.inr he)
    · rw [queue, (insertEntry_perm _ _).length_eq, List.length_cons]
  · have none : offerIfShort i n s = s := if_neg fun hc => h ⟨hc.1, hc.2.2⟩
    rw [none]
    exact ⟨fun _ => rfl, fun short role => absurd ⟨role, short⟩ h, fun _ _ => rfl, rfl, rfl, rfl, rfl, rfl, rfl, fun _ he => he, Nat.le_succ _⟩

end Offers

/-! ### The search of a call start in its pool -/

section Starts

variable {s : State} {p : Profile} {i k n : Nat} {X : List Nat}

/-- The record of a search that starts on the blocks X: in pass 1, or WAITING without one (R77, R82). -/
def SearchRecord.starting (B reach : Nat) (X : List Nat) : SearchRecord := if X = [] then newSearch B else .first B reach X

/-- The record as O21 and O29 read it. -/
structure SearchRecord.StartedOn (B n : Nat) (X : List Nat) (r : SearchRecord) : Prop where
  want : r.want = B
  dwell : r.dwell = 0
  retained : r.retained = []
  spare : r.spare = []
  explored : r.explored = List.range n
  segments : r.bound.map (·.1) = List.range n
  blocks : r.bound.map (·.2) = X
  pass : 0 < n → r.pass = 1 ∧ r.status = .inPass
  waiting : n = 0 → r.pass = 0 ∧ r.status = .waiting

theorem SearchRecord.starting_startedOn {B reach : Nat} (length : X.length = n) (le : n ≤ reach) :
    (SearchRecord.starting B reach X).StartedOn B n X := by
  unfold SearchRecord.starting
  split
  · next h =>
    subst h
    obtain rfl : 0 = n := length
    exact ⟨rfl, rfl, rfl, rfl, rfl, rfl, rfl, (absurd · (Nat.lt_irrefl 0)), fun _ => ⟨rfl, rfl⟩⟩
  · next h =>
    have pos : n ≠ 0 := fun hn => h (List.eq_nil_of_length_eq_zero (length.trans hn))
    refine ⟨rfl, rfl, rfl, rfl, ?_, ?_, ?_, fun _ => ⟨rfl, rfl⟩, (absurd · pos)⟩
    · exact congrArg List.range (by rw [length]; omega)
    · rw [SearchRecord.first_bound, zip_map_fst, List.take_range, length, Nat.min_eq_left le]
    · rw [SearchRecord.first_bound, zip_map_snd, List.length_range, List.take_of_length_le (by omega)]

/-- A block stands as bound to segment j for an owner, at zero (R48, R78). -/
structure TapBlock.BoundTo (o : Owner) (j : Nat) (t : TapBlock) : Prop where
  state : t.state = .assigned
  owner : t.owner = some o
  segment : t.segment = some j
  entries : t.entries = List.replicate 64 ⟨0, 0, 0⟩

theorem TapBlock.boundTo_boundTo (o : Owner) (j : Nat) (t : TapBlock) : (t.boundTo o j).BoundTo o j := ⟨rfl, rfl, rfl, rfl⟩

/-- `t` is `s` after context i's call start under the profile p on n FREE blocks, `X` in ascending number (R81, R82, R101, R112, R158). -/
structure State.SearchStarts (s : State) (p : Profile) (i n : Nat) (X : List Nat) (t : State) : Prop where
  search : (t.ctx i).search = some (.starting p.budget p.reach X)
  others : ∀ k, k ≠ i → t.ctx k = s.ctx k
  role : n = p.budget ∨ (s.ctx i).role ≠ .homeServing →
    (t.ctx i).role = (s.ctx i).role ∧ (t.ctx i).offer = (s.ctx i).offer
  offers : n < p.budget → (s.ctx i).role = .homeServing →
    (t.ctx i).role = .homeOffering ∧ (t.ctx i).offer = some ⟨none, none⟩ ∧ s.offerEntry p i ∈ t.lane.queue
  fifo : t.pool.fifo = s.pool.fifo.drop n
  shortfall : t.pool.shortfall = if n < p.budget then s.pool.shortfall ++ [i] else s.pool.shortfall
  length : t.pool.blocks.length = s.pool.blocks.length
  bound : ∀ jb ∈ (List.range p.reach).zip X, (t.tapBlock jb.2).BoundTo ⟨i, s.slotOf i⟩ jb.1
  stand : ∀ b, b ∉ X → t.tapBlock b = s.tapBlock b
  keeps : ∀ e ∈ s.lane.queue, e ∈ t.lane.queue
  queue : t.lane.queue.length ≤ s.lane.queue.length + 2
  notice : n < p.budget → maskBit s.profile.noticeMask 3 = true →
    ⟨.notice 3 (BitVec.ofNat 16 (s.slotOf i % 128 * 512 + (p.budget - n) % 32 * 16)) s.me, s.frame, none⟩ ∈ t.lane.queue

theorem mem_notify_of_mem {kind : Nat} {fs : List Field} {e : Entry} (room : s.lane.queue.length < 16) (he : e ∈ s.lane.queue) :
    e ∈ (s.notify kind fs).lane.queue := by
  rw [State.notify_queue room]
  split
  · exact (mem_insertEntry _ _ _).2 (.inr he)
  · exact he

/-- The pass start of a call start binds its whole hand and leaves contexts, FIFO and queues alone. -/
theorem passStart_hand {u : State} {B : Nat} (hi : i < u.table.contexts.length) (hc : (u.ctx i).callState = .search)
    (hr : (u.ctx i).search = some { newSearch B with spare := X }) (some_hand : X ≠ []) (fits : X.length ≤ u.reachOf i)
    (distinct : X.Nodup) (inPool : ∀ b ∈ X, b < u.pool.blocks.length) :
    ∃ t, perform [.passStart i] u = t ∧ t.ctx i = (u.ctx i).searching (.first B (u.reachOf i) X)
      ∧ (∀ k, k ≠ i → t.ctx k = u.ctx k) ∧ t.lane = u.lane ∧ t.pool.fifo = u.pool.fifo ∧ t.pool.shortfall = u.pool.shortfall
      ∧ t.pool.blocks.length = u.pool.blocks.length
      ∧ (∀ jb ∈ (List.range (u.reachOf i)).zip X, t.tapBlock jb.2 = (u.tapBlock jb.2).boundTo ⟨i, u.slotOf i⟩ jb.1)
      ∧ ∀ b, b ∉ X → t.tapBlock b = u.tapBlock b := by
  have unseen : ({ newSearch B with spare := X } : SearchRecord).unexplored (u.reachOf i) = List.range (u.reachOf i) :=
    unexplored_newSearch B _
  have pos : 0 < X.length := List.length_pos_iff.2 some_hand
  have some_unseen : ({ newSearch B with spare := X } : SearchRecord).unexplored (u.reachOf i) ≠ [] := by
    rw [unseen, Ne, List.range_eq_nil]
    omega
  have start := perform_passStart_fits hc hr some_unseen (by rw [unseen, List.length_range]; exact fits)
  rw [unseen, passed_newSearch] at start
  have blocks : ((List.range (u.reachOf i)).zip X).map Prod.snd = X := by
    rw [zip_map_snd, List.length_range, List.take_of_length_le fits]
  have mem : ∀ jb ∈ (List.range (u.reachOf i)).zip X, jb.2 ∈ X := fun jb hjb => by
    have := List.mem_map_of_mem (f := Prod.snd) hjb
    rwa [blocks] at this
  obtain ⟨bound, stand⟩ := State.bindAll_tapBlock (s := u) (i := i) (pairs := (List.range (u.reachOf i)).zip X)
    (by rw [blocks]; exact distinct) fun jb hjb => inPool _ (mem jb hjb)
  refine ⟨_, start, ?_, fun k hk => ?_, ?_, ?_, ?_, ?_, bound, fun b hb => stand b fun jb hjb h => hb (h ▸ mem jb hjb)⟩
  · rw [State.ctx_modSearch_self _ _ _ (by rw [State.bindAll_table]; exact hi), State.bindAll_ctx, hr]
    rfl
  · rw [State.ctx_modSearch_ne _ _ _ _ hk.symm, State.bindAll_ctx]
  · rw [State.modSearch_lane, State.bindAll_lane]
  · rw [State.modSearch_pool, State.bindAll_fifo]
  · rw [State.modSearch_pool, State.bindAll_shortfall]
  · rw [State.modSearch_pool, State.bindAll_length]

/-- A call start's search, its request, offer and pass start (R81, R82, R101, R112, R158). -/
theorem startSearch_starts (hp : s.profileOf i = p) (run : s.profile.station = .run) (hi : i < s.table.contexts.length) (hB : 0 < p.budget)
    (hn : n = if s.pool.shortfall = [] then min p.budget s.pool.fifo.length else 0) (le : n ≤ p.reach)
    (hq : i ∉ s.pool.shortfall) (nodup : s.pool.fifo.Nodup) (inPool : ∀ b ∈ s.pool.fifo, b < s.pool.blocks.length)
    (room : s.lane.queue.length + 2 ≤ 16) :
    s.SearchStarts p i n (sortNums (s.pool.fifo.take n)) (startSearch i s) := by
  have len : i < (s.searchStarting i).table.contexts.length := by simpa [State.searchStarting] using hi
  have starting : (s.searchStarting i).ctx i = (s.ctx i).searchStarted (newSearch p.budget) := by
    rw [← hp]
    exact State.ctx_modCtx_self _ _ _ hi
  have slot : (s.searchStarting i).slotOf i = s.slotOf i := slotOf_modCtx fun _ => rfl
  obtain ⟨got, req⟩ := requestToSpare_requested (s := s.searchStarting i) len (congrArg Context.search starting) hB hq nodup hn
  have reqOut : (requestToSpare i (s.searchStarting i)).1.outside = s.outside := by simp [State.searchStarting]
  have asked : s.asked i = offerIfShort i n (requestToSpare i (s.searchStarting i)).1 := by rw [State.asked, got]
  rw [startSearch_eq, got, asked]
  generalize (requestToSpare i (s.searchStarting i)).1 = u at req reqOut
  change Requested (s.searchStarting i) i p.budget n (sortNums (s.pool.fifo.take n)) u at req
  have self := req.self
  rw [starting] at self
  have profile : u.profileOf i = p :=
    (State.profileOf_congr (State.outside_profile reqOut) (by rw [self]; rfl)).trans hp
  have own : u.slotOf i = s.slotOf i := by
    rw [State.slotOf, self]
    rfl
  have lane : (s.searchStarting i).lane = s.lane := rfl
  have told : u.lane.queue.length ≤ s.lane.queue.length + 1 ∧ (∀ e ∈ s.lane.queue, e ∈ u.lane.queue)
      ∧ (n < p.budget → maskBit s.profile.noticeMask 3 = true →
        ⟨.notice 3 (BitVec.ofNat 16 (s.slotOf i % 128 * 512 + (p.budget - n) % 32 * 16)) s.me, s.frame, none⟩
          ∈ u.lane.queue) := by
    rw [req.lane]
    split
    · next short =>
      refine ⟨State.notify_queue_length (s.searchStarting i) 3 _, fun e he => mem_notify_of_mem (s := s.searchStarting i)
        (by rw [lane]; omega) he, fun _ mask => ?_⟩
      have joined := State.mem_notify (s := s.searchStarting i) (kind := 3)
        (fs := [(7, (s.searchStarting i).slotOf i), (5, p.budget - n)]) mask
        (by rw [lane]; omega)
      rw [packLeft_poolShort, slot] at joined
      rw [slot]
      exact joined
    · next enough => exact ⟨Nat.le_succ _, fun _ he => he, fun short => absurd short enough⟩
  obtain ⟨queue, keeps, notice⟩ := told
  have tableLen : i < u.table.contexts.length := State.outside_contexts reqOut ▸ hi
  have offers := offerIfShort_offers (n := n) (s := u) (i := i) (by rw [State.outside_profile reqOut]; exact run) tableLen
    (by omega)
  have offerTable : i < (offerIfShort i n u).table.contexts.length := by
    have out := outside_offerIfShort i n u
    exact State.outside_contexts out ▸ tableLen
  generalize offerIfShort i n u = v at offers offerTable
  have vsearch := offers.search.trans (congrArg Context.search self)
  have vstate := offers.callState.trans (congrArg Context.callState self)
  have vrole : n = p.budget ∨ (s.ctx i).role ≠ .homeServing →
      (v.ctx i).role = (s.ctx i).role ∧ (v.ctx i).offer = (s.ctx i).offer := fun h => by
    rw [offers.none (by rw [profile, self]; exact h), self]
    exact ⟨rfl, rfl⟩
  have voffers : n < p.budget → (s.ctx i).role = .homeServing →
      (v.ctx i).role = .homeOffering ∧ (v.ctx i).offer = some ⟨none, none⟩ ∧ s.offerEntry p i ∈ v.lane.queue := fun short role => by
    obtain ⟨offering, joined⟩ := offers.offers (by rw [profile]; exact short) (by rw [self]; exact role)
    have entry : u.offerEntry (u.profileOf i) i = s.offerEntry p i := by
      rw [State.offerEntry, own, profile, self, State.me, State.outside_profile reqOut, State.outside_frame reqOut]
      rfl
    rw [offering, joined, entry]
    exact ⟨rfl, rfl, (mem_insertEntry _ _ _).2 (.inl rfl)⟩
  have vothers : ∀ k, k ≠ i → v.ctx k = s.ctx k := fun k hk =>
    (offers.others k hk).trans ((req.others k hk).trans (State.ctx_modCtx_ne _ _ _ _ hk.symm))
  have vkeeps : ∀ e ∈ s.lane.queue, e ∈ v.lane.queue := fun e he => offers.keeps e (keeps e he)
  have vqueue : v.lane.queue.length ≤ s.lane.queue.length + 2 := by
    have := offers.queue
    omega
  have vnotice := fun short mask => offers.keeps _ (notice short mask)
  have vfifo : v.pool.fifo = s.pool.fifo.drop n := (congrArg Pool.fifo offers.pool).trans req.fifo
  have vshort := (congrArg Pool.shortfall offers.pool).trans req.shortfall
  have vlength := (congrArg (fun p : Pool => p.blocks.length) offers.pool).trans req.length
  have read : ∀ b, v.tapBlock b = u.tapBlock b := fun b => by rw [State.tapBlock, offers.pool, State.tapBlock]
  have vstand : ∀ b, b ∉ sortNums (s.pool.fifo.take n) → v.tapBlock b = s.tapBlock b := fun b hb => (read b).trans (req.stand b hb)
  have taken : (sortNums (s.pool.fifo.take n)).length = n := by
    rw [(sortNums_perm (nodup.sublist (List.take_sublist n _))).length_eq, List.length_take]
    split at hn <;> omega
  by_cases zero : n = 0
  · have empty : sortNums (s.pool.fifo.take n) = [] := List.eq_nil_of_length_eq_zero (taken.trans zero)
    rw [if_neg (by omega)]
    rw [empty] at vsearch
    refine ⟨?_, vothers, vrole, voffers, vfifo, vshort, vlength, fun jb hjb => ?_, vstand, vkeeps, vqueue, vnotice⟩
    · rw [vsearch, empty, SearchRecord.starting, if_pos rfl]
      rfl
    · rw [empty, List.zip_nil_right] at hjb
      cases hjb
  · have reaches : v.reachOf i = p.reach := by
      rw [State.reachOf, State.profileOf_congr offers.profile (by rw [offers.serving]), profile]
    have hand : sortNums (s.pool.fifo.take n) ≠ [] := fun h => zero (by rw [← taken, h]; rfl)
    have mem : ∀ b ∈ sortNums (s.pool.fifo.take n), b ∈ s.pool.fifo := fun b hb =>
      (List.take_sublist _ _).mem ((Laws.mem_sortNums _ _).1 hb)
    obtain ⟨t, start, tself, tothers, tlane, tfifo, tshort, tlength, tbound, tstand⟩ := passStart_hand offerTable vstate vsearch hand
      (by rw [reaches, taken]; exact le) ((sortNums_perm (nodup.sublist (List.take_sublist n _))).nodup_iff.2
        (nodup.sublist (List.take_sublist n _))) (fun b hb => vlength ▸ inPool b (mem b hb))
    have vslot : v.slotOf i = s.slotOf i := by
      rw [State.slotOf, offers.slot]
      exact own
    rw [reaches] at tself tbound
    rw [vslot] at tbound
    rw [if_pos (by omega), start]
    refine ⟨?_, fun k hk => (tothers k hk).trans (vothers k hk), fun h => ?_, fun short role => ?_, tfifo.trans vfifo,
      tshort.trans vshort, tlength.trans vlength, fun jb hjb => ?_, fun b hb => (tstand b hb).trans (vstand b hb), ?_, ?_, ?_⟩
    · rw [tself, SearchRecord.starting, if_neg hand]
      rfl
    · rw [tself]
      exact vrole h
    · rw [tself, tlane]
      exact voffers short role
    · rw [tbound jb hjb]
      exact TapBlock.boundTo_boundTo _ _ _
    · rw [tlane]
      exact vkeeps
    · rw [tlane]
      exact vqueue
    · rw [tlane]
      exact vnotice

end Starts

end Sys2Proof.Machine

namespace Sys2Proof.Machine

open Sys2Proof

section Requests

variable {s u t : State} {p : Profile} {i k n slot : Nat} {X : List Nat} {sv : Serving} {rin sin : Byte}

/-- A search starts alike in two states that agree on what it reads. -/
theorem State.SearchStarts.of_same (h : u.SearchStarts p i n X t) (others : ∀ k, k ≠ i → u.ctx k = s.ctx k)
    (role : (u.ctx i).role = (s.ctx i).role) (offer : (u.ctx i).offer = (s.ctx i).offer) (slot : u.slotOf i = s.slotOf i)
    (number : (u.ctx i).profile = (s.ctx i).profile) (frozen : (u.ctx i).frozen = (s.ctx i).frozen)
    (pool : u.pool = s.pool) (lane : u.lane = s.lane) (profile : u.profile = s.profile) (frame : u.frame = s.frame) :
    s.SearchStarts p i n X t := by
  have entry : u.offerEntry p i = s.offerEntry p i := by
    rw [State.offerEntry, slot, number, frozen, State.me, profile, frame]
    rfl
  have me : u.me = s.me := by rw [State.me, profile, State.me]
  have read : ∀ b, u.tapBlock b = s.tapBlock b := fun b => by rw [State.tapBlock, pool, State.tapBlock]
  obtain ⟨search, others', role', offers, fifo, shortfall, length, bound, stand, keeps, queue, notice⟩ := h
  rw [role, offer] at role'
  rw [role, entry] at offers
  rw [pool] at fifo shortfall length
  rw [slot] at bound
  rw [lane] at keeps queue
  rw [slot, me, frame, profile] at notice
  exact ⟨search, fun k hk => (others' k hk).trans (others k hk), role', offers, fifo, shortfall, length, bound,
    fun b hb => (stand b hb).trans (read b), keeps, queue, notice⟩

/-- What a call start obtains in a state whose FREE blocks are distinct blocks of the pool, with room in the queue. -/
theorem callStart_starts (hsv : (s.ctx i).serving = some sv) (hp : s.profileAt (s.ctx i).profile = p) (hB : 0 < p.budget)
    (run : s.profile.station = .run)
    (hn : n = if s.pool.shortfall = [] then min p.budget s.pool.fifo.length else 0) (le : n ≤ p.reach)
    (hq : i ∉ s.pool.shortfall) (nodup : s.pool.fifo.Nodup) (inPool : ∀ b ∈ s.pool.fifo, b < s.pool.blocks.length)
    (room : s.lane.queue.length + 2 ≤ 16) :
    s.SearchStarts p i n (sortNums (s.pool.fifo.take n)) (callStart i s) := by
  have self := callSet_ctx hsv
  have len : i < (s.callSet i).table.contexts.length := by
    rw [State.outside_contexts (outside_callSet s i)]
    exact State.lt_of_serving hsv
  have slot : (s.callSet i).slotOf i = s.slotOf i := by
    rw [State.slotOf, self]
    rfl
  have starts := startSearch_starts (s := s.callSet i) ((callSet_profileOf hsv).trans hp) run len hB hn le hq nodup inPool room
  rw [callStart_eq hsv, if_neg (by rw [hp]; omega)]
  refine starts.of_same (fun k hk => ?_) (by rw [self]) (by rw [self]) slot (by rw [self]) (by rw [self]) rfl rfl rfl rfl
  rw [State.callSet, State.ctx_modServing_ne _ _ _ _ hk.symm, State.ctx_modCtx_ne _ _ _ _ hk.symm]

/-! ### The state in which a sample starts a call -/

theorem ringing_queue_le : (s.ringing slot i rin sin sv).lane.queue.length ≤ s.lane.queue.length := by
  have left : ∀ u : State, (unreturned i u).lane.queue.length ≤ u.lane.queue.length := fun u => by
    unfold unreturned
    split
    · exact State.recall_queue_le u _
    · exact Nat.le_refl _
  exact left (hear i rin sin sv (driveSlot slot true s))

theorem ringing_frame : (s.ringing slot i rin sin sv).frame = s.frame := (State.outside_frame unreturned_outside).trans rfl

/-- What is said of a block holds of it with its gradient sums cleared, as long as it holds of the block at zero. -/
theorem TapBlock.BoundTo.ungraded {o : Owner} {j : Nat} {b : TapBlock} (h : b.BoundTo o j) : b.ungraded.BoundTo o j := by
  refine ⟨h.state, h.owner, h.segment, ?_⟩
  rw [TapBlock.ungraded, h.entries, List.map_replicate]

/-- Every profile a context can name reaches a segment (R175, R176). -/
theorem reach_pos (sound : s.poolSound) (index : Nat) : 0 < (s.profileAt index).reach := by
  obtain ⟨-, -, -, -, -, -, -, -, -, -, -, reaches, -⟩ := sound
  rw [State.profileAt, List.getD_eq_getElem?_getD]
  cases h : s.profile.profiles[index]? with
  | none => exact Nat.succ_pos 15
  | some p => exact reaches p (List.mem_of_getElem? h)

/-- Settles O29: the request, the offer and the pass start of the call, and the first sample, which touches none of them. -/
theorem callStartRequestsBlocks : Obligations.CallStartRequestsBlocks := by
  intro s slot rin sin i sv h locked run idle call loud sound hslot few
  dsimp only
  generalize hp : s.profileAt (s.ctx i).profile = p
  generalize hn : (if s.pool.shortfall = [] then min p.budget s.pool.fifo.length else 0) = n
  intro hB small le
  have free := poolSound_freeSound sound
  have waits : i ∉ s.pool.shortfall := (passive_out sound (by rw [idle]; rfl)).1
  have hnB : n ≤ p.budget := by split at hn <;> omega
  have hreach : 0 < p.reach := hp ▸ reach_pos sound _
  obtain ⟨r, started⟩ := callStart_started (slot := slot.toNat) (rin := rin) (sin := sin) h.2.2.2 (hp.symm ▸ hreach)
  obtain ⟨t, sampled, self, -, lane, fifo, shortfall, blocks⟩ := sample_starts h locked run idle call loud started rfl
  have ringing := ringing_ctx (slot := slot.toNat) (rin := rin) (sin := sin) (sv := sv) h.lt
  have pool : (s.ringing slot.toNat i rin sin sv).pool = s.pool := ringing_pool
  have profile : (s.ringing slot.toNat i rin sin sv).profile = s.profile := ringing_profile
  have frame : (s.ringing slot.toNat i rin sin sv).frame = s.frame := ringing_frame
  have own : (s.ringing slot.toNat i rin sin sv).slotOf i = slot.toNat := by
    rw [ringing_slotOf, State.slotOf, hslot]
    rfl
  have queue := ringing_queue_le (s := s) (slot := slot.toNat) (i := i) (rin := rin) (sin := sin) (sv := sv)
  have starts := callStart_starts (s := s.ringing slot.toNat i rin sin sv) (p := p) (n := n) (congrArg Context.serving ringing)
    (by rw [State.profileAt, profile, ringing]; exact hp) hB (by rw [profile]; exact run) (by rw [pool]; exact hn.symm) le
    (by rw [pool]; exact waits) (by rw [pool]; exact free.nodup) (by rw [pool]; exact free.inPool) (by omega)
  have me : (s.ringing slot.toNat i rin sin sv).me = s.me := by rw [State.me, profile, State.me]
  have entry : (s.ringing slot.toNat i rin sin sv).offerEntry p i = ⟨.offer slot (BitVec.ofNat 5 p.budget)
      (BitVec.ofNat 3 (s.ctx i).profile) (if (s.ctx i).frozen = true then 1 else 0) s.me, s.frame, none⟩ := by
    rw [State.offerEntry, own, me, frame, ringing, ofNat_slot]
    dsimp only
    cases (s.ctx i).frozen <;> rfl
  generalize hw : callStart i (s.ringing slot.toNat i rin sin sv) = w at started starts self lane fifo shortfall blocks
  obtain ⟨search, -, role, offers, wfifo, wshort, -, bound, -, -, -, notice⟩ := starts
  rw [ringing] at role offers
  rw [entry] at offers
  rw [pool] at wfifo wshort search bound
  rw [own] at bound notice
  rw [me, frame, profile] at notice
  have perm := sortNums_perm (free.nodup.sublist (List.take_sublist n _))
  have length : (sortNums (s.pool.fifo.take n)).length = n := by
    rw [perm.length_eq, List.length_take]
    split at hn <;> omega
  obtain ⟨want, dwell, retained, spare, explored, segments, hand, pass, waiting⟩ :=
    SearchRecord.starting_startedOn (B := p.budget) length le
  have bounded : slot.toNat % 128 * 512 + (p.budget - n) % 32 * 16 = slot.toNat * 512 + (p.budget - n) * 16 := by
    have := slot.isLt
    omega
  rw [bounded] at notice
  have read : ∀ jb ∈ (SearchRecord.starting p.budget p.reach (sortNums (s.pool.fifo.take n))).bound,
      (t.tapBlock jb.2).BoundTo ⟨i, slot.toNat⟩ jb.1 := fun jb hjb => by
    have mem : jb ∈ (List.range p.reach).zip (sortNums (s.pool.fifo.take n)) := by
      unfold SearchRecord.starting at hjb
      split at hjb
      · cases hjb
      · rwa [SearchRecord.first_bound] at hjb
    rcases blocks jb.2 with hb | hb <;> rw [hb]
    · exact bound jb mem
    · exact (bound jb mem).ungraded
  refine ⟨t, _, congrArg Host.Outcome.next ((unlessHeld_of_ne h.ne_held).trans sampled), ?_, ?_, want, dwell, retained, spare, explored,
    segments, by rw [hand]; exact perm, ?_, fun jb hjb => ?_, pass, waiting, fifo.trans wfifo, shortfall.trans wshort, fun hc => ?_,
    fun short mask => ?_, fun short home => ?_⟩
  · rw [self]
    exact search
  · rw [self]
    exact (Context.unoffered_callState started.context).trans (if_neg (by rw [hp]; omega))
  · rw [hand]
    exact sortNums_sorted _
  · obtain ⟨state, owner, segment, entries⟩ := read jb hjb
    exact ⟨state, owner, segment, entries⟩
  · rw [self]
    exact role hc
  · rw [lane]
    exact notice short mask
  · rw [self, lane]
    exact offers short home

end Requests

end Sys2Proof.Machine

namespace Sys2Proof.Machine

open Sys2Proof

/-! ## What tasks set off, and whom they leave alone (R91, R103) -/

section SetsOff

variable {s : State} {k : Nat}

/-- A task about a context sets off tasks about no other. -/
theorem doTask_sets_off {t u : Task} {j : Nat} (ht : t.subject = some j) (hu : u ∈ (doTask t s).2) (hne : j ≠ k) : u.subject ≠ some k := by
  have about : ∀ {v : Task}, v.subject = some j → v.subject ≠ some k := fun h hk => hne (Option.some.inj (h.symm.trans hk))
  have ends : ∀ {bs : List Nat} {v : Task}, v.subject = some j → u ∈ bs.map Task.release ++ [v] → u.subject ≠ some k := fun hv hm =>
    (List.mem_append.1 hm).elim (subject_map_release _ k u) fun hm => by
      rw [List.mem_singleton.1 hm]
      exact about hv
  cases t with
  | release b => cases ht
  | promote => cases ht
  | passStart i =>
    simp only [doTask, passStartTask] at hu
    split at hu
    · split at hu
      · exact about (List.mem_singleton.1 hu ▸ ht)
      · split at hu
        · cases hu
        · exact subject_map_release _ k u hu
    · cases hu
  | checkMet i => cases hu
  | searchEnd i =>
    simp only [doTask, searchEndTask] at hu
    split at hu
    · cases hu
    · split at hu
      · exact ends (v := .finishSearch i) ht hu
      · exact ends (v := .finishSearch i) ht hu
  | finishSearch i => cases hu

/-- A context that takes no block: it neither searches nor has a plan with an unfilled segment (R91). -/
def Context.TakesNone (c : Context) : Prop :=
  (c.callState = .search → c.search = none) ∧ ∀ r, c.callState = .track → c.search = some r → firstUnfilled r.map = none

theorem Context.takesNone_of_passes {c : Context} (h : c.callState.processes = false) : c.TakesNone := by
  refine ⟨fun hc => ?_, fun r hc => ?_⟩ <;> rw [hc] at h <;> cases h

/-- A block placed leaves a context that takes none, and sets off no task about it. -/
theorem placeBlock_takesNone (b : Nat) (h : (s.ctx k).TakesNone) :
    (placeBlock b s).1.ctx k = s.ctx k ∧ ∀ u ∈ (placeBlock b s).2, u.subject ≠ some k := by
  obtain ⟨noSearch, noPlan⟩ := h
  unfold placeBlock
  split
  · exact ⟨State.freeBlock_ctx s b k, fun _ hu => nomatch hu⟩
  · next h _ queue =>
    split
    · next hc hr =>
      have hne : h ≠ k := fun he => by
        rw [he] at hc hr
        rw [noSearch hc] at hr
        cases hr
      refine ⟨?_, fun u hu => ?_⟩
      · rw [State.ctx_modSearch_ne _ _ _ _ hne]
        exact State.reserveBlock_ctx s h b k
      · dsimp only at hu
        split at hu <;> simp only [List.mem_cons, List.not_mem_nil, or_false] at hu
        · rcases hu with rfl | rfl <;> exact fun hs => hne (Option.some.inj hs)
        · rw [hu]
          exact fun hs => hne (Option.some.inj hs)
    · next hc hr =>
      split
      · next hj =>
        have hne : h ≠ k := fun he => by
          rw [he] at hc hr
          rw [noPlan _ hc hr] at hj
          cases hj
        refine ⟨?_, fun _ hu => nomatch hu⟩
        rw [State.ctx_leaveIfMet_ne _ _ _ hne, State.ctx_modSearch_ne _ _ _ _ hne]
        exact State.bindBlock_ctx s h _ b k
      · exact ⟨State.freeBlock_ctx s b k, fun _ hu => nomatch hu⟩
    · exact ⟨State.freeBlock_ctx s b k, fun _ hu => nomatch hu⟩

theorem promoteTask_takesNone (h : (s.ctx k).TakesNone) :
    (promoteTask s).1.ctx k = s.ctx k ∧ ∀ u ∈ (promoteTask s).2, u.subject ≠ some k := by
  unfold promoteTask
  split
  · exact ⟨rfl, fun _ hu => nomatch hu⟩
  · next b rest _ =>
    have placed : ∀ u : State, u.ctx k = s.ctx k → (placeBlock b u).1.ctx k = s.ctx k
        ∧ ∀ t ∈ (placeBlock b u).2, t.subject ≠ some k := fun u hu => by
      obtain ⟨same, off⟩ := placeBlock_takesNone (s := u) (k := k) b (by rw [hu]; exact h)
      exact ⟨same.trans hu, off⟩
    split
    · exact placed _ (State.notify_ctx _ _ _ _)
    · exact placed _ rfl

theorem doTask_takesNone {t : Task} (h : (s.ctx k).TakesNone) (ht : t.subject ≠ some k) :
    (doTask t s).1.ctx k = s.ctx k ∧ ∀ u ∈ (doTask t s).2, u.subject ≠ some k := by
  cases hj : t.subject with
  | some j =>
    have hne : j ≠ k := fun he => ht (he ▸ hj)
    exact ⟨doTask_ctx_ne hj hne, fun u hu => doTask_sets_off hj hu hne⟩
  | none =>
    cases t with
    | release b =>
      simp only [doTask, releaseTask]
      split
      · have promoted := promoteTask_takesNone (s := (s.failBlock b (s.tapBlock b).corrected).noticeRetired b 2) (k := k)
          (by rw [State.noticeRetired_ctx]; exact h)
        rw [State.noticeRetired_ctx] at promoted
        exact promoted
      · exact placeBlock_takesNone b h
    | promote => exact promoteTask_takesNone h
    | passStart i => cases hj
    | checkMet i => cases hj
    | searchEnd i => cases hj
    | finishSearch i => cases hj

/-- Tasks that are not about a context that takes no block leave it untouched. -/
theorem runTasks_takesNone (fuel : Nat) (ts : List Task) {s : State} (h : (s.ctx k).TakesNone) (ht : ∀ t ∈ ts, t.subject ≠ some k) :
    (runTasks fuel ts s).ctx k = s.ctx k := by
  induction fuel generalizing ts s with
  | zero => rfl
  | succ n ih =>
    cases ts with
    | nil => rfl
    | cons t ts =>
      obtain ⟨same, off⟩ := doTask_takesNone h (ht t (List.mem_cons_self ..))
      rw [runTasks, ih _ (by rw [same]; exact h) (subject_append off fun u hu => ht u (List.mem_cons_of_mem _ hu)), same]

end SetsOff

/-! ## Searches in their first pass (R82, R91) -/

section Young

variable {s : State} {k : Nat}

/-- A search before its second pass: in a pass, or WAITING with nothing explored (R77, R82). -/
def Context.Young (c : Context) : Prop :=
  c.callState = .search ∧ ∃ r, c.search = some r ∧ (r.status = .waiting → r.explored = [])

/-- A context but for its search record and its open offer. -/
def Context.apartSearch (c : Context) : Context := { c.unoffered with search := none }

/-- Of the tasks about context k, only checks of its want are at hand. -/
def Task.Checks (k : Nat) (ts : List Task) : Prop := ∀ t ∈ ts, t.subject = some k → t = .checkMet k

/-- Tasks at hand that do no more to a young search than block deliveries set off: its pass start as the next one while it
waits, and checks of its want. -/
def Task.MildFor (k : Nat) (c : Context) (ts : List Task) : Prop :=
  Task.Checks k ts ∨ ∃ us, ts = .passStart k :: us ∧ Task.Checks k us ∧ ∀ r, c.search = some r → r.status = .waiting

theorem Task.checks_of_none {ts : List Task} (h : ∀ t ∈ ts, t.subject ≠ some k) : Task.Checks k ts := fun t ht hs => absurd hs (h t ht)

theorem Task.Checks.append {us ts : List Task} (hu : Task.Checks k us) (ht : Task.Checks k ts) : Task.Checks k (us ++ ts) :=
  fun t hm hs => (List.mem_append.1 hm).elim (fun hm => hu t hm hs) fun hm => ht t hm hs

theorem Task.MildFor.append {c : Context} {us ts : List Task} (hu : Task.MildFor k c us) (ht : Task.Checks k ts) :
    Task.MildFor k c (us ++ ts) := by
  rcases hu with hu | ⟨vs, rfl, hv, waits⟩
  · exact .inl (hu.append ht)
  · exact .inr ⟨vs ++ ts, rfl, hv.append ht, waits⟩

/-- What a task leaves of a context in its first pass, with the tasks it sets off. -/
structure State.StaysYoung (s : State) (k : Nat) (out : State × List Task) : Prop where
  young : (out.1.ctx k).Young
  apart : (out.1.ctx k).apartSearch = (s.ctx k).apartSearch
  mild : Task.MildFor k (out.1.ctx k) out.2

theorem State.StaysYoung.same {out : State × List Task} (h : (s.ctx k).Young) (same : out.1.ctx k = s.ctx k)
    (none : ∀ u ∈ out.2, u.subject ≠ some k) : s.StaysYoung k out :=
  ⟨by rw [same]; exact h, by rw [same], .inl (Task.checks_of_none none)⟩

theorem lt_of_young (h : (s.ctx k).Young) : k < s.table.contexts.length := by
  obtain ⟨-, r, hr, -⟩ := h
  exact lt_of_search hr

theorem Context.young_of_unoffered {c d : Context} (h : c.Young) (hd : d.unoffered = c.unoffered) : d.Young :=
  ⟨(Context.unoffered_callState hd).trans h.1, h.2.imp fun _ hr => ⟨(Context.unoffered_search hd).trans hr.1, hr.2⟩⟩

/-- A block delivered enters the spare hand of a young search; a WAITING one starts its pass (R91). -/
theorem placeBlock_young (b : Nat) (h : (s.ctx k).Young) : s.StaysYoung k (placeBlock b s) := by
  by_cases head : s.pool.shortfall.head? = some k
  · obtain ⟨rest, queue⟩ : ∃ rest, s.pool.shortfall = k :: rest := List.head?_eq_some_iff.1 head
    have hi := lt_of_young h
    obtain ⟨state, r, hr, waits⟩ := h
    have self : ((s.reserveBlock k b).modSearch k fun r => { r with spare := insertNum b r.spare }).ctx k =
        (s.ctx k).searching { r with spare := insertNum b r.spare } := by
      rw [State.ctx_modSearch_self _ _ _ (by simpa using hi), State.reserveBlock_ctx, hr]
      rfl
    have placed : placeBlock b s = ((s.reserveBlock k b).modSearch k fun r => { r with spare := insertNum b r.spare },
        match r.status with
        | .waiting => [.passStart k, .checkMet k]
        | .inPass => [.checkMet k]) := by
      rw [placeBlock, queue]
      dsimp only
      rw [state, hr] <;> rfl
    rw [placed]
    refine ⟨?_, ?_, ?_⟩ <;> dsimp only <;> rw [self]
    · exact ⟨state, _, rfl, waits⟩
    · rfl
    · split
      · next status => exact .inr ⟨_, rfl, fun t ht _ => List.mem_singleton.1 ht, fun r' hr' => by
          obtain rfl := Option.some.inj hr'
          exact status⟩
      · exact .inl fun t ht _ => List.mem_singleton.1 ht
  · refine .same h (placeBlock_ctx_ne b head) ?_
    unfold placeBlock
    split
    · exact fun _ hu => nomatch hu
    · next j _ queue =>
      have hne : j ≠ k := fun he => head (by rw [queue, he]; rfl)
      split
      · intro u hu
        dsimp only at hu
        split at hu <;> simp only [List.mem_cons, List.not_mem_nil, or_false] at hu
        · rcases hu with rfl | rfl <;> exact fun hs => hne (Option.some.inj hs)
        · rw [hu]
          exact fun hs => hne (Option.some.inj hs)
      · split
        · exact fun _ hu => nomatch hu
        · exact fun _ hu => nomatch hu
      · exact fun _ hu => nomatch hu

theorem State.StaysYoung.of_same {u : State} {out : State × List Task} (h : u.StaysYoung k out) (hu : u.ctx k = s.ctx k) :
    s.StaysYoung k out := ⟨h.young, h.apart.trans (by rw [hu]), h.mild⟩

theorem promoteTask_young (h : (s.ctx k).Young) : s.StaysYoung k (promoteTask s) := by
  unfold promoteTask
  split
  · exact .same h rfl fun _ hu => nomatch hu
  · next b rest _ =>
    have placed : ∀ u : State, u.ctx k = s.ctx k → s.StaysYoung k (placeBlock b u) := fun u hu =>
      (placeBlock_young (s := u) (k := k) b (by rw [hu]; exact h)).of_same hu
    split
    · exact placed _ (State.notify_ctx _ _ _ _)
    · exact placed _ rfl

/-- The pass start of a young search that waits (R82). -/
theorem passStartTask_young (h : (s.ctx k).Young) (reach : 0 < s.reachOf k) (waits : ∀ r, (s.ctx k).search = some r → r.status = .waiting) :
    s.StaysYoung k (passStartTask k s) := by
  have hi := lt_of_young h
  obtain ⟨state, r, hr, unexplored⟩ := h
  have unseen : r.unexplored (s.reachOf k) ≠ [] := by
    have all : r.unexplored (s.reachOf k) = List.range (s.reachOf k) := by
      rw [SearchRecord.unexplored, unexplored (waits r hr)]
      exact List.filter_eq_self.2 fun _ _ => rfl
    rw [all, Ne, List.range_eq_nil]
    omega
  have bound : ∀ pairs, (s.bindAll k pairs).ctx k = s.ctx k := fun pairs => State.bindAll_ctx s k pairs k
  have len : ∀ pairs, k < (s.bindAll k pairs).table.contexts.length := fun pairs => by
    rw [State.bindAll_table]
    exact hi
  rw [passStartTask_eq state hr unseen]
  dsimp only
  split
  · have self : ((s.bindAll k ((r.unexplored (s.reachOf k)).zip r.spare)).modSearch k fun _ => r.passed (s.reachOf k)).ctx k =
        (s.ctx k).searching (r.passed (s.reachOf k)) := by
      rw [State.ctx_modSearch_self _ _ _ (len _), bound, hr]
      rfl
    refine ⟨?_, ?_, .inl (Task.checks_of_none fun _ hu => nomatch hu)⟩ <;> dsimp only <;> rw [self]
    · exact ⟨state, _, rfl, (nomatch ·)⟩
    · rfl
  · have self : ((s.bindAll k ((r.unexplored (s.reachOf k)).zip r.spare)).modSearch k fun _ =>
        { r.passed (s.reachOf k) with want := (r.passed (s.reachOf k)).bound.length }).ctx k =
        (s.ctx k).searching { r.passed (s.reachOf k) with want := (r.passed (s.reachOf k)).bound.length } := by
      rw [State.ctx_modSearch_self _ _ _ (len _), bound, hr]
      rfl
    generalize ((s.bindAll k ((r.unexplored (s.reachOf k)).zip r.spare)).modSearch k fun _ =>
        { r.passed (s.reachOf k) with want := (r.passed (s.reachOf k)).bound.length }) = u at self
    have left := State.unoffered_leaveShortfall u k k
    rw [self] at left
    refine ⟨Context.young_of_unoffered (c := (s.ctx k).searching
        { r.passed (s.reachOf k) with want := (r.passed (s.reachOf k)).bound.length }) ⟨state, _, rfl, (nomatch ·)⟩ left, ?_,
      .inl (Task.checks_of_none (subject_map_release _ k))⟩
    exact congrArg (fun c : Context => { c with search := none }) left

theorem doTask_young {t : Task} {ts : List Task} (h : (s.ctx k).Young) (reach : 0 < s.reachOf k)
    (mild : Task.MildFor k (s.ctx k) (t :: ts)) :
    s.StaysYoung k ((doTask t s).1, (doTask t s).2 ++ ts) := by
  have joined : ∀ {out : State × List Task}, s.StaysYoung k out → Task.Checks k ts → s.StaysYoung k (out.1, out.2 ++ ts) :=
    fun stays later => ⟨stays.young, stays.apart, stays.mild.append later⟩
  rcases mild with checks | ⟨us, split, later, waits⟩
  · have later : Task.Checks k ts := fun u hu => checks u (List.mem_cons_of_mem _ hu)
    refine joined (out := doTask t s) ?_ later
    cases hj : t.subject with
    | some j =>
      by_cases hne : j = k
      · obtain rfl : t = .checkMet k := checks t (List.mem_cons_self ..) (hne ▸ hj)
        simp only [doTask, State.leaveIfMet]
        split
        · have left := State.unoffered_leaveShortfall s k k
          exact ⟨Context.young_of_unoffered h left, congrArg (fun c : Context => { c with search := none }) left,
            .inl (Task.checks_of_none fun _ hu => nomatch hu)⟩
        · exact .same h rfl fun _ hu => nomatch hu
      · exact .same h (doTask_ctx_ne hj hne) fun u hu => doTask_sets_off hj hu hne
    | none =>
      cases t with
      | release b =>
        simp only [doTask, releaseTask]
        split
        · exact (promoteTask_young (by rw [State.noticeRetired_ctx]; exact h)).of_same (State.noticeRetired_ctx _ _ _ _)
        · exact placeBlock_young b h
      | promote => exact promoteTask_young h
      | passStart i => cases hj
      | checkMet i => cases hj
      | searchEnd i => cases hj
      | finishSearch i => cases hj
  · obtain ⟨rfl, rfl⟩ := List.cons.inj split
    exact joined (passStartTask_young h reach waits) later

theorem reachOf_of_apartSearch {t : State} (hp : t.profile = s.profile) (h : (t.ctx k).apartSearch = (s.ctx k).apartSearch) :
    t.reachOf k = s.reachOf k := by
  have serving : (t.ctx k).serving = (s.ctx k).serving := (congrArg Context.serving h :)
  rw [State.reachOf, State.profileOf_congr hp (by rw [serving]), State.reachOf]

/-- Tasks that deliver blocks leave a search in its first pass there (R82, R91). -/
theorem runTasks_young (fuel : Nat) (ts : List Task) {s : State} (h : (s.ctx k).Young) (reach : 0 < s.reachOf k)
    (mild : Task.MildFor k (s.ctx k) ts) :
    ((runTasks fuel ts s).ctx k).Young ∧ ((runTasks fuel ts s).ctx k).apartSearch = (s.ctx k).apartSearch := by
  induction fuel generalizing ts s with
  | zero => exact ⟨h, rfl⟩
  | succ n ih =>
    cases ts with
    | nil => exact ⟨h, rfl⟩
    | cons t ts =>
      have stays := doTask_young h reach mild
      have out := outside_doTask t s
      obtain ⟨young, apart⟩ := ih ((doTask t s).2 ++ ts) (s := (doTask t s).1) stays.young
        (by rw [reachOf_of_apartSearch (State.outside_profile out) stays.apart]; exact reach) stays.mild
      exact ⟨young, apart.trans stays.apart⟩

end Young

end Sys2Proof.Machine

namespace Sys2Proof.Machine

open Sys2Proof

/-! ## What other contexts' acts leave of a context -/

section Beside

variable {s t u : State} {i k : Nat} {sv : Serving}

/-- `t` is `s` after acts beside context i: one that takes no block stands, and one in its first pass stays there. -/
structure State.Beside (i : Nat) (s t : State) : Prop where
  outside : t.outside = s.outside
  fixed : (s.ctx i).TakesNone → t.ctx i = s.ctx i
  young : (s.ctx i).Young → 0 < s.reachOf i → (t.ctx i).Young ∧ (t.ctx i).apartSearch = (s.ctx i).apartSearch

theorem State.Beside.of_same (outside : t.outside = s.outside) (same : t.ctx i = s.ctx i) : s.Beside i t :=
  ⟨outside, fun _ => same, fun h _ => by rw [same]; exact ⟨h, rfl⟩⟩

theorem State.Beside.refl (s : State) : s.Beside i s := .of_same rfl rfl

theorem State.Beside.trans (h : s.Beside i t) (h' : t.Beside i u) : s.Beside i u := by
  refine ⟨h'.outside.trans h.outside, fun fixed => ?_, fun young reach => ?_⟩
  · have same := h.fixed fixed
    exact (h'.fixed (by rw [same]; exact fixed)).trans same
  · obtain ⟨young', apart⟩ := h.young young reach
    obtain ⟨young'', apart'⟩ := h'.young young' (by
      rw [reachOf_of_apartSearch (State.outside_profile h.outside) apart]
      exact reach)
    exact ⟨young'', apart'.trans apart⟩

theorem State.Beside.perform (ts : List Task) (h : ∀ t ∈ ts, t.subject ≠ some i) : s.Beside i (perform ts s) :=
  ⟨outside_runTasks _ _ _, fun fixed => runTasks_takesNone _ _ fixed h,
    fun young reach => runTasks_young _ _ young reach (.inl (Task.checks_of_none h))⟩

theorem State.Beside.modCtx (hk : k ≠ i) (f : Context → Context) : s.Beside i (s.modCtx k f) :=
  .of_same (by simp) (State.ctx_modCtx_ne _ _ _ _ hk)

theorem State.Beside.modServing (hk : k ≠ i) (f : Serving → Serving) : s.Beside i (s.modServing k f) := .modCtx hk _

theorem State.Beside.foldl {α : Type} {f : State → α → State} {l : List α} (hf : ∀ a ∈ l, ∀ s : State, s.Beside i (f s a)) (s : State) :
    s.Beside i (l.foldl f s) := by
  induction l generalizing s with
  | nil => exact .refl s
  | cons a l ih =>
    exact (hf a (List.mem_cons_self ..) s).trans (ih (fun b hb => hf b (List.mem_cons_of_mem _ hb)) (f s a))

theorem requestToSpare_beside (hk : k ≠ i) : s.Beside i (requestToSpare k s).1 := by
  refine .of_same (by simp) ?_
  unfold requestToSpare
  dsimp only
  split
  · rfl
  · split
    · exact State.joinShortfall_ctx s k i
    · have held : ∀ (bs : List Nat) (f : SearchRecord → SearchRecord) (u : State), u.ctx i = s.ctx i →
          ((bs.foldl (fun s b => s.reserveBlock k b) u).modSearch k f).ctx i = s.ctx i := fun bs f u hu => by
        rw [State.ctx_modSearch_ne _ _ _ _ hk, State.ctx_foldl _ (by simp)]
        exact hu
      split
      · rw [State.joinShortfall_ctx]
        exact held _ _ _ rfl
      · exact held _ _ _ rfl

theorem offerIfShort_beside (hk : k ≠ i) (n : Nat) : s.Beside i (offerIfShort k n s) := by
  refine .of_same (by simp) ?_
  unfold offerIfShort makeOffer
  dsimp only
  split
  · split
    · rw [State.enqueue_ctx, State.ctx_modCtx_ne _ _ _ _ hk]
    · rw [State.notify_ctx, State.ctx_modCtx_ne _ _ _ _ hk, State.enqueue_ctx, State.ctx_modCtx_ne _ _ _ _ hk]
  · rfl

theorem startSearch_beside (hk : k ≠ i) : s.Beside i (startSearch k s) := by
  rw [startSearch_eq]
  have asked : s.Beside i (s.asked k) :=
    ((State.Beside.modCtx hk _).trans (requestToSpare_beside hk)).trans (offerIfShort_beside hk _)
  split
  · refine asked.trans (.perform _ fun t ht => ?_)
    rw [List.mem_singleton.1 ht]
    exact fun hs => hk (Option.some.inj hs)
  · exact asked

theorem callStart_beside (hk : k ≠ i) : s.Beside i (callStart k s) := by
  have set : s.Beside i ((s.modCtx k fun c => { c with toneHold := false }).modServing k (callSetUp (s.ctx k).profile
      ((s.modCtx k fun c => { c with toneHold := false }).profileAt (s.ctx k).profile)
      ((s.modCtx k fun c => { c with toneHold := false }).slotOf k))) := (State.Beside.modCtx hk _).trans (.modServing hk _)
  unfold callStart
  dsimp only
  split
  · exact set.trans (.modCtx hk _)
  · exact set.trans (startSearch_beside hk)

theorem cancelOffer_beside (hk : k ≠ i) : s.Beside i (s.cancelOffer k) := .of_same (by simp) (State.ctx_cancelOffer_ne s k i hk)

theorem leaveShortfall_beside (hk : k ≠ i) : s.Beside i (s.leaveShortfall k) := .of_same (by simp) (State.ctx_leaveShortfall_ne s k i hk)

theorem releaseHeld_beside (hk : k ≠ i) : s.Beside i (releaseHeld k s) :=
  (((cancelOffer_beside hk).trans (leaveShortfall_beside hk)).trans (.modCtx hk _)).trans (.perform _ (subject_map_release _ i))

theorem enterPassing_beside (hk : k ≠ i) (st : CallState) : s.Beside i (enterPassing k st s) := by
  have released := (State.Beside.modCtx (s := s) hk fun c => { c with callState := st }).trans (releaseHeld_beside hk)
  unfold enterPassing
  dsimp only
  split
  · exact released
  · exact (released.trans (.modCtx hk _)).trans (.modServing hk _)

/-- A re-judgement of another context (R29). -/
theorem rejudge_beside (hk : k ≠ i) : s.Beside i (rejudge s k) := by
  unfold rejudge
  split
  · exact .refl s
  · split
    · split
      · exact callStart_beside hk
      · exact enterPassing_beside hk _
    · exact .refl s

end Beside

/-! ## RUN entry (R29, R174) -/

section RunEntry

variable {s : State} {i n : Nat} {sv : Serving}

/-- Contexts taken in order: those before i, i itself, and those behind it. -/
theorem range_split (h : i < n) : ∃ before after, List.range n = before ++ i :: after ∧ i ∉ before ∧ i ∉ after := by
  obtain ⟨before, after, split⟩ := List.append_of_mem (List.mem_range.2 h)
  have nodup := split ▸ List.nodup_range (n := n)
  have parts := List.nodup_append.1 nodup
  refine ⟨before, after, split, fun hb => ?_, (List.nodup_cons.1 parts.2.1).1⟩
  exact parts.2.2 i hb i (List.mem_cons_self ..) rfl

/-- The station in RUN with its absence counts at 0, before the contexts are re-judged (R174, R157). -/
def State.enteredRun (s : State) : State :=
  clearAbsence { s with profile := { s.profile with station := .run, runReached := true, runAccepted := none } }

theorem enterRun_eq (s : State) : enterRun s = (List.range 64).foldl rejudge s.enteredRun := rfl

theorem outside_rejudges (l : List Nat) (s : State) : (l.foldl rejudge s).outside = s.outside :=
  State.outside_foldl rejudge outside_rejudge l s

/-- RUN entry or the end of CONFIG's time, when due, is the entry to RUN (R174, R177). -/
theorem exec_enterRun {c : Instr} (inConfig : s.profile.station = .config)
    (due : (c = .runEntry ∧ ∃ f, s.profile.runAccepted = some f ∧ f < s.frame)
      ∨ (c = .configTimeout ∧ s.profile.runAccepted = none ∧ 8000 ≤ s.profile.configFrames)) :
    exec c s = .next (enterRun s) := by
  rcases due with ⟨rfl, f, accepted, passed⟩ | ⟨rfl, none, frames⟩
  · have due : runEntryDue s = true := by simp [runEntryDue, inConfig, accepted, passed]
    exact congrArg Host.Outcome.next (if_pos due)
  · have due : configTimeoutDue s = true := by simp [configTimeoutDue, inConfig, none, Config.configFrames, frames]
    exact congrArg Host.Outcome.next (if_pos due)

/-- Context i and what its re-judgement at RUN entry makes of it, in any state (R27, R29). -/
structure Rejudged (p : Profile) (index : Nat) (c d : Context) (sv : Serving) : Prop where
  transparent : c.transparent = true → d = c
  idle : c.transparent = false → sv.callPresent = false → d.callState = .idle ∧ d.search = none ∧ d.toneHold = false
  starts : c.transparent = false → sv.callPresent = true → 1 ≤ p.reach → ∃ slot,
    d.callState = (if p.budget = 0 then .track else .search) ∧ d.toneHold = false ∧ d.frozen = c.frozen
      ∧ d.serving = some (callSetUp index p slot sv)

theorem rejudged_of_fold (hsv : (s.ctx i).serving = some sv) (hs : s.serves i = true) (hb : (s.ctx i).callState = .bypass) (hi : i < n) :
    Rejudged (s.profileAt (s.ctx i).profile) (s.ctx i).profile (s.ctx i) (((List.range n).foldl rejudge s).ctx i) sv := by
  obtain ⟨before, after, split, no_before, no_after⟩ := range_split hi
  have others : ∀ {l : List Nat}, i ∉ l → ∀ s : State, s.Beside i (l.foldl rejudge s) := fun h =>
    State.Beside.foldl fun k hk s => rejudge_beside fun he => h (he ▸ hk)
  rw [split, List.foldl_append, List.foldl_cons]
  have first := others no_before s
  have same : (before.foldl rejudge s).ctx i = s.ctx i := first.fixed (Context.takesNone_of_passes (by rw [hb]; rfl))
  have outside := first.outside
  generalize before.foldl rejudge s = u at same outside
  have last := others no_after (rejudge u i)
  have hsv' : (u.ctx i).serving = some sv := by rw [same]; exact hsv
  have hs' : u.serves i = true := by
    rw [State.serves, same, State.outside_profile outside]
    exact hs
  have profile : u.profileAt (u.ctx i).profile = s.profileAt (s.ctx i).profile := by
    rw [same, State.profileAt, State.outside_profile outside]
    rfl
  have judged := fun ht => rejudge_of_bypass hsv' hs' (by rw [same]; exact hb) (by rw [same]; exact ht)
  refine ⟨fun ht => ?_, fun ht absent => ?_, fun ht present reach => ?_⟩
  · have stays : rejudge u i = u := rejudge_of_not fun ⟨_, _, opaque_⟩ => by
      rw [same, ht] at opaque_
      cases opaque_
    rw [stays] at last ⊢
    rw [last.fixed (by rw [same]; exact Context.takesNone_of_passes (by rw [hb]; rfl)), same]
  · have idle := enterPassing_ctx (s := u) (st := .idle) (State.lt_of_serving hsv') rfl
    rw [judged ht, if_neg (by rw [absent]; exact Bool.false_ne_true)] at last ⊢
    have state : ((enterPassing i .idle u).ctx i).callState = .idle := Context.unoffered_callState idle
    rw [last.fixed (Context.takesNone_of_passes (by rw [state]; rfl))]
    exact ⟨state, Context.unoffered_search idle, Context.unoffered_toneHold idle⟩
  · rw [judged ht, if_pos present] at last ⊢
    obtain ⟨r, start, record, -⟩ := callStart_ctx hsv' (by rw [profile]; exact reach)
    have parts : u.callParts i sv = callSetUp (s.ctx i).profile (s.profileAt (s.ctx i).profile) (u.slotOf i) sv := by
      rw [State.callParts, profile, same]
    rw [profile, parts, same] at start
    rw [profile] at record
    have state := Context.unoffered_callState start
    by_cases hB : (s.profileAt (s.ctx i).profile).budget = 0
    · have track : ((callStart i u).ctx i).search = some (newSearch 0) := by
        rw [callStart_eq hsv', if_pos (by rw [profile]; exact hB), State.ctx_modCtx_self _ _ _ (by
          rw [State.outside_contexts (outside_callSet u i)]
          exact State.lt_of_serving hsv')]
      dsimp only at state
      rw [if_pos hB] at state ⊢
      have none_taken : ((callStart i u).ctx i).TakesNone := by
        refine ⟨fun hc => ?_, fun r _ hr => ?_⟩
        · rw [state] at hc
          cases hc
        · obtain rfl := Option.some.inj (track.symm.trans hr)
          rfl
      rw [last.fixed none_taken]
      exact ⟨_, state, Context.unoffered_toneHold start, (congrArg Context.frozen start :), Context.unoffered_serving start⟩
    · dsimp only at state
      rw [if_neg hB] at state ⊢
      have index : ((callStart i u).ctx i).serving = some (callSetUp (s.ctx i).profile (s.profileAt (s.ctx i).profile) (u.slotOf i) sv) :=
        Context.unoffered_serving start
      have reaches : (callStart i u).reachOf i = (s.profileAt (s.ctx i).profile).reach := by
        have out := (outside_callStart i u).trans outside
        rw [State.reachOf, State.profileOf, index, State.profileAt, State.outside_profile out]
        rfl
      obtain ⟨young, apart⟩ := last.young ⟨state, r, Context.unoffered_search start, record.waiting⟩ (by rw [reaches]; exact reach)
      exact ⟨_, young.1, (congrArg Context.toneHold apart :).trans (Context.unoffered_toneHold start),
        (congrArg Context.frozen apart :).trans (congrArg Context.frozen start :), (congrArg Context.serving apart :).trans index⟩

end RunEntry

end Sys2Proof.Machine

namespace Sys2Proof.Machine

open Sys2Proof

/-! ## The requests of RUN entry (R81, R101, R112, R158) -/

section RunRequests

variable {s t u : State} {p : Profile} {i k m n : Nat} {X : List Nat} {sv : Serving}

/-- What a call start leaves of its own context, its blocks and its messages (R81, R82, R101, R112, R158). -/
structure State.StartedIn (s : State) (p : Profile) (i n : Nat) (X : List Nat) (t : State) : Prop where
  search : (t.ctx i).search = some (.starting p.budget p.reach X)
  role : n = p.budget ∨ (s.ctx i).role ≠ .homeServing → (t.ctx i).role = (s.ctx i).role ∧ (t.ctx i).offer = (s.ctx i).offer
  offers : n < p.budget → (s.ctx i).role = .homeServing →
    (t.ctx i).role = .homeOffering ∧ (t.ctx i).offer = some ⟨none, none⟩ ∧ s.offerEntry p i ∈ t.lane.queue
  bound : ∀ jb ∈ (List.range p.reach).zip X, (t.tapBlock jb.2).BoundTo ⟨i, s.slotOf i⟩ jb.1
  notice : n < p.budget → maskBit s.profile.noticeMask 3 = true →
    ⟨.notice 3 (BitVec.ofNat 16 (s.slotOf i % 128 * 512 + (p.budget - n) % 32 * 16)) s.me, s.frame, none⟩ ∈ t.lane.queue

theorem State.SearchStarts.startedIn (h : s.SearchStarts p i n X t) : s.StartedIn p i n X t :=
  ⟨h.search, h.role, h.offers, h.bound, h.notice⟩

theorem State.StartedIn.stays (h : s.StartedIn p i n X t) (self : u.ctx i = t.ctx i) (blocks : ∀ b ∈ X, u.tapBlock b = t.tapBlock b)
    (keeps : ∀ e ∈ t.lane.queue, e ∈ u.lane.queue) : s.StartedIn p i n X u := by
  obtain ⟨search, role, offers, bound, notice⟩ := h
  refine ⟨by rw [self]; exact search, fun hc => by rw [self]; exact role hc, fun short home => ?_, fun jb hjb => ?_,
    fun short mask => keeps _ (notice short mask)⟩
  · obtain ⟨offering, offer, entry⟩ := offers short home
    exact ⟨by rw [self]; exact offering, by rw [self]; exact offer, keeps _ entry⟩
  · rw [blocks jb.2 (List.of_mem_zip (a := jb.1) (b := jb.2) hjb).2]
    exact bound jb hjb

/-- The same start read from a state that agrees on what it names. -/
theorem State.StartedIn.of_same (h : u.StartedIn p i n X t) (self : u.ctx i = s.ctx i)
    (mask : u.profile.noticeMask = s.profile.noticeMask) (me : u.me = s.me) (frame : u.frame = s.frame) : s.StartedIn p i n X t := by
  have slot : u.slotOf i = s.slotOf i := by rw [State.slotOf, self, State.slotOf]
  have entry : u.offerEntry p i = s.offerEntry p i := by rw [State.offerEntry, slot, self, me, frame, State.offerEntry]
  obtain ⟨search, role, offers, bound, notice⟩ := h
  rw [self] at role offers
  rw [entry] at offers
  rw [slot] at bound notice
  rw [mask, me, frame] at notice
  exact ⟨search, role, offers, bound, notice⟩

/-! ### One context -/

/-- Entry to IDLE of a context that neither searches, waits nor offers touches that context alone (R25). -/
theorem enterPassing_quiet {st : CallState} (search : (s.ctx i).search = none) (waits : i ∉ s.pool.shortfall)
    (offer : ¬((s.ctx i).role = .homeOffering ∧ (s.ctx i).stopAt = none)) :
    (enterPassing i st s).pool = s.pool ∧ (enterPassing i st s).lane = s.lane ∧ ∀ k, k ≠ i → (enterPassing i st s).ctx k = s.ctx k := by
  have cancelled : (s.modCtx i fun c => { c with callState := st }).cancelOffer i = s.modCtx i fun c => { c with callState := st } := by
    refine if_neg fun hc => offer ?_
    have role := State.ctx_modCtx_proj (fun c => (c.role, c.stopAt)) s i i (fun c => { c with callState := st }) fun _ => rfl
    exact ⟨(congrArg Prod.fst role).symm.trans hc.1, (congrArg Prod.snd role).symm.trans hc.2⟩
  have left : (s.modCtx i fun c => { c with callState := st }).leaveShortfall i = s.modCtx i fun c => { c with callState := st } :=
    if_neg (by simpa using waits)
  have searchless : ((s.modCtx i fun c => { c with callState := st }).ctx i).search = none :=
    (State.ctx_modCtx_proj Context.search s i i (fun c => { c with callState := st }) fun _ => rfl).trans search
  have released : releaseHeld i (s.modCtx i fun c => { c with callState := st }) =
      (s.modCtx i fun c => { c with callState := st }).modCtx i fun c => { c with search := none } := by
    rw [releaseHeld, cancelled, left, searchless]
    exact runTasks_nil _ _
  unfold enterPassing
  dsimp only
  rw [released]
  split
  · refine ⟨rfl, rfl, fun k hk => ?_⟩
    rw [State.ctx_modCtx_ne _ _ _ _ hk.symm, State.ctx_modCtx_ne _ _ _ _ hk.symm]
  · refine ⟨rfl, rfl, fun k hk => ?_⟩
    rw [clearTone, State.ctx_modServing_ne _ _ _ _ hk.symm, State.ctx_modCtx_ne _ _ _ _ hk.symm, State.ctx_modCtx_ne _ _ _ _ hk.symm,
      State.ctx_modCtx_ne _ _ _ _ hk.symm]

/-- A call start with a budget of 0 touches its context alone (R26). -/
theorem callStart_budgetless (hsv : (s.ctx i).serving = some sv) (hB : (s.profileAt (s.ctx i).profile).budget = 0) :
    (callStart i s).pool = s.pool ∧ (callStart i s).lane = s.lane ∧ ∀ k, k ≠ i → (callStart i s).ctx k = s.ctx k := by
  rw [callStart_eq hsv, if_pos hB]
  refine ⟨rfl, rfl, fun k hk => ?_⟩
  rw [State.ctx_modCtx_ne _ _ _ _ hk.symm, State.callSet, State.ctx_modServing_ne _ _ _ _ hk.symm, State.ctx_modCtx_ne _ _ _ _ hk.symm]

/-! ### The contexts in order -/

/-- The blocks a start of context i at RUN entry obtains, in ascending number. -/
def State.runHand (s : State) (i : Nat) : List Nat :=
  sortNums ((s.pool.fifo.drop (s.requestedBefore i)).take (min (s.profileAt (s.ctx i).profile).budget
    (s.pool.fifo.drop (s.requestedBefore i)).length))

/-- Context i's start at RUN entry on the blocks behind those of the contexts before it (R81, R101). -/
def State.RunStarted (s : State) (i : Nat) (t : State) : Prop :=
  s.StartedIn (s.profileAt (s.ctx i).profile) i
    (min (s.profileAt (s.ctx i).profile).budget (s.pool.fifo.drop (s.requestedBefore i)).length) (s.runHand i) t

/-- The contexts below m that wait for blocks. -/
def State.shortBefore (s : State) (m : Nat) : List Nat :=
  (List.range m).filter fun k => s.startsAtRun k
    && decide (s.pool.fifo.length < s.requestedBefore k + (s.profileAt (s.ctx k).profile).budget)

/-- RUN entry with the contexts below m re-judged. -/
structure State.RunProgress (s : State) (m : Nat) (u : State) : Prop where
  outside : u.outside = s.enteredRun.outside
  fifo : u.pool.fifo = s.pool.fifo.drop (s.requestedBefore m)
  shortfall : u.pool.shortfall = s.shortBefore m
  queue : u.lane.queue.length ≤ s.lane.queue.length + 2 * ((List.range m).filter s.startsAtRun).length
  rest : ∀ k, m ≤ k → u.ctx k = s.ctx k
  started : ∀ i < m, s.startsAtRun i = true → s.RunStarted i u

theorem requestedBefore_succ (m : Nat) : s.requestedBefore (m + 1) =
    s.requestedBefore m + if s.startsAtRun m = true then (s.profileAt (s.ctx m).profile).budget else 0 := by
  rw [State.requestedBefore, List.range_succ, List.filter_append, List.map_append, List.sum_append, State.requestedBefore]
  cases h : s.startsAtRun m <;> simp [h]

theorem requestedBefore_mono {m m' : Nat} (h : m ≤ m') : s.requestedBefore m ≤ s.requestedBefore m' := by
  induction m', h using Nat.le_induction with
  | base => exact Nat.le_refl _
  | succ m' _ ih =>
    rw [requestedBefore_succ]
    omega

theorem startsAtRun_iff : s.startsAtRun i = true ↔ (s.ctx i).role.serves = true ∧ (s.ctx i).callState = .bypass
    ∧ (s.ctx i).transparent = false ∧ (∃ sv, (s.ctx i).serving = some sv ∧ sv.callPresent = true)
    ∧ 0 < (s.profileAt (s.ctx i).profile).budget := by
  have present : (s.ctx i).serving.elim false (·.callPresent) = true ↔ ∃ sv, (s.ctx i).serving = some sv ∧ sv.callPresent = true := by
    cases (s.ctx i).serving <;> simp
  rw [← present]
  simp [State.startsAtRun, and_assoc]

/-- A context that waits at RUN entry has found the FIFO exhausted. -/
theorem fifo_empty_of_short (h : s.shortBefore m ≠ []) : s.pool.fifo.drop (s.requestedBefore m) = [] := by
  obtain ⟨k, hk⟩ := List.exists_mem_of_ne_nil _ h
  obtain ⟨lt, short⟩ := List.mem_filter.1 hk
  rw [Bool.and_eq_true, decide_eq_true_eq] at short
  have later := requestedBefore_mono (s := s) (Nat.succ_le_of_lt (List.mem_range.1 lt))
  rw [requestedBefore_succ, if_pos short.1] at later
  refine List.drop_eq_nil_of_le ?_
  omega

section Steps

variable (sound : s.poolSound) (inConfig : s.profile.station = .config)
include sound inConfig

/-- In CONFIG no context searches, none waits, and no offer is open (R25, R26, R158). -/
theorem config_quiet : s.pool.shortfall = [] ∧ (∀ k, (s.ctx k).search = none)
    ∧ ∀ k, ¬((s.ctx k).role = .homeOffering ∧ (s.ctx k).stopAt = none) := by
  obtain ⟨-, -, -, -, -, -, -, -, -, takes, offering, -, searches, -⟩ := sound
  have none : ∀ k, (s.ctx k).search = none := fun k => by
    cases hr : (s.ctx k).search with
    | none => rfl
    | some r =>
      have run := (searches k (by rw [hr]; rfl)).1
      rw [inConfig] at run
      cases run
  have empty : s.pool.shortfall = [] := List.eq_nil_iff_forall_not_mem.2 fun h hm => by
    rcases takes h hm with ⟨-, some⟩ | ⟨-, r, some, -⟩
    · rw [none] at some
      cases some
    · rw [none] at some
      cases some
  refine ⟨empty, none, fun k ⟨role, stop⟩ => ?_⟩
  have waits := offering k role stop
  rw [empty] at waits
  cases waits

/-- A context that requests nothing at RUN entry touches no other, no block and no queue. -/
theorem runProgress_passes (h : s.RunProgress m u) (none : s.startsAtRun m = false) :
    s.RunProgress (m + 1) (rejudge u m) := by
  obtain ⟨empty, search, offer⟩ := config_quiet sound inConfig
  have same := h.rest m (Nat.le_refl m)
  have quiet : (rejudge u m).pool = u.pool ∧ (rejudge u m).lane = u.lane ∧ ∀ k, k ≠ m → (rejudge u m).ctx k = u.ctx k := by
    unfold rejudge
    split
    · exact ⟨rfl, rfl, fun _ _ => rfl⟩
    · next sv hsv =>
      split
      · next due =>
        obtain ⟨bypass, serves, opaque_⟩ := due
        split
        · next present =>
          refine callStart_budgetless hsv ?_
          by_contra hB
          rw [same] at hsv bypass opaque_
          have role : (s.ctx m).role.serves = true := by
            rw [State.serves, same] at serves
            simp only [Bool.and_eq_true] at serves
            exact serves.1.1
          have profile : u.profileAt (u.ctx m).profile = s.profileAt (s.ctx m).profile := by
            rw [same, State.profileAt, State.outside_profile h.outside]
            rfl
          rw [profile] at hB
          have starts := startsAtRun_iff.2 ⟨role, bypass, by simpa using opaque_, ⟨sv, hsv, present⟩, Nat.pos_of_ne_zero hB⟩
          rw [none] at starts
          cases starts
        · refine enterPassing_quiet (by rw [same]; exact search m) ?_ (by rw [same]; exact offer m)
          rw [h.shortfall]
          exact fun hm => Nat.lt_irrefl m (List.mem_range.1 (List.mem_filter.1 hm).1)
      · exact ⟨rfl, rfl, fun _ _ => rfl⟩
  obtain ⟨pool, lane, others⟩ := quiet
  have read : ∀ b, (rejudge u m).tapBlock b = u.tapBlock b := fun b => by rw [State.tapBlock, pool, State.tapBlock]
  refine ⟨(outside_rejudge u m).trans h.outside, ?_, ?_, ?_, fun k hk => ?_, fun i hi starts => ?_⟩
  · rw [pool, h.fifo, requestedBefore_succ, none]
    rfl
  · rw [pool, h.shortfall, State.shortBefore, State.shortBefore, List.range_succ, List.filter_append]
    simp [none]
  · rw [lane, List.range_succ, List.filter_append]
    have := h.queue
    simpa [none] using this
  · rw [others k (by omega), h.rest k (by omega)]
  · rcases Nat.lt_succ_iff_lt_or_eq.1 hi with lt | rfl
    · exact (h.started i lt starts).stays (others i (by omega)) (fun b _ => read b) (by rw [lane]; exact fun _ he => he)
    · rw [none] at starts
      cases starts

omit sound inConfig in
theorem mem_runHand {b : Nat} (h : b ∈ s.runHand i) : b ∈ (s.pool.fifo.drop (s.requestedBefore i)).take (s.profileAt (s.ctx i).profile).budget := by
  refine (List.take_sublist_take_left (Nat.min_le_left _ _)).mem ((Laws.mem_sortNums _ _).1 h)

omit inConfig in
/-- The blocks of two starts are different blocks. -/
theorem runHand_disjoint {b : Nat} (lt : i < m) (starts : s.startsAtRun i = true) (hi : b ∈ s.runHand i) : b ∉ s.runHand m := by
  intro hm
  have nodup := sound.2.2.1
  have before := requestedBefore_mono (s := s) (Nat.succ_le_of_lt lt)
  rw [requestedBefore_succ, if_pos starts] at before
  have first : b ∈ s.pool.fifo.take (s.requestedBefore m) := by
    have mem := mem_runHand hi
    rw [List.take_drop] at mem
    have mem' := (List.drop_sublist _ _).mem mem
    exact (List.take_sublist_take_left before).mem mem'
  have second : b ∈ s.pool.fifo.drop (s.requestedBefore m) := (List.take_sublist _ _).mem (mem_runHand hm)
  rw [← List.take_append_drop (s.requestedBefore m) s.pool.fifo] at nodup
  exact (List.nodup_append.1 nodup).2.2 b first b second rfl

omit inConfig in
/-- A context that starts its call requests its budget behind those before it. -/
theorem runProgress_starts (h : s.RunProgress m u) (starts : s.startsAtRun m = true)
    (fits : (s.profileAt (s.ctx m).profile).budget ≤ (s.profileAt (s.ctx m).profile).reach)
    (room : s.lane.queue.length + 2 * ((List.range (m + 1)).filter s.startsAtRun).length ≤ 16) :
    s.RunProgress (m + 1) (rejudge u m) := by
  obtain ⟨role, bypass, opaque_, ⟨sv, hsv, present⟩, hB⟩ := startsAtRun_iff.1 starts
  have same := h.rest m (Nat.le_refl m)
  have free := poolSound_freeSound sound
  have profile := State.outside_profile h.outside
  have serves : u.serves m = true := by
    rw [State.serves, same, profile, hsv, role]
    rfl
  have judged : rejudge u m = callStart m u := by
    rw [rejudge_of_bypass (sv := sv) (by rw [same]; exact hsv) serves (by rw [same]; exact bypass) (by rw [same]; exact opaque_),
      if_pos present]
  have inUse : u.profileAt (u.ctx m).profile = s.profileAt (s.ctx m).profile := by
    rw [same, State.profileAt, profile]
    rfl
  have counted : ((List.range (m + 1)).filter s.startsAtRun).length = ((List.range m).filter s.startsAtRun).length + 1 := by
    simp [List.range_succ, starts]
  have queue := h.queue
  have shortfall := h.shortfall
  have obtained : min (s.profileAt (s.ctx m).profile).budget (s.pool.fifo.drop (s.requestedBefore m)).length =
      if u.pool.shortfall = [] then min (s.profileAt (s.ctx m).profile).budget u.pool.fifo.length else 0 := by
    rw [h.fifo, shortfall]
    split
    · rfl
    · next waits =>
      rw [fifo_empty_of_short waits]
      exact Nat.min_zero _
  have blocks : u.pool.blocks.length = s.pool.blocks.length := congrArg (·.2.2) h.outside
  have begins := callStart_starts (s := u) (i := m) (by rw [same]; exact hsv) inUse hB
    (by rw [profile]; rfl) obtained (by omega)
    (by rw [shortfall]; exact fun hm => Nat.lt_irrefl m (List.mem_range.1 (List.mem_filter.1 hm).1))
    (by rw [h.fifo]; exact free.nodup.sublist (List.drop_sublist _ _))
    (fun b hb => blocks ▸ free.inPool b ((List.drop_sublist _ _).mem (h.fifo ▸ hb))) (by omega)
  rw [h.fifo] at begins
  rw [judged]
  refine ⟨(outside_callStart m u).trans h.outside, ?_, ?_, ?_, fun k hk => ?_, fun i hi starts' => ?_⟩
  · rw [begins.fifo, h.fifo, requestedBefore_succ, if_pos starts, List.drop_drop]
    by_cases enough : (s.profileAt (s.ctx m).profile).budget ≤ (s.pool.fifo.drop (s.requestedBefore m)).length
    · rw [Nat.min_eq_left enough]
    · rw [Nat.min_eq_right (by omega), List.length_drop] at *
      rw [List.drop_eq_nil_of_le (by omega), List.drop_eq_nil_of_le (by omega)]
  · have short : (min (s.profileAt (s.ctx m).profile).budget (s.pool.fifo.drop (s.requestedBefore m)).length <
        (s.profileAt (s.ctx m).profile).budget) ↔ s.pool.fifo.length < s.requestedBefore m + (s.profileAt (s.ctx m).profile).budget := by
      rw [List.length_drop]
      omega
    rw [begins.shortfall, if_congr short rfl rfl, shortfall, State.shortBefore, State.shortBefore, List.range_succ, List.filter_append]
    by_cases lack : s.pool.fifo.length < s.requestedBefore m + (s.profileAt (s.ctx m).profile).budget <;> simp [starts, lack]
  · have := begins.queue
    omega
  · rw [begins.others k (by omega), h.rest k (by omega)]
  · rcases Nat.lt_succ_iff_lt_or_eq.1 hi with lt | rfl
    · exact (h.started i lt starts').stays (begins.others i (by omega))
        (fun b hb => begins.stand b (runHand_disjoint sound lt starts' hb)) begins.keeps
    · exact begins.startedIn.of_same same (by rw [profile]; rfl) (by rw [State.me, profile]; rfl) ((State.outside_frame h.outside).trans rfl)

/-- RUN entry with the contexts below m re-judged, one after another. -/
theorem runProgress_foldl (fits : ∀ k < 64, s.startsAtRun k = true →
      (s.profileAt (s.ctx k).profile).budget ≤ (s.profileAt (s.ctx k).profile).reach)
    (room : s.lane.queue.length + 2 * ((List.range 64).filter s.startsAtRun).length ≤ 16) (hm : m ≤ 64) :
    s.RunProgress m ((List.range m).foldl rejudge s.enteredRun) := by
  obtain ⟨empty, -⟩ := config_quiet sound inConfig
  induction m with
  | zero =>
    exact ⟨rfl, rfl, empty, Nat.le_refl _, fun _ _ => rfl, fun i hi => absurd hi (Nat.not_lt_zero i)⟩
  | succ m ih =>
    have before := ih (by omega)
    rw [List.range_succ, List.foldl_append, List.foldl_cons, List.foldl_nil]
    cases starts : s.startsAtRun m with
    | false => exact runProgress_passes sound inConfig before starts
    | true =>
      refine runProgress_starts sound before starts (fits m (by omega) starts) (Nat.le_trans ?_ room)
      have more := ((List.range_sublist.2 hm).filter s.startsAtRun).length_le
      omega

end Steps

end RunRequests

/-- Settles O21: the contexts are re-judged in order; each finds the FIFO as those before it left it. -/
theorem runEntryRejudges : Obligations.RunEntryRejudges := by
  intro s c inConfig due
  refine ⟨enterRun s, exec_enterRun inConfig due, ?_⟩
  have outside : (enterRun s).outside = s.enteredRun.outside := outside_rejudges _ _
  have profile := State.outside_profile outside
  have share := State.outside_share outside
  have highway := State.outside_highway outside
  refine ⟨congrArg (·.station) profile, congrArg (·.runReached) profile, congrArg (·.profiles) profile, highway, fun slot => ?_,
    fun i hi sv hsv role bypass => ?_, fun sound fits room => ?_⟩
  · rw [share]
    exact (List.getD_eq_getElem?_getD ..).trans (List.getElem?_getD_replicate_default_eq _ _ _)
  · have serves : s.enteredRun.serves i = true := by
      have hsv' : (s.enteredRun.ctx i).serving = some sv := hsv
      rw [State.serves, hsv']
      exact (congrArg (fun b => b && true && true) role).trans rfl
    obtain ⟨transparent, idle, starts⟩ := rejudged_of_fold (s := s.enteredRun) hsv serves bypass hi
    refine ⟨transparent, idle, fun ht present reach => ?_⟩
    obtain ⟨slot, state, hold, frozen, parts⟩ := starts ht present reach
    exact ⟨_, parts, state, hold, frozen, present, rfl, rfl, rfl, rfl, rfl, rfl, rfl, rfl, rfl, rfl, rfl, rfl, rfl⟩
  · obtain ⟨-, fifo, shortfall, -, -, started⟩ := runProgress_foldl (m := 64) sound inConfig fits room (Nat.le_refl 64)
    rw [enterRun_eq]
    refine ⟨fifo, shortfall, fun i hi starts => ?_⟩
    have free := poolSound_freeSound sound
    obtain ⟨search, role, offers, bound, notice⟩ := started i hi starts
    have perm := sortNums_perm (free.nodup.sublist ((List.take_sublist (min (s.profileAt (s.ctx i).profile).budget
      (s.pool.fifo.drop (s.requestedBefore i)).length) _).trans (List.drop_sublist (s.requestedBefore i) _)))
    have length := perm.length_eq
    rw [List.length_take, Nat.min_assoc, Nat.min_self] at length
    obtain ⟨want, dwell, retained, spare, explored, segments, hand, pass, waiting⟩ := SearchRecord.starting_startedOn
      (B := (s.profileAt (s.ctx i).profile).budget) (reach := (s.profileAt (s.ctx i).profile).reach) length
      (Nat.le_trans (Nat.min_le_left _ _) (fits i hi starts))
    refine ⟨_, search, want, dwell, retained, spare, explored, segments, ?_, ?_, fun jb hjb => ?_, pass, waiting, role, notice,
      fun short home => ?_⟩
    · rw [State.runHand, hand]
      exact perm
    · rw [State.runHand, hand]
      exact sortNums_sorted _
    · have mem : jb ∈ (List.range (s.profileAt (s.ctx i).profile).reach).zip (s.runHand i) := by
        unfold SearchRecord.starting at hjb
        split at hjb
        · cases hjb
        · rwa [SearchRecord.first_bound] at hjb
      obtain ⟨state, owner, segment, entries⟩ := bound jb mem
      exact ⟨state, owner, segment, entries⟩
    · obtain ⟨offering, offer, entry⟩ := offers short home
      have same : BitVec.ofBool (s.ctx i).frozen = if (s.ctx i).frozen = true then 1 else 0 := by cases (s.ctx i).frozen <;> rfl
      rw [State.offerEntry, same] at entry
      exact ⟨offering, offer, entry⟩

end Sys2Proof.Machine

namespace Sys2Proof.Machine

open Sys2Proof

/-! ## Lanes in which messages only join (R150, R151) -/

section Joins

variable {s t u : State} {e : Entry} {q : List Entry}

/-- `t` is `s` after messages were to join the queue: what stands there and is neither NOTICE nor REPORT stays, and the drop count
only rises. -/
structure State.OnlyJoins (s t : State) : Prop where
  stays : ∀ e ∈ s.lane.queue, e.msg.kind ≠ 3 → e.msg.kind ≠ 4 → e ∈ t.lane.queue
  rises : min 65535 s.lane.drops ≤ min 65535 t.lane.drops
  bounded : t.lane.drops = s.lane.drops ∨ t.lane.drops ≤ 65535

theorem State.OnlyJoins.of_lane (h : t.lane = s.lane) : s.OnlyJoins t := by
  refine ⟨fun e he _ _ => ?_, ?_, .inl ?_⟩ <;> rw [h]
  exact he

theorem State.OnlyJoins.trans (h : s.OnlyJoins t) (h' : t.OnlyJoins u) : s.OnlyJoins u := by
  refine ⟨fun e he h3 h4 => h'.stays e (h.stays e he h3 h4) h3 h4, Nat.le_trans h.rises h'.rises, ?_⟩
  rcases h'.bounded with same | le
  · rw [same]
    exact h.bounded
  · exact .inr le

theorem mem_removeNewest {rank : Nat} (he : e ∈ q) (hk : e.msg.kind ≠ rank) : e ∈ removeNewest rank q := by
  unfold removeNewest
  rw [List.mem_reverse, List.mem_eraseP_of_neg (by simpa using hk)]
  exact List.mem_reverse.2 he

/-- To a message that joins only a NOTICE or a REPORT gives way (R151). -/
theorem mem_joinQueueWith_of_mem (x : Entry) (he : e ∈ q) (h3 : e.msg.kind ≠ 3) (h4 : e.msg.kind ≠ 4) : e ∈ (joinQueueWith x q).1 := by
  obtain ⟨-, hj⟩ | ⟨-, -, -, hj⟩ | ⟨-, -, -, -, hj⟩ | ⟨-, hj⟩ := joinQueueWith_cases x q <;> rw [hj]
  · exact (mem_insertEntry _ _ _).2 (.inr he)
  · exact (mem_insertEntry _ _ _).2 (.inr (mem_removeNewest he h3))
  · exact (mem_insertEntry _ _ _).2 (.inr (mem_removeNewest he h4))
  · exact he

theorem State.enqueue_onlyJoins (s : State) (e : Entry) : s.OnlyJoins (s.enqueue e).1 := by
  have drops : (s.enqueue e).1.lane.drops = min 65535 (s.lane.drops + (joinQueueWith e s.lane.queue).2.2) := rfl
  refine ⟨fun x hx h3 h4 => mem_joinQueueWith_of_mem e hx h3 h4, ?_, .inr ?_⟩ <;> rw [drops] <;> omega

/-- A message joins or is dropped and counted (R151). -/
theorem State.enqueue_or_drops (s : State) (e : Entry) :
    e ∈ (s.enqueue e).1.lane.queue ∨ (s.enqueue e).1.lane.drops = min 65535 (s.lane.drops + 1) := by
  have drops : (s.enqueue e).1.lane.drops = min 65535 (s.lane.drops + (joinQueueWith e s.lane.queue).2.2) := rfl
  rw [State.enqueue_queue, drops]
  obtain ⟨-, hj⟩ | ⟨-, -, -, hj⟩ | ⟨-, -, -, -, hj⟩ | ⟨-, hj⟩ := joinQueueWith_cases e s.lane.queue <;> rw [hj]
  · exact .inl ((mem_insertEntry _ _ _).2 (.inl rfl))
  · exact .inl ((mem_insertEntry _ _ _).2 (.inl rfl))
  · exact .inl ((mem_insertEntry _ _ _).2 (.inl rfl))
  · exact .inr rfl

theorem State.enqueue_length_le (s : State) (e : Entry) : (s.enqueue e).1.lane.queue.length ≤ s.lane.queue.length + 1 := by
  rw [State.enqueue_queue]
  obtain ⟨-, hj⟩ | ⟨-, -, h3, hj⟩ | ⟨-, -, -, h4, hj⟩ | ⟨-, hj⟩ := joinQueueWith_cases e s.lane.queue <;> rw [hj]
  · exact (insertEntry_length _ _).le
  · have := removeNewest_length 3 _ h3
    rw [insertEntry_length]
    omega
  · have := removeNewest_length 4 _ h4
    rw [insertEntry_length]
    omega
  · exact Nat.le_succ _

/-- A message dropped between two moments shows in the drop count, or the count stands at its end. -/
theorem State.OnlyJoins.dropped (before : s.OnlyJoins t) (drops : u.lane.drops = min 65535 (t.lane.drops + 1)) {v : State}
    (behind : u.OnlyJoins v) : s.lane.drops < v.lane.drops ∨ v.lane.drops = 65535 := by
  have := before.rises
  have := behind.rises
  have := behind.bounded
  omega

end Joins

/-! ## The end of LISTEN (R169, R174) -/

section Listen

variable {s u : State} {i k n slot : Nat}

/-- The slot is held elsewhere as far as the LISTEN record tells (R169). -/
def Sharing.held (sh : Sharing) (slot : Nat) : Bool :=
  sh.listenMarks.getLsbD slot || sh.listenAdopt.getLsbD slot || sh.listenAdopt'.getLsbD slot

/-- Context i is a home whose slot is held elsewhere. -/
def State.reclaims (s : State) (i : Nat) : Bool := decide ((s.ctx i).kind = .home) && (s.ctx i).slot.elim false s.share.held

/-- A home context that reclaims its slot (R169). -/
def Context.reclaimingFrom (c : Context) (frame : Nat) : Context := { c with role := .reclaiming, reclaim := some ⟨0, none, frame⟩ }

theorem judgeHome_held (kind : (s.ctx i).kind = .home) (hslot : (s.ctx i).slot = some slot) (held : s.share.held slot = true) :
    judgeHome s i = ((s.modCtx i fun c => c.reclaimingFrom (s.frame + 1)).enqueue
      ⟨.reclaim (BitVec.ofNat 7 slot) s.me, s.frame, none⟩).1 := by
  unfold judgeHome
  dsimp only
  rw [kind, hslot]
  exact if_pos held

theorem judgeHome_unheld (kind : (s.ctx i).kind = .home) (hslot : (s.ctx i).slot = some slot) (held : s.share.held slot = false) :
    judgeHome s i = servingStart i none s := by
  unfold judgeHome
  dsimp only
  rw [kind, hslot]
  exact if_neg (by rw [← Sharing.held, held]; exact Bool.false_ne_true)

theorem judgeHome_other (h : (s.ctx i).kind ≠ .home ∨ (s.ctx i).slot = none) : judgeHome s i = s := by
  unfold judgeHome
  dsimp only
  split
  · next kind hslot =>
    rcases h with h | h
    · exact absurd kind h
    · rw [h] at hslot
      cases hslot
  · rfl

/-- A context after a serving start that takes no offer (R23). -/
def State.servingFrom (s : State) (i : Nat) : Context :=
  { s.ctx i with
    serving := some (startedParts i s), search := none, toneHold := false
    callState := if (s.ctx i).transparent || s.profile.station != .run then .bypass else .idle }

/-- What a judgement of home contexts leaves (R169). -/
structure State.HomesJudged (s : State) (n : Nat) (u : State) : Prop where
  share : u.share = s.share
  profile : u.profile = s.profile
  frame : u.frame = s.frame
  length : u.table.contexts.length = s.table.contexts.length
  joins : s.OnlyJoins u
  queue : u.lane.queue.length ≤ s.lane.queue.length + n

theorem State.HomesJudged.trans {v : State} {m : Nat} (h : s.HomesJudged n u) (h' : u.HomesJudged m v) : s.HomesJudged (n + m) v :=
  ⟨h'.share.trans h.share, h'.profile.trans h.profile, h'.frame.trans h.frame, h'.length.trans h.length, h.joins.trans h'.joins, by
    have := h.queue
    have := h'.queue
    omega⟩

theorem judgeHome_judged (i : Nat) (s : State) : s.HomesJudged (s.reclaims i).toNat (judgeHome s i)
    ∧ ∀ k, k ≠ i → (judgeHome s i).ctx k = s.ctx k := by
  have stands : s.HomesJudged 0 s := ⟨rfl, rfl, rfl, rfl, .of_lane rfl, Nat.le_refl _⟩
  have weaker : ∀ {m : Nat} {t : State}, s.HomesJudged 0 t → s.HomesJudged m t := fun h =>
    ⟨h.share, h.profile, h.frame, h.length, h.joins, Nat.le_trans h.queue (Nat.le_add_right _ _)⟩
  by_cases home : (s.ctx i).kind = .home
  · cases hslot : (s.ctx i).slot with
    | none =>
      rw [judgeHome_other (.inr hslot)]
      exact ⟨weaker stands, fun _ _ => rfl⟩
    | some slot =>
      cases held : s.share.held slot with
      | true =>
        have one : (s.reclaims i).toNat = 1 := by simp [State.reclaims, home, hslot, held]
        rw [judgeHome_held home hslot held, one]
        refine ⟨⟨rfl, rfl, rfl, ?_, ?_, ?_⟩, fun k hk => ?_⟩
        · rw [State.enqueue_table, State.modCtx_contexts_length]
        · exact State.OnlyJoins.trans (t := s.modCtx i fun c => c.reclaimingFrom (s.frame + 1)) (.of_lane rfl) (State.enqueue_onlyJoins _ _)
        · exact State.enqueue_length_le (s.modCtx i fun c => c.reclaimingFrom (s.frame + 1)) _
        · rw [State.enqueue_ctx, State.ctx_modCtx_ne _ _ _ _ hk.symm]
      | false =>
        obtain ⟨-, lane, share, profile, frame, -⟩ := servingStart_none_fields i s
        have length : (servingStart i none s).table.contexts.length = s.table.contexts.length := by
          simp [servingStart, State.clearPipeline]
        rw [judgeHome_unheld home hslot held]
        exact ⟨weaker ⟨share, profile, frame, length, .of_lane lane, by rw [lane]; exact Nat.le_refl _⟩,
          fun k hk => servingStart_none_ctx_ne i s hk⟩
  · rw [judgeHome_other (.inl home)]
    exact ⟨weaker stands, fun _ _ => rfl⟩

/-- The judgement of contexts in order: those not named stand, and a RECLAIM is queued at most for each that reclaims. -/
theorem judgeHomes_judged (l : List Nat) (nodup : l.Nodup) (s : State) : s.HomesJudged (l.filter s.reclaims).length (l.foldl judgeHome s)
    ∧ ∀ k, k ∉ l → (l.foldl judgeHome s).ctx k = s.ctx k := by
  induction l generalizing s with
  | nil => exact ⟨⟨rfl, rfl, rfl, rfl, .of_lane rfl, Nat.le_refl _⟩, fun _ _ => rfl⟩
  | cons i l ih =>
    obtain ⟨fresh, nodup⟩ := List.nodup_cons.1 nodup
    obtain ⟨first, others⟩ := judgeHome_judged i s
    obtain ⟨rest, others'⟩ := ih nodup (judgeHome s i)
    have alike : l.filter (judgeHome s i).reclaims = l.filter s.reclaims := List.filter_congr fun k hk => by
      rw [State.reclaims, others k (fun he => fresh (he ▸ hk)), first.share, State.reclaims]
    rw [alike] at rest
    have count : ((i :: l).filter s.reclaims).length = (s.reclaims i).toNat + (l.filter s.reclaims).length := by
      rw [List.filter_cons]
      cases s.reclaims i <;> simp [Nat.add_comm]
    rw [List.foldl_cons, count]
    exact ⟨first.trans rest, fun k hk => (others' k fun hm => hk (List.mem_cons_of_mem _ hm)).trans
      (others k fun he => hk (he ▸ List.mem_cons_self ..))⟩

/-- The station as the home contexts are judged (R174). -/
def State.listened (s : State) : State :=
  clearAbsence { s with profile := { s.profile with
    station := if s.profile.runReached then .run else .config, configFrames := 0, runAccepted := none } }

theorem endListen_eq (s : State) : endListen s = (List.range 64).foldl judgeHome s.listened := rfl

/-- The judgement of one home context among the others. -/
theorem judgeHomes_at (hi : i < n) (len : n ≤ s.table.contexts.length) (kind : (s.ctx i).kind = .home) (hslot : (s.ctx i).slot = some slot) :
    (s.share.held slot = true →
      ((List.range n).foldl judgeHome s).ctx i = (s.ctx i).reclaimingFrom (s.frame + 1)
      ∧ (s.lane.queue.length + ((List.range n).filter s.reclaims).length ≤ 16 →
          ⟨.reclaim (BitVec.ofNat 7 slot) s.me, s.frame, none⟩ ∈ ((List.range n).foldl judgeHome s).lane.queue)
      ∧ (⟨.reclaim (BitVec.ofNat 7 slot) s.me, s.frame, none⟩ ∈ ((List.range n).foldl judgeHome s).lane.queue
          ∨ s.lane.drops < ((List.range n).foldl judgeHome s).lane.drops
          ∨ ((List.range n).foldl judgeHome s).lane.drops = 65535))
    ∧ (s.share.held slot = false → ((List.range n).foldl judgeHome s).ctx i = s.servingFrom i) := by
  obtain ⟨before, after, split, no_before, no_after⟩ := range_split hi
  have nodup := split ▸ List.nodup_range (n := n)
  obtain ⟨nodup_before, nodup_behind, -⟩ := List.nodup_append.1 nodup
  rw [split, List.foldl_append, List.foldl_cons]
  obtain ⟨first, same⟩ := judgeHomes_judged before nodup_before s
  have self := same i no_before
  generalize before.foldl judgeHome s = u at first self
  obtain ⟨last, stands⟩ := judgeHomes_judged after (List.nodup_cons.1 nodup_behind).2 (judgeHome u i)
  have self' := stands i no_after
  have hi' : i < u.table.contexts.length := by
    rw [first.length]
    omega
  have me : u.me = s.me := by rw [State.me, first.profile, State.me]
  refine ⟨fun held => ?_, fun unheld => ?_⟩
  · have judged := judgeHome_held (s := u) (by rw [self]; exact kind) (by rw [self]; exact hslot) (by rw [first.share]; exact held)
    rw [me, first.frame] at judged
    rw [judged] at last self' ⊢
    have reclaims : (before ++ i :: after).filter s.reclaims = before.filter s.reclaims ++ i :: after.filter s.reclaims := by
      rw [List.filter_append, List.filter_cons, if_pos]
      simp [State.reclaims, kind, hslot, held]
    have behind := last.joins
    have joined : ∀ e : Entry, e.msg.kind = 10 → e ∈ ((u.modCtx i fun c => c.reclaimingFrom (s.frame + 1)).enqueue e).1.lane.queue →
        ∀ v : State, State.OnlyJoins ((u.modCtx i fun c => c.reclaimingFrom (s.frame + 1)).enqueue e).1 v → e ∈ v.lane.queue :=
      fun e rank he v hv => hv.stays e he (by rw [rank]; decide) (by rw [rank]; decide)
    refine ⟨?_, fun room => ?_, ?_⟩
    · rw [self', State.enqueue_ctx, State.ctx_modCtx_self _ _ _ hi', self]
    · rw [reclaims, List.length_append, List.length_cons] at room
      have queue := first.queue
      refine joined _ rfl ?_ _ behind
      rw [(State.enqueue_of_room (u.modCtx i fun c => c.reclaimingFrom (s.frame + 1)) _
        (show u.lane.queue.length < 16 by omega)).1]
      exact (mem_insertEntry _ _ _).2 (.inl rfl)
    · rcases State.enqueue_or_drops (u.modCtx i fun c => c.reclaimingFrom (s.frame + 1))
        ⟨.reclaim (BitVec.ofNat 7 slot) s.me, s.frame, none⟩ with he | drops
      · exact .inl (joined _ rfl he _ behind)
      · exact .inr (first.joins.dropped (t := u) drops behind)
  · have judged := judgeHome_unheld (s := u) (by rw [self]; exact kind) (by rw [self]; exact hslot) (by rw [first.share]; exact unheld)
    rw [self', judged, servingStart_none_ctx i u hi', State.servingFrom, startedParts, startedParts, self, State.profileAt, first.profile,
      State.slotOf, self]
    rfl

end Listen

/-- Settles O20: the home contexts are judged in order, each beside the others. -/
theorem listenEndJudgesHomes : Obligations.ListenEndJudgesHomes := by
  intro s listen frames len
  have due : listenEndDue s = true := by simp [listenEndDue, listen, Config.listenFrames, frames]
  obtain ⟨judged, -⟩ := judgeHomes_judged (List.range 64) List.nodup_range s.listened
  have ended : exec .listenEnd s = .next (endListen s) := congrArg Host.Outcome.next (if_pos due)
  rw [← endListen_eq] at judged
  refine ⟨endListen s, ended, congrArg (·.station) judged.profile, judged.frame, fun i hi slot kind hslot => ?_⟩
  obtain ⟨reclaims, serves⟩ := judgeHomes_at (s := s.listened) (n := 64) hi len.ge kind hslot
  rw [← endListen_eq] at reclaims serves
  refine ⟨fun held => ?_, fun unheld => ?_⟩
  · obtain ⟨self, room, joins⟩ := reclaims held
    refine ⟨by rw [self]; rfl, by rw [self]; rfl, fun _ le => room le, fun below => ?_⟩
    refine joins.imp_left fun he => ⟨_, he, ?_⟩
    simp [Entry.isReclaim, Nat.mod_eq_of_lt below]
  · have self := serves unheld
    refine ⟨by rw [self]; rfl, ?_, startedParts i s.listened, by rw [self]; rfl, rfl, rfl, rfl, rfl⟩
    have state : (s.listened.servingFrom i).callState =
        if (s.ctx i).transparent || (if s.profile.runReached then StationState.run else .config) != .run then .bypass else .idle := rfl
    rw [self, state]
    cases s.profile.runReached <;> cases (s.ctx i).transparent <;> rfl

end Sys2Proof.Machine

namespace Sys2Proof.Machine

open Sys2Proof

/-! ## What the judgements of a frame boundary keep of the station (R138, R152, R157 to R170) -/

/-- What the judgements of a boundary leave as its marks were taken: the frame, the sync state, the records of the lane, its counts
of cells, the profiles and the absence counts. -/
def State.edge (s : State) : (Nat × SyncState × BitVec 128 × BitVec 128) × (Nat × Nat × Nat) × ProfileTable × List Nat :=
  ((s.frame, s.highway.sync, s.lane.markRecord, s.lane.ownRecord), (s.lane.discards, s.lane.clashes, s.lane.surplus), s.profile,
    s.share.absence)

section Edge

variable {s t : State}

theorem State.edge_frame (h : t.edge = s.edge) : t.frame = s.frame := congrArg (·.1.1) h
theorem State.edge_sync (h : t.edge = s.edge) : t.highway.sync = s.highway.sync := congrArg (·.1.2.1) h
theorem State.edge_markRecord (h : t.edge = s.edge) : t.lane.markRecord = s.lane.markRecord := congrArg (·.1.2.2.1) h
theorem State.edge_ownRecord (h : t.edge = s.edge) : t.lane.ownRecord = s.lane.ownRecord := congrArg (·.1.2.2.2) h
theorem State.edge_cells (h : t.edge = s.edge) :
    (t.lane.discards, t.lane.clashes, t.lane.surplus) = (s.lane.discards, s.lane.clashes, s.lane.surplus) := congrArg (·.2.1) h
theorem State.edge_profile (h : t.edge = s.edge) : t.profile = s.profile := congrArg (·.2.2.1) h
theorem State.edge_absence (h : t.edge = s.edge) : t.share.absence = s.share.absence := congrArg (·.2.2.2) h

theorem State.edge_of_outside (h : t.outside = s.outside) : t.edge = s.edge := (congrArg (·.1.edge) h :)

end Edge

/-- A message that a boundary's judgements may queue: no BID, a GRANT for the frame that begins, and an ADOPT for a slot without a
mark (R161, R167). -/
def State.Fresh (s : State) (e : Entry) : Prop :=
  e.msg.kind ≠ 12 ∧ (e.msg.kind = 13 → e.eligible = s.frame) ∧ ∀ slot < 128, e.isAdopt slot = true → s.lane.markRecord.getLsbD slot = false

/-- `t` is `s` after judgements of a boundary: its edge stands, only fresh messages have joined the queue, the RETURNs in it stand,
the drop count only rises, and no offer is remembered anew. -/
structure State.Judges (s t : State) : Prop where
  edge : t.edge = s.edge
  joined : ∀ e ∈ t.lane.queue, e ∈ s.lane.queue ∨ s.Fresh e
  returns : ∀ e ∈ s.lane.queue, e.msg.kind = 14 → e ∈ t.lane.queue
  rises : min 65535 s.lane.drops ≤ min 65535 t.lane.drops
  bounded : t.lane.drops = s.lane.drops ∨ t.lane.drops ≤ 65535
  memory : ∀ slot m, t.share.offers.getD slot none = some m → s.share.offers.getD slot none = some m

theorem Entry.not_isReclaim {slot : Nat} {e : Entry} (h : e.msg.kind ≠ 10) : e.isReclaim slot = false := by
  unfold Entry.isReclaim
  split
  · next hm => exact absurd (by rw [hm]; rfl) h
  · rfl

theorem Entry.not_isBid {slot : Nat} {e : Entry} (h : e.msg.kind ≠ 12) : e.isBid slot = false := by
  unfold Entry.isBid
  split
  · next hm => exact absurd (by rw [hm]; rfl) h
  · rfl

theorem Entry.not_isGrant {slot : Nat} {e : Entry} (h : e.msg.kind ≠ 13) : e.isGrant slot = false :=
  Bool.eq_false_iff.2 fun hg => h (Entry.kind_of_isGrant hg)

theorem State.notify_onlyJoins (s : State) (kind : Nat) (fs : List Field) : s.OnlyJoins (s.notify kind fs) := by
  unfold State.notify
  split
  · exact s.enqueue_onlyJoins _
  · exact .of_lane rfl

/-- Tasks only raise the drop count (R153). -/
theorem State.OnlyNotices.drops_rise {s t : State} (h : s.OnlyNotices t) :
    min 65535 s.lane.drops ≤ min 65535 t.lane.drops ∧ (t.lane.drops = s.lane.drops ∨ t.lane.drops ≤ 65535) := by
  induction h with
  | of_lane h => rw [h]; exact ⟨Nat.le_refl _, .inl rfl⟩
  | same _ hu ih => rw [hu]; exact ih
  | @notify u _ kind fs ih =>
    have joins := u.notify_onlyJoins kind fs
    exact ⟨Nat.le_trans ih.1 joins.rises, joins.bounded.elim (fun same => by rw [same]; exact ih.2) .inr⟩
  | @recalled t _ slot ih =>
    have same : (t.recall fun e => e.isOffer slot || e.isGrant slot).lane.drops = t.lane.drops := by
      unfold State.recall
      split <;> rfl
    rw [same]
    exact ih

theorem Entry.kind_of_isAdopt {slot : Nat} {e : Entry} (h : e.isAdopt slot = true) : e.msg.kind = 11 := by
  unfold Entry.isAdopt at h
  split at h
  · next hm => rw [hm]; rfl
  · cases h

namespace State.Judges

variable {s t u : State}

theorem of_queue (edge : t.edge = s.edge) (queue : t.lane.queue = s.lane.queue) (drops : t.lane.drops = s.lane.drops)
    (offers : t.share.offers = s.share.offers) : s.Judges t :=
  ⟨edge, fun e he => .inl (queue ▸ he), fun e he _ => queue ▸ he, by rw [drops], .inl drops, fun _ _ h => offers ▸ h⟩

theorem of_lane (edge : t.edge = s.edge) (lane : t.lane = s.lane) (offers : t.share.offers = s.share.offers) : s.Judges t :=
  .of_queue edge (by rw [lane]) (by rw [lane]) offers

theorem refl (s : State) : s.Judges s := .of_lane rfl rfl rfl

theorem trans (h : s.Judges t) (h' : t.Judges u) : s.Judges u := by
  have fresh : ∀ e, t.Fresh e → s.Fresh e := fun e he => by
    rw [State.Fresh, ← State.edge_frame h.edge, ← State.edge_markRecord h.edge]
    exact he
  refine ⟨h'.edge.trans h.edge, fun e he => ?_, fun e he hk => h'.returns e (h.returns e he hk) hk, Nat.le_trans h.rises h'.rises, ?_,
    fun slot m hm => h.memory slot m (h'.memory slot m hm)⟩
  · rcases h'.joined e he with he | he
    · exact h.joined e he
    · exact .inr (fresh e he)
  · rcases h'.bounded with same | le
    · rw [same]
      exact h.bounded
    · exact .inr le

theorem ite {p : Prop} [Decidable p] (h : s.Judges t) (h' : s.Judges u) : s.Judges (if p then t else u) := by
  split
  · exact h
  · exact h'

theorem foldl {α : Type} {f : State → α → State} (hf : ∀ (s : State) a, s.Judges (f s a)) (l : List α) (s : State) :
    s.Judges (l.foldl f s) := by
  induction l generalizing s with
  | nil => exact .refl s
  | cons a l ih => exact (hf s a).trans (ih _)

theorem eachContext {act : Nat → State → State} (h : ∀ (i : Nat) (s : State), s.Judges (act i s)) (s : State) :
    s.Judges (eachContext act s) := foldl (fun s i => h i s) _ s

theorem eachSlot {act : Nat → State → State} (h : ∀ (slot : Nat) (s : State), s.Judges (act slot s)) (s : State) :
    s.Judges (eachSlot act s) := foldl (fun s i => h i s) _ s

theorem modCtx (s : State) (i : Nat) (f : Context → Context) : s.Judges (s.modCtx i f) :=
  .of_lane (State.edge_of_outside (by simp)) rfl rfl

theorem enqueue (s : State) {e : Entry} (fresh : s.Fresh e) : s.Judges (s.enqueue e).1 := by
  have joins := s.enqueue_onlyJoins e
  exact ⟨State.edge_of_outside (by simp), fun x hx => (mem_of_mem_joinQueueWith hx).symm.imp_right fun (he : x = e) => he ▸ fresh,
    fun x hx hk => joins.stays x hx (by rw [hk]; decide) (by rw [hk]; decide), joins.rises, joins.bounded, fun _ _ hm => hm⟩


theorem fresh_of_kind {e : Entry} (hb : e.msg.kind ≠ 12) (hg : e.msg.kind ≠ 13) (ha : e.msg.kind ≠ 11) : s.Fresh e :=
  ⟨hb, fun h => absurd h hg, fun _ _ h => absurd (Entry.kind_of_isAdopt h) ha⟩

theorem send (s : State) {m : Msg} (hb : m.kind ≠ 12) (hg : m.kind ≠ 13) (ha : m.kind ≠ 11) : s.Judges (s.send m) :=
  enqueue s (fresh_of_kind hb hg ha)

theorem notify (s : State) (kind : Nat) (fs : List Field) : s.Judges (s.notify kind fs) := by
  unfold State.notify
  split
  · exact send s (show (3 : Nat) ≠ 12 by decide) (show (3 : Nat) ≠ 13 by decide) (show (3 : Nat) ≠ 11 by decide)
  · exact refl s

theorem withdraw (s : State) {p : Entry → Bool} (hp : ∀ e : Entry, e.msg.kind = 14 → p e = false) : s.Judges (s.withdraw p) :=
  ⟨rfl, fun e he => .inl ((State.mem_withdraw s p e).1 he).1, fun e he hk => (State.mem_withdraw s p e).2 ⟨he, hp e hk⟩, Nat.le_refl _,
    .inl rfl, fun _ _ hm => hm⟩

theorem recallEntries (s : State) {p : Entry → Bool} (hp : ∀ e : Entry, e.msg.kind = 14 → p e = false) : s.Judges (s.recall p) := by
  unfold State.recall
  split
  · exact withdraw s hp
  · exact .of_queue rfl rfl rfl rfl

theorem of_onlyNotices (h : s.OnlyNotices t) (out : t.outside = s.outside) : s.Judges t :=
  ⟨State.edge_of_outside out, fun e he => (h.mem_queue he).symm.imp_right fun hk => fresh_of_kind (by rw [hk]; decide) (by rw [hk]; decide) (by rw [hk]; decide),
    fun e he hk => h.queue_stays he (by rw [hk]; decide) (by rw [hk]; decide), h.drops_rise.1, h.drops_rise.2,
    fun _ _ hm => by rw [State.outside_share out] at hm; exact hm⟩

theorem perform (s : State) (ts : List Task) : s.Judges (perform ts s) :=
  of_onlyNotices (perform_onlyNotices ts s) (by simp)

theorem clearPipeline (s : State) (slot : Nat) : s.Judges (s.clearPipeline slot) := .of_lane rfl rfl rfl

theorem enterPassing (s : State) (i : Nat) (st : CallState) : s.Judges (enterPassing i st s) :=
  of_onlyNotices ((State.OnlyNotices.refl s).enterPassing i st) (by simp)

theorem freeGuestAt (s : State) (i : Nat) : s.Judges (s.freeGuestAt i) := by
  unfold State.freeGuestAt
  split <;> exact .of_lane rfl rfl rfl

/-! ### Serving starts and stops -/

theorem startTaker (i : Nat) (bypass : Bool) (s : State) : s.Judges (startTaker i bypass s) := by
  unfold Machine.startTaker
  dsimp only
  split
  · exact (modCtx s i _).trans (perform _ _)
  · exact ((modCtx s i _).trans (perform _ _)).trans (perform _ _)

theorem servingStart (i : Nat) (offered : Option Nat) (s : State) : s.Judges (servingStart i offered s) := by
  unfold Machine.servingStart
  dsimp only
  split
  · exact ((clearPipeline s _).trans (modCtx _ i _)).trans (startTaker i _ _)
  · exact ((clearPipeline s _).trans (modCtx _ i _)).trans (modCtx _ i _)

theorem servingStop (i : Nat) (s : State) : s.Judges (servingStop i s) := by
  have entered := enterPassing s i .notServing
  unfold Machine.servingStop
  dsimp only
  generalize Machine.enterPassing i .notServing s = u at entered
  exact entered.trans ((clearPipeline u _).trans (modCtx _ i _))

theorem serveAgain (i : Nat) (s : State) : s.Judges (serveAgain i s) :=
  ((withdraw s fun e hk => Entry.not_isReclaim (by rw [hk]; decide)).trans (modCtx _ i _)).trans (servingStart i none _)

/-! ### The judgements -/

theorem onHeld {act : Nat → State → State} (h : ∀ i s, State.Judges s (act i s)) (slot : Nat) (s : State) :
    s.Judges (onHeld slot act s) := by
  unfold Machine.onHeld
  split
  · exact h _ s
  · exact refl s

theorem withdrawBid (i : Nat) (s : State) : s.Judges (withdrawBid i s) := by
  unfold Machine.withdrawBid
  dsimp only
  split
  · exact ((withdraw s fun e hk => Entry.not_isBid (by rw [hk]; decide)).trans (freeGuestAt _ i)).trans (perform _ _)
  · exact refl s

theorem expireBid (slot : Nat) (s : State) : s.Judges (expireBid slot s) := by
  refine ite ((withdraw s fun e hk => ?_).trans (onHeld withdrawBid slot _)) (refl s)
  rw [Entry.not_isBid (by rw [hk]; decide), Bool.false_and]

theorem offerUnplaced (i : Nat) (s : State) : s.Judges (offerUnplaced i s) := (modCtx s i _).trans (notify _ _ _)

theorem failOffer (i : Nat) (s : State) : s.Judges (failOffer i s) := ite (offerUnplaced i s) (refl s)

theorem expireGrant (slot : Nat) (s : State) : s.Judges (expireGrant slot s) := by
  refine ite ((withdraw s fun e hk => ?_).trans (onHeld failOffer slot _)) (refl s)
  rw [Entry.not_isGrant (by rw [hk]; decide), Bool.false_and]

theorem endOfferWindow (i : Nat) (s : State) : s.Judges (endOfferWindow i s) := by
  unfold Machine.endOfferWindow
  dsimp only
  split
  · split
    · split
      · next o _ _ _ taker _ _ =>
        have granted := enqueue s (e := ⟨.grant (BitVec.ofNat 7 (s.slotOf i)) (BitVec.ofNat 4 taker) s.me, s.frame, some o⟩)
          ⟨show (13 : Nat) ≠ 12 by decide, fun _ => rfl, fun _ _ h => nomatch h⟩
        exact ite granted (granted.trans (offerUnplaced i _))
      · exact offerUnplaced i s
    · exact refl s
  · exact refl s

theorem timeOutBid (i : Nat) (s : State) : s.Judges (timeOutBid i s) := by
  unfold Machine.timeOutBid
  split
  · exact ite (withdrawBid i s) (refl s)
  · exact refl s

theorem expireOfferMemory (slot : Nat) (s : State) : s.Judges (expireOfferMemory slot s) := by
  unfold Machine.expireOfferMemory
  split
  · refine ite ⟨rfl, fun _ he => .inl he, fun _ he _ => he, Nat.le_refl _, .inl rfl, fun other m hm => ?_⟩ (refl s)
    dsimp only at hm
    rw [List.getD_eq_getElem?_getD, List.getElem?_set] at hm
    split at hm
    · split at hm <;> cases hm
    · rw [List.getD_eq_getElem?_getD]
      exact hm
  · exact refl s

theorem sendReturn (i : Nat) (s : State) : s.Judges (sendReturn i s) :=
  send s (show (14 : Nat) ≠ 12 by decide) (show (14 : Nat) ≠ 13 by decide) (show (14 : Nat) ≠ 11 by decide)

theorem queueReturn (i : Nat) (s : State) : s.Judges (queueReturn i s) := ite (sendReturn i s) (refl s)

theorem judgeAbsence (i : Nat) (s : State) : s.Judges (judgeAbsence i s) := ite (serveAgain i s) (refl s)

theorem ageReclaim (i : Nat) (s : State) : s.Judges (ageReclaim i s) := modCtx s i _

theorem requeueReclaim (i : Nat) (s : State) : s.Judges (requeueReclaim i s) := by
  unfold Machine.requeueReclaim
  dsimp only
  split
  · exact ite (send s (show (10 : Nat) ≠ 12 by decide) (show (10 : Nat) ≠ 13 by decide) (show (10 : Nat) ≠ 11 by decide)) (refl s)
  · exact refl s

theorem judgeAdoption (slot : Nat) (s : State) : s.Judges (judgeAdoption slot s) := by
  refine ite (refl s) ?_
  split
  · next i _ _ =>
    have engaged : s.Judges ((s.setDirectory slot (some i)).setCtx i { freeGuest with slot := some slot, role := .actingHome }) :=
      .of_lane rfl rfl rfl
    exact engaged.trans (servingStart i none _)
  · exact send s (show (14 : Nat) ≠ 12 by decide) (show (14 : Nat) ≠ 13 by decide) (show (14 : Nat) ≠ 11 by decide)

theorem judgeAdopt (slot : Nat) (s : State) : s.Judges (judgeAdopt slot s) := by
  have judged : s.Judges { s with share := { s.share with adopting := s.share.adopting.filter (·.1 != slot) } } := .of_lane rfl rfl rfl
  exact ite (judged.trans (judgeAdoption slot _)) (refl s)

theorem boundaryHomes (s : State) : s.Judges (boundaryHomes s) :=
  ((eachContext judgeAbsence s).trans (eachContext ageReclaim _)).trans (eachContext requeueReclaim _)

/-! ### Hand-overs -/

theorem handOverStop (i : Nat) (s : State) : s.Judges (handOverStop i s) := by
  unfold Machine.handOverStop
  split
  · refine ((withdraw s fun e hk => ?_).trans (modCtx _ i _)).trans (servingStop i _)
    exact Entry.not_offered (by rw [hk]; decide) (by rw [hk]; decide) _
  · exact ((modCtx s i _).trans (servingStop i _)).trans (freeGuestAt _ i)

theorem handOverStart (i : Nat) (s : State) : s.Judges (handOverStart i s) := by
  unfold Machine.handOverStart
  split
  · exact modCtx s i _
  · exact serveAgain i s
  · exact (modCtx s i _).trans (servingStart i _ _)

theorem handOver (i : Nat) (s : State) : s.Judges (handOver i s) := by
  have stopped : ∀ p : Prop, [Decidable p] → s.Judges (if p then Machine.handOverStop i s else s) := fun p _ =>
    ite (handOverStop i s) (refl s)
  exact ite ((stopped _).trans (handOverStart i _)) (stopped _)

end State.Judges
end Sys2Proof.Machine

namespace Sys2Proof.Machine

open Sys2Proof

/-! ## The marks of a frame boundary (R6, R138) -/

section Marks

variable {s : State} {slot : Nat}

theorem getLsbD_twoPow (k slot : Nat) : (BitVec.ofNat 128 (2 ^ k)).getLsbD slot = (decide (slot < 128) && decide (k = slot)) := by
  rw [BitVec.getLsbD_ofNat, Nat.testBit_two_pow]

/-- Marks set slot by slot. -/
theorem getLsbD_marksOf (served : Nat → Bool) (n : Nat) (h : slot < 128) :
    ((List.range n).foldl (fun (m : BitVec 128) k => if served k then m ||| BitVec.ofNat 128 (2 ^ k) else m) 0).getLsbD slot =
      (decide (slot < n) && served slot) := by
  induction n with
  | zero => simp
  | succ n ih =>
    rw [List.range_succ, List.foldl_append, List.foldl_cons, List.foldl_nil]
    by_cases hn : n = slot
    · subst hn
      rw [decide_eq_true (Nat.lt_succ_self n), Bool.true_and]
      split
      · next hs => rw [BitVec.getLsbD_or, getLsbD_twoPow, hs]; simp [h]
      · next hs => rw [ih]; simp [Bool.not_eq_true _ ▸ hs]
    · have below : decide (slot < n + 1) = decide (slot < n) := decide_eq_decide.2 (by omega)
      rw [below, ← ih]
      split
      · rw [BitVec.getLsbD_or, getLsbD_twoPow]; simp [hn]
      · rfl

/-- The station marks the slots it serves. -/
theorem marks_getLsbD (s : State) (h : slot < 128) : s.marks.getLsbD slot = (s.servedBy slot).isSome := by
  rw [State.marks, Config.slots]
  exact (getLsbD_marksOf (fun k => (s.servedBy k).isSome) 128 h).trans (by rw [decide_eq_true h, Bool.true_and])

end Marks

/-- The edge of a boundary but for the profiles and the absence counts, which RUN entry and the end of LISTEN set. -/
def State.rim (s : State) : (Nat × SyncState × BitVec 128 × BitVec 128) × Nat × Nat × Nat := (s.edge.1, s.edge.2.1)

section Rim

variable {s t : State}

theorem State.Judges.rim (h : s.Judges t) : t.rim = s.rim := (congrArg (fun e => (e.1, e.2.1)) h.edge :)

theorem State.rim_of_outside (h : t.outside = s.outside) : t.rim = s.rim := (congrArg (·.1.rim) h :)

theorem enterRun_rim (s : State) : (enterRun s).rim = s.rim := by
  rw [enterRun_eq]
  exact (State.rim_of_outside (outside_rejudges _ s.enteredRun)).trans rfl

theorem judgeHome_judges (i : Nat) (s : State) : s.Judges (judgeHome s i) := by
  unfold judgeHome
  dsimp only
  split
  · split
    · exact (State.Judges.modCtx s i _).trans
        (State.Judges.send _ (show (10 : Nat) ≠ 12 by decide) (show (10 : Nat) ≠ 13 by decide) (show (10 : Nat) ≠ 11 by decide))
    · exact State.Judges.servingStart i none s
  · exact .refl s

theorem endListen_rim (s : State) : (endListen s).rim = s.rim := by
  rw [endListen_eq]
  exact (State.Judges.foldl (fun s i => judgeHome_judges i s) _ s.listened).rim

theorem boundaryListen_rim (s : State) : (boundaryListen s).rim = s.rim := by
  unfold boundaryListen
  dsimp only
  split
  · rw [endListen_rim]
    rfl
  · rfl

/-- The station with the CONFIG frames counted (R177). -/
def State.configCounted (s : State) : State :=
  { s with profile := { s.profile with configFrames := countUp 8000 s.profile.configFrames } }

theorem boundaryConfig_rim (s : State) : (boundaryConfig s).rim = s.rim := by
  have homes : (boundaryHomes s.configCounted).rim = s.rim := (State.Judges.boundaryHomes s.configCounted).rim
  have split : boundaryConfig s = if runEntryDue (boundaryHomes s.configCounted) then enterRun (boundaryHomes s.configCounted)
      else ifDue configTimeoutDue enterRun (boundaryHomes s.configCounted) := rfl
  rw [split]
  generalize boundaryHomes s.configCounted = u at homes
  unfold ifDue
  split
  · exact (enterRun_rim u).trans homes
  · split
    · exact (enterRun_rim u).trans homes
    · exact homes

/-- A RUN boundary before the absence counts rise (R152, R157, R160, R161, R164, R166, R170). -/
def boundaryCalls (s : State) : State :=
  boundaryHomes (eachContext queueReturn (eachSlot expireOfferMemory (eachContext timeOutBid (eachContext endOfferWindow
    (eachSlot expireGrant (eachSlot expireBid (expireAdopts s)))))))

/-- The orphans of a RUN boundary (R167, R168). -/
def boundaryOrphans (s : State) : State := eachSlot queueAdopt (eachSlot judgeAdopt s)

theorem boundaryRun_eq (s : State) : boundaryRun s = boundaryOrphans (updateAbsence (boundaryCalls s)) := rfl

theorem Entry.not_adopt_of_kind {e : Entry} {p : BitVec 7 → Bool} (h : e.msg.kind ≠ 11) :
    (match e.msg with | .adopt slot _ _ => p slot | _ => false) = false := by
  cases hm : e.msg <;> rw [hm] at h
  case adopt => exact absurd rfl h

theorem State.Judges.expireAdopts (s : State) : s.Judges (expireAdopts s) :=
  .withdraw s fun e hk => Entry.not_adopt_of_kind (p := fun slot => s.otherMark slot.toNat) (by rw [hk]; decide)

theorem State.Judges.boundaryCalls (s : State) : s.Judges (boundaryCalls s) := by
  have windows := (((State.Judges.expireAdopts s).trans (.eachSlot .expireBid _)).trans (.eachSlot .expireGrant _)).trans
    (.eachContext .endOfferWindow _)
  exact ((((windows.trans (.eachContext .timeOutBid _)).trans (.eachSlot .expireOfferMemory _)).trans (.eachContext .queueReturn _))).trans
    (.boundaryHomes _)

/-- A slot whose absence count stands at its end has no mark (R167). -/
def State.orphansUnmarked (s : State) : Prop :=
  ∀ slot < 128, s.share.absence.getD slot 0 = 8 → s.lane.markRecord.getLsbD slot = false

theorem State.Judges.orphansUnmarked (h : s.Judges t) (hs : s.orphansUnmarked) : t.orphansUnmarked := by
  rw [State.orphansUnmarked, State.edge_absence h.edge, State.edge_markRecord h.edge]
  exact hs

theorem updateAbsence_getD {slot : Nat} (s : State) (h : slot < 128) :
    (updateAbsence s).share.absence.getD slot 0 = nextAbsence s slot := by
  have list : (updateAbsence s).share.absence = (List.range 128).map (nextAbsence s) := rfl
  rw [list, List.getD_eq_getElem?_getD, List.getElem?_map, List.getElem?_range h]
  rfl

theorem updateAbsence_orphansUnmarked (s : State) : (updateAbsence s).orphansUnmarked := by
  intro slot h full
  rw [updateAbsence_getD s h] at full
  unfold nextAbsence countAbsence at full
  split at full
  · cases full
  · split at full
    · cases full
    · next unmarked => exact Bool.eq_false_iff.2 unmarked

/-- An ADOPT is queued for an orphan, which has no mark (R167). -/
theorem State.Judges.queueAdopt {slot : Nat} (h : slot < 128) (hs : s.orphansUnmarked) : s.Judges (queueAdopt slot s) := by
  unfold Machine.queueAdopt
  split
  · next due =>
    have full : s.share.absence.getD slot 0 = 8 := by
      simp only [orphanDue, Bool.and_eq_true, beq_iff_eq] at due
      obtain ⟨⟨⟨⟨⟨-, full⟩, -⟩, -⟩, -⟩, -⟩ := due
      exact full
    refine enqueue s ⟨show (11 : Nat) ≠ 12 by decide, fun h => absurd h (show (11 : Nat) ≠ 13 by decide), fun slot' _ same => ?_⟩
    have same : (BitVec.ofNat 7 slot).toNat = slot' := by simpa [Entry.isAdopt] using same
    rw [← same, BitVec.toNat_ofNat, Nat.mod_eq_of_lt h]
    exact hs slot h full
  · exact refl s

theorem State.Judges.queueAdopts (l : List Nat) (hl : ∀ slot ∈ l, slot < 128) (hs : s.orphansUnmarked) :
    s.Judges (l.foldl (fun s slot => Machine.queueAdopt slot s) s) := by
  induction l generalizing s with
  | nil => exact refl s
  | cons slot l ih =>
    have first := queueAdopt (hl slot (List.mem_cons_self ..)) hs
    exact first.trans (ih (fun k hk => hl k (List.mem_cons_of_mem _ hk)) (first.orphansUnmarked hs))

theorem State.Judges.boundaryOrphans (hs : s.orphansUnmarked) : s.Judges (boundaryOrphans s) := by
  have judged : s.Judges (Machine.eachSlot Machine.judgeAdopt s) := .eachSlot judgeAdopt s
  exact judged.trans (queueAdopts _ (fun slot h => List.mem_range.1 h) (judged.orphansUnmarked hs))

theorem updateAbsence_rim (s : State) : (updateAbsence s).rim = s.rim := rfl

theorem boundaryRun_rim (s : State) : (boundaryRun s).rim = s.rim := by
  rw [boundaryRun_eq, (State.Judges.boundaryOrphans (updateAbsence_orphansUnmarked _)).rim, updateAbsence_rim]
  exact (State.Judges.boundaryCalls s).rim

/-- The station as a boundary begins the next frame (R138). -/
def State.marked (s : State) (others : BitVec 128) : State :=
  { takeMarks others s.settleRecalled with frame := s.frame + 1 }

theorem settleRecalled_marks (s : State) : s.settleRecalled.marks = s.marks := by
  unfold State.marks
  rfl

theorem marked_rim (s : State) (others : BitVec 128) : (s.marked others).rim =
    ((s.frame + 1, s.highway.sync, others ||| s.marks, s.marks), s.lane.discards, s.lane.clashes, s.lane.surplus) := by
  rw [← settleRecalled_marks]
  rfl

theorem endFrame_listen {others : BitVec 128} (locked : s.highway.sync = .locked) (station : s.profile.station = .listen) :
    exec (.frameBoundary others) s = .next (boundaryListen (s.marked others)) := by
  refine congrArg Host.Outcome.next ?_
  unfold endFrame
  rw [if_pos locked]
  dsimp only
  rw [show s.settleRecalled.profile.station = .listen from station]
  rfl

theorem endFrame_config {others : BitVec 128} (locked : s.highway.sync = .locked) (station : s.profile.station = .config) :
    exec (.frameBoundary others) s = .next (eachContext handOver (boundaryConfig (s.marked others))) := by
  refine congrArg Host.Outcome.next ?_
  unfold endFrame
  rw [if_pos locked]
  dsimp only
  rw [show s.settleRecalled.profile.station = .config from station]
  rfl

theorem endFrame_run {others : BitVec 128} (locked : s.highway.sync = .locked) (station : s.profile.station = .run) :
    exec (.frameBoundary others) s = .next (eachContext handOver (boundaryRun (s.marked others))) := by
  refine congrArg Host.Outcome.next ?_
  unfold endFrame
  rw [if_pos locked]
  dsimp only
  rw [show s.settleRecalled.profile.station = .run from station]
  rfl

theorem eachContext_handOver_rim (s : State) : (eachContext handOver s).rim = s.rim := (State.Judges.eachContext State.Judges.handOver s).rim

end Rim

/-- Settles O42: the marks are taken slot by slot, and none of the judgements changes what a boundary takes. -/
theorem frameBoundaryTakesMarks : Obligations.FrameBoundaryTakesMarks := by
  refine ⟨fun s slot h => marks_getLsbD s h, fun s others locked station => ?_⟩
  have taken : ∀ t : State, t.rim = (s.marked others).rim → t.frame = s.frame + 1
      ∧ t.lane.markRecord = others ||| s.marks ∧ t.lane.ownRecord = s.marks ∧ t.lane.discards = s.lane.discards
      ∧ t.lane.clashes = s.lane.clashes ∧ t.lane.surplus = s.lane.surplus ∧ t.highway.sync = s.highway.sync := fun t h => by
    rw [marked_rim] at h
    exact ⟨congrArg (·.1.1) h, congrArg (·.1.2.2.1) h, congrArg (·.1.2.2.2) h, congrArg (·.2.1) h, congrArg (·.2.2.1) h, congrArg (·.2.2.2) h,
      congrArg (·.1.2.1) h⟩
  rcases station with listen | config | run
  · exact ⟨_, endFrame_listen locked listen, taken _ (boundaryListen_rim _)⟩
  · exact ⟨_, endFrame_config locked config, taken _ ((eachContext_handOver_rim _).trans (boundaryConfig_rim _))⟩
  · exact ⟨_, endFrame_run locked run, taken _ ((eachContext_handOver_rim _).trans (boundaryRun_rim _))⟩

end Sys2Proof.Machine

namespace Sys2Proof.Machine

open Sys2Proof

/-! ## Offers that end while blocks are placed (R102, R161) -/

/-- The parts of a context that an open offer stands on. -/
def Context.offerPart (c : Context) : Option Nat × Role × Option OfferRecord × Option Nat := (c.slot, c.role, c.offer, c.stopAt)

/-- `t` is `s` with NOTICES queued and open offers cancelled: the tasks of the pool and of the searches do nothing else to the queue
and to offers. -/
inductive State.Cancels (s : State) : State → Prop
  | refl : s.Cancels s
  | same {t u : State} (h : s.Cancels t) (lane : u.lane = t.lane) (parts : ∀ k, (u.ctx k).offerPart = (t.ctx k).offerPart) : s.Cancels u
  | notify {t : State} (h : s.Cancels t) (kind : Nat) (fs : List Field) : s.Cancels (t.notify kind fs)
  | cancelOffer {t : State} (h : s.Cancels t) (i : Nat) : s.Cancels (t.cancelOffer i)

namespace State.Cancels

variable {s t u : State}

theorem trans (h : s.Cancels t) (h' : t.Cancels u) : s.Cancels u := by
  induction h' with
  | refl => exact h
  | same _ lane parts ih => exact ih.same lane parts
  | notify _ kind fs ih => exact ih.notify kind fs
  | cancelOffer _ i ih => exact ih.cancelOffer i

/-- An update of blocks, FIFO or shortfall queue. -/
theorem pool (h : s.Cancels t) (p : Pool) : s.Cancels { t with pool := p } := h.same rfl fun _ => rfl

theorem modCtx (h : s.Cancels t) (i : Nat) (f : Context → Context) (hf : ∀ c, (f c).offerPart = c.offerPart) : s.Cancels (t.modCtx i f) :=
  h.same rfl fun k => State.ctx_modCtx_proj Context.offerPart t i k f hf

theorem modSearch (h : s.Cancels t) (i : Nat) (f : SearchRecord → SearchRecord) : s.Cancels (t.modSearch i f) := h.modCtx i _ fun _ => rfl
theorem modServing (h : s.Cancels t) (i : Nat) (f : Serving → Serving) : s.Cancels (t.modServing i f) := h.modCtx i _ fun _ => rfl
theorem toTrack (h : s.Cancels t) (i : Nat) : s.Cancels (t.toTrack i) := h.modCtx i _ fun _ => rfl
theorem freeBlock (h : s.Cancels t) (b : Nat) : s.Cancels (t.freeBlock b) := h.pool _
theorem modBlock (h : s.Cancels t) (b : Nat) (f : TapBlock → TapBlock) : s.Cancels (t.modBlock b f) := h.pool _
theorem reserveBlock (h : s.Cancels t) (i b : Nat) : s.Cancels (t.reserveBlock i b) := h.pool _
theorem bindBlock (h : s.Cancels t) (i j b : Nat) : s.Cancels (t.bindBlock i j b) := h.pool _
theorem failBlock (h : s.Cancels t) (b n : Nat) : s.Cancels (t.failBlock b n) := h.pool _
theorem noticeRetired (h : s.Cancels t) (b n : Nat) : s.Cancels (t.noticeRetired b n) := h.notify _ _

theorem foldl {α : Type} {f : State → α → State} (hf : ∀ (s : State) a, s.Cancels (f s a)) (l : List α) (h : s.Cancels t) :
    s.Cancels (l.foldl f t) := by
  induction l generalizing t with
  | nil => exact h
  | cons a l ih => exact ih (h.trans (hf t a))

theorem bindBlocks (h : s.Cancels t) (i : Nat) (l : List (Nat × Nat)) :
    s.Cancels (l.foldl (fun s jb => s.bindBlock i jb.1 jb.2) t) := foldl (fun _ (jb : Nat × Nat) => refl.bindBlock i jb.1 jb.2) l h

theorem fillMap (h : s.Cancels t) (i : Nat) (map : List Segment) (bs : List Nat) : s.Cancels (t.fillMap i map bs).1 :=
  (h.bindBlocks i _).modSearch i _

theorem leaveShortfall (h : s.Cancels t) (i : Nat) : s.Cancels (t.leaveShortfall i) := by
  unfold State.leaveShortfall
  split
  · exact (h.pool { t.pool with shortfall := t.pool.shortfall.erase i }).cancelOffer i
  · exact h

theorem leaveIfMet (h : s.Cancels t) (i : Nat) : s.Cancels (t.leaveIfMet i) := by
  unfold State.leaveIfMet
  split
  · exact h.leaveShortfall i
  · exact h

theorem joinShortfall (h : s.Cancels t) (i : Nat) : s.Cancels (t.joinShortfall i) := by
  unfold State.joinShortfall
  split
  · exact h
  · exact (h.pool { t.pool with shortfall := t.pool.shortfall ++ [i] }).notify _ _

/-! ### Tasks -/

theorem placeBlock (h : s.Cancels t) (b : Nat) : s.Cancels (placeBlock b t).1 := by
  unfold Machine.placeBlock
  split
  · exact h.freeBlock b
  · split
    · exact (h.reserveBlock _ b).modSearch _ _
    · split
      · exact ((h.bindBlock _ _ b).modSearch _ _).leaveIfMet _
      · exact h.freeBlock b
    · exact h.freeBlock b

theorem promoteTask (h : s.Cancels t) : s.Cancels (promoteTask t).1 := by
  unfold Machine.promoteTask
  split
  · exact h
  · refine placeBlock ?_ _
    split
    · exact (h.pool _).notify _ _
    · exact h.pool _

theorem releaseTask (h : s.Cancels t) (b : Nat) : s.Cancels (releaseTask b t).1 := by
  unfold Machine.releaseTask
  split
  · exact ((h.failBlock b _).noticeRetired b _).promoteTask
  · exact h.placeBlock b

theorem passStartTask (h : s.Cancels t) (i : Nat) : s.Cancels (passStartTask i t).1 := by
  unfold Machine.passStartTask
  split
  · dsimp only
    split
    · exact h
    · split
      · exact (h.bindBlocks i _).modSearch i _
      · exact ((h.bindBlocks i _).modSearch i _).leaveShortfall i
  · exact h

theorem searchEndTask (h : s.Cancels t) (i : Nat) : s.Cancels (searchEndTask i t).1 := by
  unfold Machine.searchEndTask
  split
  · exact h
  · split
    · exact (((h.modSearch i _).leaveShortfall i).modSearch i _).toTrack i
    · dsimp only
      refine toTrack ?_ i
      split
      · exact ((h.modSearch i _).fillMap i _ _).leaveShortfall i
      · exact (h.modSearch i _).fillMap i _ _

theorem requestForPlan (h : s.Cancels t) (i : Nat) : s.Cancels (requestForPlan i t) := by
  unfold Machine.requestForPlan
  dsimp only
  split
  · exact h
  · split
    · exact h.joinShortfall i
    · have filled : ∀ n map, s.Cancels ((t.takeBlocks n).2.fillMap i map (t.takeBlocks n).1).1 := fun n map =>
        fillMap (t := (t.takeBlocks n).2) (h.pool _) i map _
      split
      · exact filled _ _
      · exact (filled _ _).joinShortfall i

theorem doTask (task : Task) (h : s.Cancels t) : s.Cancels (doTask task t).1 := by
  cases task with
  | release b => exact h.releaseTask b
  | promote => exact h.promoteTask
  | passStart i => exact h.passStartTask i
  | checkMet i => exact h.leaveIfMet i
  | searchEnd i => exact h.searchEndTask i
  | finishSearch i => exact (((h.requestForPlan i).modSearch i _).modServing i _).notify _ _

theorem runTasks (fuel : Nat) (ts : List Task) (h : s.Cancels t) : s.Cancels (runTasks fuel ts t) := by
  induction fuel generalizing ts t with
  | zero => exact h
  | succ n ih =>
    cases ts with
    | nil => exact h
    | cons task ts => exact ih _ (h.doTask task)

theorem perform (h : s.Cancels t) (ts : List Task) : s.Cancels (perform ts t) := h.runTasks _ ts

theorem releaseHeld (h : s.Cancels t) (i : Nat) : s.Cancels (releaseHeld i t) := by
  unfold Machine.releaseHeld
  exact (((h.cancelOffer i).leaveShortfall i).modCtx i (fun c => { c with search := none }) fun _ => rfl).perform _

theorem enterPassing (h : s.Cancels t) (i : Nat) (st : CallState) : s.Cancels (enterPassing i st t) := by
  have released := (h.modCtx i (fun c => { c with callState := st }) fun _ => rfl).releaseHeld i
  unfold Machine.enterPassing
  dsimp only
  split
  · exact released
  · exact (released.modCtx i (fun c => { c with toneHold := false }) fun _ => rfl).modServing i _

/-! ### What a cancelled offer leaves -/

/-- A context keeps slot and stop, and its role and offer, or its open offer has ended. -/
theorem parts (h : s.Cancels t) (k : Nat) : (t.ctx k).slot = (s.ctx k).slot ∧ (t.ctx k).stopAt = (s.ctx k).stopAt
    ∧ ((t.ctx k).role = (s.ctx k).role ∧ (t.ctx k).offer = (s.ctx k).offer
      ∨ (s.ctx k).role = .homeOffering ∧ (t.ctx k).role = .homeServing ∧ (t.ctx k).offer = none) := by
  induction h with
  | refl => exact ⟨rfl, rfl, .inl ⟨rfl, rfl⟩⟩
  | same _ _ parts ih =>
    have slot := (congrArg (·.1) (parts k) :)
    have role := (congrArg (·.2.1) (parts k) :)
    have offer := (congrArg (·.2.2.1) (parts k) :)
    have stop := (congrArg (·.2.2.2) (parts k) :)
    dsimp only [Context.offerPart] at slot role offer stop
    rw [slot, role, offer, stop]
    exact ih
  | notify _ kind fs ih => rw [State.notify_ctx]; exact ih
  | @cancelOffer t _ i ih =>
    unfold State.cancelOffer
    dsimp only
    split
    · next hc =>
      rw [State.ctx_modCtx]
      split
      · next at_ =>
        obtain ⟨rfl, -⟩ := at_
        rw [State.recall_ctx]
        refine ⟨ih.1, ih.2.1, .inr ⟨?_, rfl, rfl⟩⟩
        rcases ih.2.2 with ⟨role, -⟩ | ⟨role, -⟩
        · exact role ▸ hc.1
        · exact role
      · rw [State.recall_ctx]
        exact ih
    · exact ih

end State.Cancels

theorem Entry.other_of_isGrant {e : Entry} {slot other : Nat} (h : e.isGrant slot = true) (hne : other ≠ slot) :
    (e.isOffer other || e.isGrant other) = false := by
  unfold Entry.isGrant at h
  split at h
  · next hm =>
    have hs := beq_iff_eq.1 h
    simp [Entry.isOffer, Entry.isGrant, hm, hs, Ne.symm hne]
  · cases h

/-! ## A context that holds a slot -/

/-- The slots stand, and context i holds this slot. -/
structure State.Holds (s : State) (i slot : Nat) : Prop where
  sound : s.slotsSound
  slot : (s.ctx i).slot = some slot

namespace State.Holds

variable {s t : State} {i k slot : Nat}

theorem lookup (h : s.Holds i slot) : s.lookup slot = some i := (h.sound.2.2.2.2 slot i).2 h.slot

theorem slot_lt (h : s.Holds i slot) : slot < 128 := h.sound.slot_lt h.lookup

theorem slotOf (h : s.Holds i slot) : s.slotOf i = slot := State.slotOf_eq h.slot

theorem lt (h : s.Holds i slot) : i < 64 := by
  by_contra hc
  have := h.slot
  rw [State.ctx_ge s i (by rw [h.sound.2.1]; omega)] at this
  cases this

theorem lt_length (h : s.Holds i slot) : i < s.table.contexts.length := h.sound.2.1 ▸ h.lt

/-- No other context holds the slot. -/
theorem only (h : s.Holds i slot) (hk : k ≠ i) : (s.ctx k).slot ≠ some slot := fun hs =>
  hk (Option.some.inj (((h.sound.2.2.2.2 slot k).2 hs).symm.trans h.lookup))


end State.Holds

/-- A home context holds its home slot (R17). -/
theorem State.slotsSound.home_slot {s : State} {k : Nat} (h : s.slotsSound) (hk : (s.ctx k).kind = .home) :
    ∃ slot, s.Holds k slot := by
  have lt : k < 64 := by
    by_contra hc
    rw [State.ctx_ge s k (by rw [h.2.1]; omega)] at hk
    cases hk
  have placed := (h.2.2.2.1 k lt).2
  split at placed
  · exact ⟨_, h, placed.2⟩
  · rw [hk] at placed
    cases placed.1

/-- A context with an open offer is a home (R158). -/
theorem State.slotsSound.kind_of_offering {s : State} {k : Nat} (h : s.slotsSound) (hk : (s.ctx k).role = .homeOffering) :
    (s.ctx k).kind = .home := by
  rw [← h.kind_eq, hk]
  rfl

/-- No context but i has an open offer for the slot. -/
def State.Alone (i slot : Nat) (s : State) : Prop := ∀ k, k ≠ i → (s.ctx k).role = .homeOffering → s.slotOf k ≠ slot

theorem State.Holds.slotOf_ne {s : State} {i k slot : Nat} (h : s.Holds i slot) (hk : k ≠ i) (home : (s.ctx k).kind = .home) :
    s.slotOf k ≠ slot := fun same => by
  obtain ⟨other, holds⟩ := h.sound.home_slot home
  exact h.only hk ((holds.slotOf.symm.trans same) ▸ holds.slot)

theorem State.Holds.alone {s : State} {i slot : Nat} (h : s.Holds i slot) : s.Alone i slot := fun _ hk offering =>
  h.slotOf_ne hk (h.sound.kind_of_offering offering)

theorem State.Cancels.alone {s t : State} {i slot : Nat} (h : s.Cancels t) (hs : s.Alone i slot) : t.Alone i slot := fun k hk offering => by
  obtain ⟨slot_k, -, role⟩ := h.parts k
  have role : (s.ctx k).role = .homeOffering := by
    rcases role with ⟨same, -⟩ | ⟨was, -⟩
    · exact same ▸ offering
    · exact was
  rw [State.slotOf, slot_k]
  exact hs k hk role

/-- A cancelled offer takes its own GRANT along and no other (R161). -/
theorem State.Cancels.grants {s t : State} {i slot : Nat} (h : s.Cancels t) (hs : s.Alone i slot) :
    ((t.ctx i).role = .homeServing ∧ (t.ctx i).offer = none) ∨ ∀ e ∈ s.lane.queue, e.isGrant slot = true → e ∈ t.lane.queue := by
  induction h with
  | refl => exact .inr fun _ he _ => he
  | same _ lane parts ih =>
    rw [lane]
    refine ih.imp_left fun ended => ?_
    have role := (congrArg (·.2.1) (parts i) :)
    have offer := (congrArg (·.2.2.1) (parts i) :)
    exact ⟨role.trans ended.1, offer.trans ended.2⟩
  | notify _ kind fs ih =>
    rw [State.notify_ctx]
    exact ih.imp_right fun stay e he hg => State.mem_notify_of_mem (stay e he hg)
  | @cancelOffer t before k ih =>
    unfold State.cancelOffer
    dsimp only
    split
    · next offering =>
      by_cases hk : k = i
      · subst hk
        refine .inl ?_
        rw [State.ctx_modCtx_self _ _ _ (by
          rw [State.recall_table]
          by_contra hc
          rw [State.ctx_ge t k (Nat.le_of_not_lt hc)] at offering
          cases offering.1)]
        exact ⟨rfl, rfl⟩
      · rw [State.ctx_modCtx_ne _ _ _ _ hk, State.recall_ctx]
        refine ih.imp_right fun stay e he hg => ?_
        have kept : (e.isOffer (t.slotOf k) || e.isGrant (t.slotOf k)) = false :=
          Entry.other_of_isGrant hg (before.alone hs k hk offering.1)
        show e ∈ (t.recall _).lane.queue
        unfold State.recall
        split
        · exact (State.mem_withdraw _ _ e).2 ⟨stay e he hg, kept⟩
        · exact stay e he hg
    · exact ih

end Sys2Proof.Machine

namespace Sys2Proof.Machine

open Sys2Proof

/-! ## What a boundary's judgements of others leave of a context -/

theorem State.Cancels.onlyNotices {s t : State} (h : s.Cancels t) : s.OnlyNotices t := by
  induction h with
  | refl => exact .refl s
  | same _ lane _ ih => exact ih.same lane
  | notify _ kind fs ih => exact ih.notify kind fs
  | cancelOffer _ i ih => exact ih.cancelOffer i

/-- `t` is `s` after judgements of other contexts than i, which holds this slot: they leave the context but for blocks and its open
offer, and the messages queued for the slot. -/
structure State.Passes (i slot : Nat) (s t : State) : Prop where
  alone : t.Alone i slot
  steady : (t.ctx i).steady = (s.ctx i).steady
  fixed : (s.ctx i).TakesNone → t.ctx i = s.ctx i
  offer : (t.ctx i).role = (s.ctx i).role ∧ (t.ctx i).offer = (s.ctx i).offer
      ∨ (s.ctx i).role = .homeOffering ∧ (t.ctx i).role = .homeServing ∧ (t.ctx i).offer = none
  grants : ((t.ctx i).role = .homeServing ∧ (t.ctx i).offer = none) ∨ ∀ e ∈ s.lane.queue, e.isGrant slot = true → e ∈ t.lane.queue
  reclaims : ∀ e ∈ s.lane.queue, e.isReclaim slot = true → e ∈ t.lane.queue
  ungranted : ∀ e ∈ t.lane.queue, e.isGrant slot = true → e ∈ s.lane.queue

theorem Entry.kind_of_isReclaim {slot : Nat} {e : Entry} (h : e.isReclaim slot = true) : e.msg.kind = 10 := by
  unfold Entry.isReclaim at h
  split at h
  · next hm => rw [hm]; rfl
  · cases h

theorem Entry.other_of_isReclaim {e : Entry} {slot other : Nat} (h : e.isReclaim slot = true) (hne : other ≠ slot) :
    e.isReclaim other = false := by
  unfold Entry.isReclaim at h
  split at h
  · next hm =>
    have hs := beq_iff_eq.1 h
    simp [Entry.isReclaim, hm, hs, Ne.symm hne]
  · cases h

namespace State.Passes

variable {s t u : State} {i k slot : Nat}

theorem of_same (alone : t.Alone i slot) (same : t.ctx i = s.ctx i)
    (stays : ∀ e ∈ s.lane.queue, e.isGrant slot = true ∨ e.isReclaim slot = true → e ∈ t.lane.queue)
    (ungranted : ∀ e ∈ t.lane.queue, e.isGrant slot = true → e ∈ s.lane.queue) : s.Passes i slot t :=
  ⟨alone, by rw [same], fun _ => same, .inl (by rw [same]; exact ⟨rfl, rfl⟩), .inr fun e he hg => stays e he (.inl hg),
    fun e he hr => stays e he (.inr hr), ungranted⟩

theorem of_queue (alone : t.Alone i slot) (same : t.ctx i = s.ctx i) (queue : t.lane.queue = s.lane.queue) : s.Passes i slot t :=
  of_same alone same (fun _ he _ => queue ▸ he) fun _ he _ => queue ▸ he

theorem refl (h : s.Alone i slot) : s.Passes i slot s := of_queue h rfl rfl

theorem trans (h : s.Passes i slot t) (h' : t.Passes i slot u) : s.Passes i slot u := by
  have ended : (t.ctx i).role = .homeServing ∧ (t.ctx i).offer = none → (u.ctx i).role = .homeServing ∧ (u.ctx i).offer = none := fun e => by
    rcases h'.offer with ⟨role, offer⟩ | ⟨role, -⟩
    · rw [role, offer]
      exact e
    · rw [e.1] at role
      cases role
  refine ⟨h'.alone, h'.steady.trans h.steady, fun fixed => ?_, ?_, ?_, fun e he hr => h'.reclaims e (h.reclaims e he hr) hr,
    fun e he hg => h.ungranted e (h'.ungranted e he hg) hg⟩
  · have same := h.fixed fixed
    rw [h'.fixed (by rw [same]; exact fixed), same]
  · rcases h.offer with ⟨role, offer⟩ | ⟨was, now⟩
    · rw [← role, ← offer]
      exact h'.offer
    · exact .inr ⟨was, ended now⟩
  · rcases h.grants with now | stay
    · exact .inl (ended now)
    · exact h'.grants.imp_right fun stay' e he hg => stay' e (stay e he hg) hg

theorem ite {p : Prop} [Decidable p] (h : s.Passes i slot t) (h' : s.Passes i slot u) : s.Passes i slot (if p then t else u) := by
  split
  · exact h
  · exact h'

/-! ### Updates -/

theorem of_table (h : s.Passes i slot t) (table : u.table = t.table) (queue : u.lane.queue = t.lane.queue) : s.Passes i slot u := by
  have ctx : ∀ k, u.ctx k = t.ctx k := fun k => by rw [State.ctx, table, State.ctx]
  refine h.trans (of_queue (fun j hj => ?_) (ctx i) queue)
  rw [State.slotOf, ctx]
  exact h.alone j hj

theorem setCtx (h : s.Passes i slot t) (hk : k ≠ i) {c : Context}
    (hc : c.role = .homeOffering → (t.ctx k).role = .homeOffering ∧ c.slot = (t.ctx k).slot) : s.Passes i slot (t.setCtx k c) := by
  have same : ∀ j, (t.setCtx k c).ctx j = t.ctx j ∨ j = k ∧ (t.setCtx k c).ctx j = c := fun j => by
    have read := State.ctx_modCtx t k j fun _ => c
    rw [State.modCtx] at read
    rw [read]
    split
    · next at_ => exact .inr ⟨at_.1.symm, rfl⟩
    · exact .inl rfl
  refine h.trans (of_queue (fun j hj offering => ?_) (State.ctx_setCtx_ne _ _ _ _ hk) rfl)
  rw [State.slotOf]
  rcases same j with stands | ⟨rfl, set⟩
  · rw [stands] at offering ⊢
    exact h.alone j hj offering
  · rw [set] at offering ⊢
    obtain ⟨was, slot_eq⟩ := hc offering
    rw [slot_eq]
    exact h.alone j hj was

/-- An update that opens no offer. -/
theorem modCtx (h : s.Passes i slot t) (hk : k ≠ i) (f : Context → Context)
    (hf : ∀ c : Context, (f c).role = .homeOffering → c.role = .homeOffering ∧ (f c).slot = c.slot) : s.Passes i slot (t.modCtx k f) :=
  h.setCtx hk (hf _)

theorem setRole (h : s.Passes i slot t) (hk : k ≠ i) (f : Context → Context) {r : Role} (hr : r ≠ .homeOffering)
    (hf : ∀ c, (f c).role = r) : s.Passes i slot (t.modCtx k f) := h.modCtx hk f fun c offering => absurd (hf c ▸ offering) hr

theorem withdraw (h : s.Passes i slot t) {p : Entry → Bool} (hg : ∀ e : Entry, e.isGrant slot = true → p e = false)
    (hr : ∀ e : Entry, e.isReclaim slot = true → p e = false) : s.Passes i slot (t.withdraw p) :=
  h.trans (of_same h.alone rfl (fun e he hs => (State.mem_withdraw t p e).2 ⟨he, hs.elim (hg e) (hr e)⟩)
    fun e he _ => ((State.mem_withdraw t p e).1 he).1)

theorem enqueue (h : s.Passes i slot t) {e : Entry} (he : e.isGrant slot = false) : s.Passes i slot (t.enqueue e).1 := by
  have joins := t.enqueue_onlyJoins e
  refine h.trans (of_same h.alone rfl (fun x hx hs => ?_) fun x hx hg => ?_)
  · have kind : x.msg.kind = 13 ∨ x.msg.kind = 10 := hs.imp Entry.kind_of_isGrant Entry.kind_of_isReclaim
    exact joins.stays x hx (by omega) (by omega)
  · rcases mem_of_mem_joinQueueWith hx with rfl | hx
    · rw [hg] at he
      cases he
    · exact hx

theorem send (h : s.Passes i slot t) {m : Msg} (hm : m.kind ≠ 13) : s.Passes i slot (t.send m) :=
  enqueue (e := ⟨m, t.frame, none⟩) h (Entry.not_isGrant hm)

theorem notify (h : s.Passes i slot t) (kind : Nat) (fs : List Field) : s.Passes i slot (t.notify kind fs) := by
  unfold State.notify
  split
  · exact h.send (show (3 : Nat) ≠ 13 by decide)
  · exact h

/-- Acts of the pool and of other searches. -/
theorem of_cancels (h : s.Passes i slot t) (cancels : t.Cancels u) (steady : (u.ctx i).steady = (t.ctx i).steady)
    (fixed : (t.ctx i).TakesNone → u.ctx i = t.ctx i) : s.Passes i slot u := by
  have only := cancels.onlyNotices
  refine h.trans ⟨cancels.alone h.alone, steady, fixed, (cancels.parts i).2.2, cancels.grants h.alone, fun e he hr => ?_, fun e he hg => ?_⟩
  · have kind := Entry.kind_of_isReclaim hr
    exact only.queue_stays he (by rw [kind]; decide) (by rw [kind]; decide)
  · rcases only.mem_queue he with notice | he
    · rw [Entry.kind_of_isGrant hg] at notice
      cases notice
    · exact he

theorem perform (h : s.Passes i slot t) {ts : List Task} (ht : ∀ t ∈ ts, t.subject ≠ some i) : s.Passes i slot (perform ts t) :=
  h.of_cancels (State.Cancels.refl.perform ts) (by simp) fun fixed => runTasks_takesNone _ _ fixed ht

theorem enterPassing (h : s.Passes i slot t) (hk : k ≠ i) (st : CallState) : s.Passes i slot (enterPassing k st t) :=
  h.of_cancels (State.Cancels.refl.enterPassing k st) (steady_enterPassing_ne hk.symm) (enterPassing_beside hk st).fixed

theorem setDirectory (h : s.Passes i slot t) (other : Nat) (e : Option Nat) : s.Passes i slot (t.setDirectory other e) :=
  h.trans (of_queue h.alone rfl rfl)

theorem freeGuestAt (h : s.Passes i slot t) (hk : k ≠ i) : s.Passes i slot (t.freeGuestAt k) := by
  unfold State.freeGuestAt
  split
  · exact (h.setDirectory _ none).setCtx hk fun hr => absurd hr (by decide)
  · exact h.setCtx hk fun hr => absurd hr (by decide)

/-! ### Serving starts and stops -/

theorem clearPipeline (h : s.Passes i slot t) (other : Nat) : s.Passes i slot (t.clearPipeline other) := h.of_table rfl rfl

theorem startTaker (h : s.Passes i slot t) (hk : k ≠ i) (bypass : Bool) : s.Passes i slot (startTaker k bypass t) := by
  unfold Machine.startTaker
  dsimp only
  split
  · exact (h.modCtx hk _ (by exact fun _ hr => ⟨hr, rfl⟩)).perform (subject_map_release _ i)
  · refine ((h.modCtx hk _ (by exact fun _ hr => ⟨hr, rfl⟩)).perform (subject_map_release _ i)).perform fun u hu => ?_
    rw [List.mem_singleton.1 hu]
    split <;> exact fun hs => hk (Option.some.inj hs)

theorem servingStart (h : s.Passes i slot t) (hk : k ≠ i) (offered : Option Nat) : s.Passes i slot (servingStart k offered t) := by
  unfold Machine.servingStart
  dsimp only
  split
  · exact startTaker ((h.clearPipeline _).modCtx hk _ (by exact fun _ hr => ⟨hr, rfl⟩)) hk _
  · exact ((h.clearPipeline _).modCtx hk _ (by exact fun _ hr => ⟨hr, rfl⟩)).modCtx hk _ (by exact fun _ hr => ⟨hr, rfl⟩)

theorem servingStop (h : s.Passes i slot t) (hk : k ≠ i) : s.Passes i slot (servingStop k t) := by
  have entered := h.enterPassing hk .notServing
  unfold Machine.servingStop
  dsimp only
  generalize Machine.enterPassing k .notServing t = u at entered
  exact (entered.clearPipeline _).modCtx hk _ (by exact fun _ hr => ⟨hr, rfl⟩)

theorem serveAgain (h : s.Passes i slot t) (hk : k ≠ i) (other : t.slotOf k ≠ slot) : s.Passes i slot (serveAgain k t) := by
  have withdrawn : s.Passes i slot (t.withdraw fun e => e.isReclaim (t.slotOf k)) :=
    h.withdraw (fun e hg => Entry.not_isReclaim (by rw [Entry.kind_of_isGrant hg]; decide)) fun e hr => Entry.other_of_isReclaim hr other
  unfold Machine.serveAgain
  dsimp only
  exact (withdrawn.setRole hk _ (r := .homeServing) (by decide) (by exact fun _ => rfl)).servingStart hk none

/-! ### The judgements -/

theorem withdrawBid (h : s.Passes i slot t) (hk : k ≠ i) : s.Passes i slot (withdrawBid k t) := by
  unfold Machine.withdrawBid
  dsimp only
  split
  · have withdrawn : s.Passes i slot (t.withdraw fun e => e.isBid (t.slotOf k)) :=
      h.withdraw (fun e hg => Entry.not_isBid (by rw [Entry.kind_of_isGrant hg]; decide))
        fun e hr => Entry.not_isBid (by rw [Entry.kind_of_isReclaim hr]; decide)
    exact (withdrawn.freeGuestAt hk).perform (subject_map_release _ i)
  · exact h

theorem offerUnplaced (h : s.Passes i slot t) (hk : k ≠ i) : s.Passes i slot (offerUnplaced k t) :=
  (h.setRole hk (fun c => { c with role := .homeServing, offer := none }) (r := .homeServing) (by decide) fun _ => rfl).notify _ _

theorem failOffer (h : s.Passes i slot t) (hk : k ≠ i) : s.Passes i slot (failOffer k t) := ite (h.offerUnplaced hk) h

theorem onHeld {act : Nat → State → State} (h : s.Holds i slot) (ht : s.Passes i slot t) (table : t.table = s.table) {other : Nat}
    (hne : other ≠ slot) (ha : ∀ k, k ≠ i → s.Passes i slot (act k t)) : s.Passes i slot (onHeld other act t) := by
  unfold Machine.onHeld
  split
  · next k hl =>
    refine ha k fun hk => ?_
    rw [State.lookup, table] at hl
    have held := (h.sound.2.2.2.2 other k).1 hl
    rw [hk, h.slot] at held
    exact hne (Option.some.inj held).symm
  · exact ht

theorem expireBid (h : s.Holds i slot) {other : Nat} (hne : other ≠ slot) : s.Passes i slot (expireBid other s) := by
  have withdrawn : s.Passes i slot (s.withdraw fun e => e.isBid other && e.pastOffer s.frame 4) :=
    (refl h.alone).withdraw (fun e hg => by rw [Entry.not_isBid (by rw [Entry.kind_of_isGrant hg]; decide), Bool.false_and])
      fun e hr => by rw [Entry.not_isBid (by rw [Entry.kind_of_isReclaim hr]; decide), Bool.false_and]
  exact ite (onHeld h withdrawn rfl hne fun k hk => withdrawn.withdrawBid hk) (refl h.alone)

theorem expireGrant (h : s.Holds i slot) {other : Nat} (hne : other ≠ slot) : s.Passes i slot (expireGrant other s) := by
  have withdrawn : s.Passes i slot (s.withdraw fun e => e.isGrant other && e.pastOffer s.frame 8) :=
    (refl h.alone).withdraw (fun e hg => by
        have kept := Entry.other_of_isGrant hg hne
        rw [Bool.or_eq_false_iff] at kept
        rw [kept.2, Bool.false_and])
      fun e hr => by rw [Entry.not_isGrant (by rw [Entry.kind_of_isReclaim hr]; decide), Bool.false_and]
  exact ite (onHeld h withdrawn rfl hne fun k hk => withdrawn.failOffer hk) (refl h.alone)

theorem endOfferWindow (h : s.Holds i slot) (hk : k ≠ i) : s.Passes i slot (endOfferWindow k s) := by
  have stands := refl h.alone
  unfold Machine.endOfferWindow
  dsimp only
  split
  · next o best offering _ =>
    split
    · split
      · next taker _ _ =>
        have home := h.sound.kind_of_offering offering
        obtain ⟨other, holds⟩ := h.sound.home_slot home
        have granted : s.Passes i slot (s.enqueue ⟨.grant (BitVec.ofNat 7 (s.slotOf k)) (BitVec.ofNat 4 taker) s.me, s.frame, some o⟩).1 :=
          stands.enqueue (by
            have lt := holds.slot_lt
            rw [← holds.slotOf] at lt
            simpa [Entry.isGrant, Nat.mod_eq_of_lt lt] using h.slotOf_ne hk home)
        exact ite granted (granted.offerUnplaced hk)
      · exact stands.offerUnplaced hk
    · exact stands
  · exact stands

theorem timeOutBid (h : s.Holds i slot) (hk : k ≠ i) : s.Passes i slot (timeOutBid k s) := by
  unfold Machine.timeOutBid
  split
  · exact ite ((refl h.alone).withdrawBid hk) (refl h.alone)
  · exact refl h.alone

theorem expireOfferMemory (h : s.Alone i slot) (other : Nat) : s.Passes i slot (expireOfferMemory other s) := by
  unfold Machine.expireOfferMemory
  split
  · exact ite ((refl h).of_table rfl rfl) (refl h)
  · exact refl h

/-- The RETURN of any context, this one too. -/
theorem queueReturn (h : s.Alone i slot) (k : Nat) : s.Passes i slot (queueReturn k s) :=
  ite ((refl h).send (show (14 : Nat) ≠ 13 by decide)) (refl h)

theorem judgeAbsence (h : s.Holds i slot) (hk : k ≠ i) : s.Passes i slot (judgeAbsence k s) := by
  unfold Machine.judgeAbsence
  dsimp only
  split
  · next due =>
    have home : (s.ctx k).kind = .home := by
      rw [← h.sound.kind_eq]
      simp only [Bool.and_eq_true, Bool.or_eq_true, beq_iff_eq] at due
      rcases due.1 with role | ⟨role, -⟩ <;> rw [role] <;> rfl
    exact (refl h.alone).serveAgain hk (h.slotOf_ne hk home)
  · exact refl h.alone

theorem ageReclaim (h : s.Alone i slot) (hk : k ≠ i) : s.Passes i slot (ageReclaim k s) :=
  (refl h).modCtx hk (fun c => { c with reclaim := c.reclaim.map (nextReclaim s.frame) }) fun _ hr => ⟨hr, rfl⟩

/-- The RECLAIM of any context, this one too. -/
theorem requeueReclaim (h : s.Alone i slot) (k : Nat) : s.Passes i slot (requeueReclaim k s) := by
  unfold Machine.requeueReclaim
  dsimp only
  split
  · exact ite ((refl h).send (show (10 : Nat) ≠ 13 by decide)) (refl h)
  · exact refl h

theorem updateAbsence (h : s.Alone i slot) : s.Passes i slot (updateAbsence s) := (refl h).of_table rfl rfl

/-- An adoption takes a free guest, which holds no slot (R168). -/
theorem judgeAdopt (h : s.Holds i slot) (other : Nat) : s.Passes i slot (judgeAdopt other s) := by
  have judged : s.Passes i slot (s.unadopting other) := (refl h.alone).of_table rfl rfl
  refine ite ?_ (refl h.alone)
  show s.Passes i slot (judgeAdoption other (s.unadopting other))
  refine ite judged ?_
  split
  · next k free _ =>
    have hk : k ≠ i := fun hk => by
      have clear : s.ctx k = freeGuest := h.sound.free_ctx (State.freeGuest?_some free).2.1
      have held := h.slot
      rw [← hk, clear] at held
      cases held
    exact ((judged.setDirectory other (some k)).setCtx hk fun hr =>
      absurd hr (show Role.actingHome ≠ Role.homeOffering by decide)).servingStart hk none
  · exact judged.send (show (14 : Nat) ≠ 13 by decide)

theorem queueAdopt (h : s.Alone i slot) (other : Nat) : s.Passes i slot (queueAdopt other s) :=
  ite ((refl h).send (show (11 : Nat) ≠ 13 by decide)) (refl h)

/-! ### Hand-overs -/

theorem handOverStop (h : s.Holds i slot) (hk : k ≠ i) : s.Passes i slot (handOverStop k s) := by
  unfold Machine.handOverStop
  split
  · next home =>
    have other := h.slotOf_ne hk home
    have withdrawn : s.Passes i slot (s.withdraw fun e => e.isOffer (s.slotOf k) || e.isGrant (s.slotOf k)) :=
      (refl h.alone).withdraw (fun e hg => Entry.other_of_isGrant hg other)
        fun e hr => Entry.not_offered (by rw [Entry.kind_of_isReclaim hr]; decide) (by rw [Entry.kind_of_isReclaim hr]; decide) _
    exact (withdrawn.setRole hk _ (r := .handed) (by decide) (by exact fun _ => rfl)).servingStop hk
  · exact (((refl h.alone).modCtx hk _ (by exact fun _ hr => ⟨hr, rfl⟩)).servingStop hk).freeGuestAt hk

theorem handOverStart (h : s.Holds i slot) (hk : k ≠ i) : s.Passes i slot (handOverStart k s) := by
  have stands := refl h.alone
  unfold Machine.handOverStart
  split
  · exact stands.modCtx hk _ (by exact fun _ hr => ⟨hr, rfl⟩)
  · next home => exact stands.serveAgain hk (h.slotOf_ne hk home)
  · exact (stands.setRole hk _ (r := .taken) (by decide) (by exact fun _ => rfl)).servingStart hk _

/-- A context that holds a slot holds it still after judgements of others. -/
theorem holds (h : s.Passes i slot t) (sound : s.Steady t) (hs : s.Holds i slot) : t.Holds i slot :=
  ⟨sound.slots hs.sound, (congrArg (·.slot) h.steady : (t.ctx i).slot = (s.ctx i).slot).trans hs.slot⟩

theorem handOver (h : s.Holds i slot) (hk : k ≠ i) : s.Passes i slot (handOver k s) := by
  have dueSome : ∀ c : Option Nat, (c.elim false fun f => decide (f ≤ s.frame)) = true → c ≠ none := fun c hc none => by
    rw [none] at hc
    cases hc
  have stop : ∀ t, t = (if ((s.ctx k).stopAt.elim false fun f => decide (f ≤ s.frame)) = true then Machine.handOverStop k s else s) →
      s.Passes i slot t ∧ s.Steady t := fun t ht => by
    rw [ht]
    split
    · next due => exact ⟨handOverStop h hk, .handOverStop fun _ free => dueSome _ due (by rw [free]; rfl)⟩
    · exact ⟨refl h.alone, .refl s⟩
  unfold Machine.handOver
  dsimp only
  generalize ht : (if ((s.ctx k).stopAt.elim false fun f => decide (f ≤ s.frame)) = true then Machine.handOverStop k s else s) = t
  obtain ⟨passes, steady⟩ := stop t ht.symm
  exact ite (passes.trans (handOverStart (passes.holds steady h) hk)) passes

end State.Passes

end Sys2Proof.Machine

namespace Sys2Proof.Machine

open Sys2Proof

/-! ## Contexts that a boundary's judgements leave waiting -/

/-- `t` is `s` after judgements of a boundary: its rim and its profiles stand, and the drop count only rises, up to its end (R153). -/
structure State.Turn (s t : State) : Prop where
  rim : t.rim = s.rim
  profile : t.profile = s.profile
  rises : min 65535 s.lane.drops ≤ min 65535 t.lane.drops
  bounded : t.lane.drops = s.lane.drops ∨ t.lane.drops ≤ 65535

section Turn

variable {s t u : State}

theorem State.Judges.turn (h : s.Judges t) : s.Turn t := ⟨h.rim, State.edge_profile h.edge, h.rises, h.bounded⟩

theorem State.Turn.trans (h : s.Turn t) (h' : t.Turn u) : s.Turn u := by
  refine ⟨h'.rim.trans h.rim, h'.profile.trans h.profile, Nat.le_trans h.rises h'.rises, ?_⟩
  rcases h'.bounded with same | le
  · rw [same]
    exact h.bounded
  · exact .inr le

theorem State.Turn.frame (h : s.Turn t) : t.frame = s.frame := congrArg (·.1.1) h.rim
theorem State.Turn.markRecord (h : s.Turn t) : t.lane.markRecord = s.lane.markRecord := congrArg (·.1.2.2.1) h.rim

/-- A drop shows in the count, or the count stands at its end (R153). -/
theorem State.Turn.over {d : Nat} (h : s.Turn t) (dropped : d < s.lane.drops ∨ s.lane.drops = 65535) :
    d < t.lane.drops ∨ t.lane.drops = 65535 := by
  have := h.rises
  have := h.bounded
  omega

theorem queueAdopt_turn (slot : Nat) (s : State) : s.Turn (queueAdopt slot s) := by
  unfold queueAdopt
  split
  · have joins := s.enqueue_onlyJoins ⟨.adopt (BitVec.ofNat 7 slot) (BitVec.ofNat 8 (min 255 s.free)) s.me, s.frame, none⟩
    exact ⟨rfl, rfl, joins.rises, joins.bounded⟩
  · exact (State.Judges.refl s).turn

end Turn

/-- `t` is `s` after judgements that leave context i, which holds this slot, but for blocks and its open offer, and the RECLAIMs
queued for the slot. -/
structure State.Waits (i slot : Nat) (s t : State) : Prop where
  sound : s.Steady t
  turn : s.Turn t
  steady : (t.ctx i).steady = (s.ctx i).steady
  fixed : (s.ctx i).TakesNone → t.ctx i = s.ctx i
  reclaims : ∀ e ∈ s.lane.queue, e.isReclaim slot = true → e ∈ t.lane.queue

theorem State.Passes.waits {s t : State} {i slot : Nat} (h : s.Passes i slot t) (sound : s.Steady t) (turn : s.Turn t) :
    s.Waits i slot t := ⟨sound, turn, h.steady, h.fixed, h.reclaims⟩

/-- Context i holds the slot, in a posture of its steady parts. -/
def State.Stands (s : State) (i slot : Nat) (P : Context → Prop) : Prop := s.Holds i slot ∧ P (s.ctx i).steady

namespace State.Waits

variable {s t u : State} {i k slot : Nat} {P : Context → Prop}

theorem of_same (sound : s.Steady t) (turn : s.Turn t) (same : t.ctx i = s.ctx i)
    (reclaims : ∀ e ∈ s.lane.queue, e.isReclaim slot = true → e ∈ t.lane.queue) : s.Waits i slot t :=
  ⟨sound, turn, by rw [same], fun _ => same, reclaims⟩

theorem refl (s : State) : s.Waits i slot s := .of_same (.refl s) (State.Judges.refl s).turn rfl fun _ he _ => he

theorem trans (h : s.Waits i slot t) (h' : t.Waits i slot u) : s.Waits i slot u := by
  refine ⟨h.sound.trans h'.sound, h.turn.trans h'.turn, h'.steady.trans h.steady, fun fixed => ?_,
    fun e he hr => h'.reclaims e (h.reclaims e he hr) hr⟩
  have same := h.fixed fixed
  rw [h'.fixed (by rw [same]; exact fixed), same]

theorem holds (h : s.Waits i slot t) (hs : s.Holds i slot) : t.Holds i slot :=
  ⟨h.sound.slots hs.sound, (congrArg (·.slot) h.steady : (t.ctx i).slot = (s.ctx i).slot).trans hs.slot⟩

theorem stands (h : s.Waits i slot t) (hs : s.Stands i slot P) : t.Stands i slot P := ⟨h.holds hs.1, h.steady ▸ hs.2⟩

theorem foldl {α : Type} {f : State → α → State} {l : List α} (hf : ∀ a ∈ l, ∀ u : State, u.Stands i slot P → u.Waits i slot (f u a))
    (hs : s.Stands i slot P) : s.Waits i slot (l.foldl f s) := by
  induction l generalizing s with
  | nil => exact .refl s
  | cons a l ih =>
    have first := hf a (List.mem_cons_self ..) s hs
    exact first.trans (ih (fun b hb => hf b (List.mem_cons_of_mem _ hb)) (first.stands hs))

theorem eachContext {act : Nat → State → State} (h : ∀ (k : Nat) (u : State), u.Stands i slot P → u.Waits i slot (act k u))
    (hs : s.Stands i slot P) : s.Waits i slot (eachContext act s) := foldl (fun k _ u => h k u) hs

theorem eachSlot {act : Nat → State → State} (h : ∀ other < 128, ∀ u : State, u.Stands i slot P → u.Waits i slot (act other u))
    (hs : s.Stands i slot P) : s.Waits i slot (eachSlot act s) := foldl (fun k hk u => h k (List.mem_range.1 hk) u) hs

/-- An act on each context in turn: those before i, i itself, and those behind it. -/
theorem eachContext_split {act : Nat → State → State} (h : ∀ k, k ≠ i → ∀ u : State, u.Holds i slot → u.Waits i slot (act k u))
    (hs : s.Holds i slot) (own : ∀ u : State, s.Waits i slot u → (act i u).Holds i slot) :
    ∃ u, s.Waits i slot u ∧ (act i u).Waits i slot (Machine.eachContext act s) := by
  obtain ⟨before, after, split, no_before, no_after⟩ := range_split hs.lt
  have others : ∀ l : List Nat, i ∉ l → ∀ u : State, u.Holds i slot → u.Waits i slot (l.foldl (fun s k => act k s) u) := fun l hl u hu =>
    foldl (P := fun _ => True) (fun k hk u hu => h k (fun he => hl (he ▸ hk)) u hu.1) ⟨hu, trivial⟩
  have first := others before no_before s hs
  refine ⟨_, first, ?_⟩
  have eq : Machine.eachContext act s = after.foldl (fun s k => act k s) (act i (before.foldl (fun s k => act k s) s)) := by
    rw [Machine.eachContext, Config.contexts, split, List.foldl_append, List.foldl_cons]
  rw [eq]
  exact others after no_after _ (own _ first)

/-! ### The judgements of any context -/

theorem judgeAbsence_ne (h : s.Holds i slot) (hk : k ≠ i) : s.Waits i slot (judgeAbsence k s) :=
  (State.Passes.judgeAbsence h hk).waits (State.Follows.refl s).judgeAbsence.steady (State.Judges.judgeAbsence k s).turn

theorem ageReclaim_ne (h : s.Holds i slot) (hk : k ≠ i) : s.Waits i slot (ageReclaim k s) :=
  (State.Passes.ageReclaim h.alone hk).waits (State.Follows.refl s).ageReclaim.steady (State.Judges.ageReclaim k s).turn

theorem requeueReclaim (h : s.Holds i slot) (k : Nat) : s.Waits i slot (requeueReclaim k s) :=
  (State.Passes.requeueReclaim h.alone k).waits (State.Follows.refl s).requeueReclaim.steady (State.Judges.requeueReclaim k s).turn

theorem updateAbsence (h : s.Holds i slot) : s.Waits i slot (updateAbsence s) :=
  (State.Passes.updateAbsence h.alone).waits (State.Steady.updateAbsence s) (State.Turn.mk rfl rfl (Nat.le_refl _) (.inl rfl))

theorem judgeAdopt (h : s.Holds i slot) {other : Nat} (lt : other < 128) : s.Waits i slot (judgeAdopt other s) :=
  (State.Passes.judgeAdopt h other).waits (State.Steady.judgeAdopt lt s) (State.Judges.judgeAdopt other s).turn

theorem queueAdopt (h : s.Holds i slot) (other : Nat) : s.Waits i slot (queueAdopt other s) :=
  (State.Passes.queueAdopt h.alone other).waits (State.Follows.refl s).queueAdopt.steady (queueAdopt_turn other s)

theorem boundaryOrphans (h : s.Holds i slot) : s.Waits i slot (boundaryOrphans s) := by
  have judged : s.Waits i slot (Machine.eachSlot Machine.judgeAdopt s) :=
    eachSlot (P := fun _ => True) (fun _ lt _ hu => judgeAdopt hu.1 lt) ⟨h, trivial⟩
  exact judged.trans (eachSlot (P := fun _ => True) (fun other _ _ hu => queueAdopt hu.1 other) ⟨judged.holds h, trivial⟩)

/-- A context without a hand-over pending. -/
theorem handOver (h : s.Stands i slot fun c => c.stopAt = none ∧ c.startAt = none) (k : Nat) : s.Waits i slot (handOver k s) := by
  by_cases hk : k = i
  · subst hk
    have stop : (s.ctx k).stopAt = none := h.2.1
    have start : (s.ctx k).startAt = none := h.2.2
    have stands : Machine.handOver k s = s := by
      unfold Machine.handOver
      dsimp only
      have unstopped : ¬((none : Option Nat).elim false fun f => decide (f ≤ s.frame)) = true := Bool.false_ne_true
      rw [stop, if_neg unstopped, start, if_neg unstopped]
    rw [stands]
    exact refl s
  · exact (State.Passes.handOver h.1 hk).waits (State.Steady.handOver k s) (State.Judges.handOver k s).turn

end State.Waits

/-! ## Judgements of bids and offers leave a context that has none -/

section Aloof

variable {s : State} {i k slot : Nat}

/-- A context in a role with neither bid nor offer open. -/
def Context.Aloof (c : Context) : Prop := c.role = .handed ∨ c.role = .reclaiming ∨ c.role = .taken ∨ c.role = .actingHome

theorem Context.role_of_steady {c : Context} {r : Role} (h : c.steady.role = r) (hr : r ≠ .homeServing) : c.role = r := by
  unfold Context.steady at h
  dsimp only at h
  split at h
  · exact absurd h.symm hr
  · exact h

theorem Context.aloof_of_steady {c : Context} (h : c.steady.Aloof) : c.Aloof := by
  have role : ∀ r, r ≠ .homeServing → c.steady.role = r → c.role = r := fun r hr h => Context.role_of_steady h hr
  exact h.imp (role _ (by decide)) (.imp (role _ (by decide)) (.imp (role _ (by decide)) (role _ (by decide))))

theorem Context.Aloof.steady {c : Context} (h : c.Aloof) : c.steady.Aloof := by
  have role : ∀ r, r ≠ .homeOffering → c.role = r → c.steady.role = r := fun r hr h => (if_neg (by rw [h]; exact hr)).trans h
  exact h.imp (role _ (by decide)) (.imp (role _ (by decide)) (.imp (role _ (by decide)) (role _ (by decide))))

theorem Context.Aloof.ne {c : Context} (h : c.Aloof) : c.role ≠ .reserved ∧ c.role ≠ .homeOffering := by
  rcases h with h | h | h | h <;> rw [h] <;> exact ⟨by decide, by decide⟩

theorem withdrawBid_aloof (h : (s.ctx i).Aloof) : withdrawBid i s = s :=
  if_neg fun hc => h.ne.1 hc.1

theorem failOffer_aloof (h : (s.ctx i).Aloof) : failOffer i s = s :=
  if_neg fun hc => h.ne.2 hc.1

theorem endOfferWindow_aloof (h : (s.ctx i).Aloof) : endOfferWindow i s = s := by
  unfold endOfferWindow
  dsimp only
  split
  · next hr _ => exact absurd hr h.ne.2
  · rfl

theorem onHeld_of_holds {act : Nat → State → State} {t : State} (h : s.Holds i slot) (table : t.table = s.table) :
    onHeld slot act t = act i t := by
  have hl : t.lookup slot = some i := by
    rw [State.lookup, table]
    exact h.lookup
  rw [onHeld, hl]

namespace State.Waits

variable {other : Nat}

theorem expireAdopts (h : s.Holds i slot) : s.Waits i slot (expireAdopts s) := by
  have kept : ∀ e : Entry, e.msg.kind ≠ 11 → (match e.msg with | .adopt slot _ _ => s.otherMark slot.toNat | _ => false) = false :=
    fun _ hk => Entry.not_adopt_of_kind (p := fun slot => s.otherMark slot.toNat) hk
  refine State.Passes.waits ?_ (State.Follows.refl s).expireAdopts.steady (State.Judges.expireAdopts s).turn
  exact (State.Passes.refl h.alone).withdraw (fun e hg => kept e (by rw [Entry.kind_of_isGrant hg]; decide))
    fun e hr => kept e (by rw [Entry.kind_of_isReclaim hr]; decide)

theorem expireBid (h : s.Stands i slot Context.Aloof) (other : Nat) : s.Waits i slot (expireBid other s) := by
  have sound := State.Steady.expireBid other s
  have turn := (State.Judges.expireBid other s).turn
  by_cases hne : other = slot
  · subst hne
    have withdrawn : Machine.onHeld other Machine.withdrawBid (s.withdraw fun e => e.isBid other && e.pastOffer s.frame 4) =
        s.withdraw fun e => e.isBid other && e.pastOffer s.frame 4 :=
      (onHeld_of_holds (t := s.withdraw _) h.1 rfl).trans (withdrawBid_aloof (s := s.withdraw _) (Context.aloof_of_steady h.2))
    have passes : s.Passes i other (Machine.expireBid other s) := by
      unfold Machine.expireBid
      dsimp only
      rw [withdrawn]
      have stands := State.Passes.refl h.1.alone
      exact .ite (stands.withdraw (fun e hg => by rw [Entry.not_isBid (by rw [Entry.kind_of_isGrant hg]; decide), Bool.false_and])
        fun e hr => by rw [Entry.not_isBid (by rw [Entry.kind_of_isReclaim hr]; decide), Bool.false_and]) stands
    exact passes.waits sound turn
  · exact (State.Passes.expireBid h.1 hne).waits sound turn

theorem expireGrant (h : s.Stands i slot Context.Aloof) (other : Nat) : s.Waits i slot (expireGrant other s) := by
  have sound := (State.Follows.refl s).expireGrant (slot := other) |>.steady
  have turn := (State.Judges.expireGrant other s).turn
  by_cases hne : other = slot
  · subst hne
    have withdrawn : Machine.onHeld other Machine.failOffer (s.withdraw fun e => e.isGrant other && e.pastOffer s.frame 8) =
        s.withdraw fun e => e.isGrant other && e.pastOffer s.frame 8 :=
      (onHeld_of_holds (t := s.withdraw _) h.1 rfl).trans (failOffer_aloof (s := s.withdraw _) (Context.aloof_of_steady h.2))
    unfold Machine.expireGrant at sound turn ⊢
    dsimp only at sound turn ⊢
    rw [withdrawn] at sound turn ⊢
    refine of_same sound turn ?_ fun e he hr => ?_
    · split <;> rfl
    · split
      · exact (State.mem_withdraw _ _ e).2 ⟨he, by rw [Entry.not_isGrant (by rw [Entry.kind_of_isReclaim hr]; decide), Bool.false_and]⟩
      · exact he
  · exact (State.Passes.expireGrant h.1 hne).waits sound turn

theorem endOfferWindow (h : s.Stands i slot Context.Aloof) (k : Nat) : s.Waits i slot (endOfferWindow k s) := by
  by_cases hk : k = i
  · rw [hk, endOfferWindow_aloof (Context.aloof_of_steady h.2)]
    exact refl s
  · exact (State.Passes.endOfferWindow h.1 hk).waits (State.Follows.refl s).endOfferWindow.steady (State.Judges.endOfferWindow k s).turn

theorem timeOutBid (h : s.Stands i slot Context.Aloof) (k : Nat) : s.Waits i slot (timeOutBid k s) := by
  by_cases hk : k = i
  · have stands : Machine.timeOutBid i s = s := by
      unfold Machine.timeOutBid
      rw [withdrawBid_aloof (Context.aloof_of_steady h.2)]
      split
      · exact ite_self s
      · rfl
    rw [hk, stands]
    exact refl s
  · exact (State.Passes.timeOutBid h.1 hk).waits (State.Steady.timeOutBid k s) (State.Judges.timeOutBid k s).turn

theorem expireOfferMemory (h : s.Holds i slot) (other : Nat) : s.Waits i slot (expireOfferMemory other s) :=
  (State.Passes.expireOfferMemory h.alone other).waits (State.Follows.refl s).expireOfferMemory.steady
    (State.Judges.expireOfferMemory other s).turn

theorem queueReturn (h : s.Holds i slot) (k : Nat) : s.Waits i slot (queueReturn k s) :=
  (State.Passes.queueReturn h.alone k).waits (State.Follows.refl s).queueReturn.steady (State.Judges.queueReturn k s).turn

end State.Waits

/-- The stages of a RUN boundary before its home judgements (R152, R157, R160, R161, R164). -/
def bidsExpired (s : State) : State := eachSlot expireBid (expireAdopts s)
def grantsExpired (s : State) : State := eachSlot expireGrant (bidsExpired s)
def windowsEnded (s : State) : State := eachContext endOfferWindow (grantsExpired s)
def bidsTimedOut (s : State) : State := eachContext timeOutBid (windowsEnded s)
def memoryExpired (s : State) : State := eachSlot expireOfferMemory (bidsTimedOut s)
def boundaryGuests (s : State) : State := eachContext queueReturn (memoryExpired s)

theorem boundaryCalls_eq (s : State) : boundaryCalls s = boundaryHomes (boundaryGuests s) := rfl

theorem State.Waits.memoryExpired (h : s.Stands i slot Context.Aloof) : s.Waits i slot (memoryExpired s) := by
  have adopts := State.Waits.expireAdopts h.1
  have bids := adopts.trans (.eachSlot (fun other _ _ hu => .expireBid hu other) (adopts.stands h))
  have grants := bids.trans (.eachSlot (fun other _ _ hu => .expireGrant hu other) (bids.stands h))
  have windows := grants.trans (.eachContext (fun k _ hu => .endOfferWindow hu k) (grants.stands h))
  have outs := windows.trans (.eachContext (fun k _ hu => .timeOutBid hu k) (windows.stands h))
  exact outs.trans (.eachSlot (fun other _ _ hu => .expireOfferMemory hu.1 other) (outs.stands h))

theorem State.Waits.boundaryGuests (h : s.Stands i slot Context.Aloof) : s.Waits i slot (boundaryGuests s) := by
  have memory := State.Waits.memoryExpired h
  exact memory.trans (.eachContext (fun k _ hu => .queueReturn hu.1 k) (memory.stands h))

end Aloof

end Sys2Proof.Machine

namespace Sys2Proof.Machine

open Sys2Proof

/-! ## RUN entry beside a context (R29) -/

/-- `t` is `s` after acts of calls: judgements that keep the RECLAIMs in the queue too. -/
structure State.Carries (s t : State) : Prop where
  judges : s.Judges t
  reclaims : ∀ e ∈ s.lane.queue, e.msg.kind = 10 → e ∈ t.lane.queue

section Carries

variable {s t u : State} {i k slot : Nat}

theorem State.Carries.trans (h : s.Carries t) (h' : t.Carries u) : s.Carries u :=
  ⟨h.judges.trans h'.judges, fun e he hk => h'.reclaims e (h.reclaims e he hk) hk⟩

theorem State.Carries.refl (s : State) : s.Carries s := ⟨.refl s, fun _ he _ => he⟩

theorem State.Carries.modCtx (s : State) (i : Nat) (f : Context → Context) : s.Carries (s.modCtx i f) :=
  ⟨.modCtx s i f, fun _ he _ => he⟩

theorem State.Carries.of_onlyNotices (h : s.OnlyNotices t) (out : t.outside = s.outside) : s.Carries t :=
  ⟨.of_onlyNotices h out, fun _ he hk => h.queue_stays he (by rw [hk]; decide) (by rw [hk]; decide)⟩

theorem State.Carries.enqueue (s : State) {e : Entry} (fresh : s.Fresh e) : s.Carries (s.enqueue e).1 :=
  ⟨.enqueue s fresh, fun x hx hk => (s.enqueue_onlyJoins e).stays x hx (by rw [hk]; decide) (by rw [hk]; decide)⟩

theorem offerIfShort_carries (i n : Nat) (s : State) : s.Carries (offerIfShort i n s) := by
  have offered : ∀ (u : State) (m : Msg), m.kind = 9 → u.Carries (u.enqueue ⟨m, u.frame, none⟩).1 := fun u m hm =>
    .enqueue u (State.Judges.fresh_of_kind (show m.kind ≠ 12 by rw [hm]; decide) (show m.kind ≠ 13 by rw [hm]; decide)
      (show m.kind ≠ 11 by rw [hm]; decide))
  unfold offerIfShort makeOffer
  dsimp only
  split
  · have made := (State.Carries.modCtx s i fun c => { c with role := .homeOffering, offer := some ⟨none, none⟩ }).trans
      (offered _ (.offer (BitVec.ofNat 7 ((s.modCtx i fun c => { c with role := .homeOffering, offer := some ⟨none, none⟩ }).slotOf i))
        (BitVec.ofNat 5 ((s.modCtx i fun c => { c with role := .homeOffering, offer := some ⟨none, none⟩ }).profileOf i).budget)
        (BitVec.ofNat 3 (s.ctx i).profile) (BitVec.ofBool (s.ctx i).frozen)
        (s.modCtx i fun c => { c with role := .homeOffering, offer := some ⟨none, none⟩ }).me) rfl)
    split
    · exact made
    · exact (made.trans (.modCtx _ i _)).trans (.of_onlyNotices ((State.OnlyNotices.refl _).notify _ _) (by simp))
  · exact .refl s

theorem startSearch_carries (i : Nat) (s : State) : s.Carries (startSearch i s) := by
  have starting : s.Carries (s.searchStarting i) := .modCtx s i _
  have begun := starting.trans (.of_onlyNotices ((State.OnlyNotices.refl _).requestToSpare i) (outside_requestToSpare i _))
  have asked : s.Carries (s.asked i) := begun.trans (offerIfShort_carries i _ _)
  rw [startSearch_eq]
  split
  · exact asked.trans (.of_onlyNotices ((State.OnlyNotices.refl _).perform _) (by simp))
  · exact asked

theorem callStart_carries (i : Nat) (s : State) : s.Carries (callStart i s) := by
  have set := fun f g => (State.Carries.modCtx s i f).trans (State.Carries.modCtx (s.modCtx i f) i g)
  unfold callStart
  dsimp only
  split
  · exact (set _ _).trans (.modCtx _ i _)
  · exact (set _ _).trans (startSearch_carries i _)

theorem rejudge_carries (i : Nat) (s : State) : s.Carries (rejudge s i) := by
  unfold rejudge
  split
  · exact .refl s
  · split
    · split
      · exact callStart_carries i s
      · exact .of_onlyNotices ((State.OnlyNotices.refl s).enterPassing i _) (by simp)
    · exact .refl s

theorem steady_rejudge_ne (hk : k ≠ i) : ((rejudge s i).ctx k).steady = (s.ctx k).steady := by
  unfold rejudge
  split
  · rfl
  · split
    · split
      · exact steady_callStart_ne hk
      · exact steady_enterPassing_ne hk
    · rfl

theorem State.Waits.rejudge_ne (hk : k ≠ i) : s.Waits i slot (rejudge s k) :=
  ⟨.rejudge s k, (rejudge_carries k s).judges.turn, steady_rejudge_ne hk.symm, (rejudge_beside hk).fixed,
    fun e he hr => (rejudge_carries k s).reclaims e he (Entry.kind_of_isReclaim hr)⟩

end Carries

/-! ## A home that takes its slot back (R166) -/

section Resume

variable {s t u : State} {i k slot : Nat}

/-- A home that the absence rule takes back: HANDED, or RECLAIMING once its first judged frame has come (R166). -/
def Context.Due (frame : Nat) (c : Context) : Prop :=
  c.role = .handed ∨ c.role = .reclaiming ∧ ∃ r, c.reclaim = some r ∧ r.judgeFrom < frame

theorem Context.Due.role {frame : Nat} {c : Context} (h : c.Due frame) : c.role = .handed ∨ c.role = .reclaiming := h.imp_right fun h => h.1

theorem Context.Due.aloof {frame : Nat} {c : Context} (h : c.Due frame) : c.Aloof := h.role.imp_right .inl

theorem Context.Due.steady {frame : Nat} {c : Context} (h : c.Due frame) : c.steady.Due frame := by
  rcases h with role | ⟨role, reclaim⟩
  · exact .inl (by rw [Context.steady, role]; rfl)
  · exact .inr ⟨by rw [Context.steady, role]; rfl, reclaim⟩

theorem Context.due_of_steady {frame : Nat} {c : Context} (h : c.steady.Due frame) : c.Due frame :=
  h.imp (fun h => Context.role_of_steady h (by decide)) fun h => ⟨Context.role_of_steady h.1 (by decide), h.2⟩

/-- Context i as it serves its home slot again (R166, R170). -/
def State.resumed (s : State) (i : Nat) : Context :=
  { s.ctx i with
    role := .homeServing, server := none, reclaim := none, startAt := none, stopAt := none, grantee := none
    serving := some (startedParts i s), search := none, toneHold := false
    callState := if (s.ctx i).transparent || s.profile.station != .run then .bypass else .idle }

/-- A context as it is to serve its home slot again. -/
def Context.returned (c : Context) : Context :=
  { c with role := .homeServing, server := none, reclaim := none, startAt := none, stopAt := none, grantee := none }

theorem serveAgain_eq (i : Nat) (s : State) :
    serveAgain i s = servingStart i none ((s.withdraw fun e => e.isReclaim (s.slotOf i)).modCtx i Context.returned) := rfl

theorem serveAgain_ctx (hi : i < s.table.contexts.length) : (serveAgain i s).ctx i = s.resumed i := by
  have len : i < ((s.withdraw fun e => e.isReclaim (s.slotOf i)).modCtx i Context.returned).table.contexts.length := by simpa using hi
  have self : ((s.withdraw fun e => e.isReclaim (s.slotOf i)).modCtx i Context.returned).ctx i = (s.ctx i).returned :=
    State.ctx_modCtx_self _ _ _ (by exact hi)
  have profile : ((s.withdraw fun e => e.isReclaim (s.slotOf i)).modCtx i Context.returned).profile = s.profile := rfl
  rw [serveAgain_eq]
  generalize (s.withdraw fun e => e.isReclaim (s.slotOf i)).modCtx i Context.returned = u at len self profile
  rw [servingStart_none_ctx _ _ len, startedParts, State.slotOf, State.profileAt, self, profile]
  rfl

theorem resumed_passes (s : State) (i : Nat) : (s.resumed i).callState.processes = false := by
  unfold State.resumed
  dsimp only
  split <;> rfl

theorem judgeAbsence_of_due (h : (s.ctx i).Due s.frame) (unmarked : s.lane.markRecord.getLsbD (s.slotOf i) = false) :
    judgeAbsence i s = serveAgain i s := by
  refine if_pos ?_
  rw [unmarked]
  rcases h with role | ⟨role, r, reclaim, first⟩
  · rw [role]
    rfl
  · rw [role, reclaim]
    simp [first]

theorem judgeAbsence_of_marked (marked : s.lane.markRecord.getLsbD (s.slotOf i) = true) : judgeAbsence i s = s := by
  refine if_neg ?_
  rw [marked]
  simp

theorem State.Waits.ageReclaim_unset (h : s.Stands i slot fun c => c.reclaim = none) (k : Nat) : s.Waits i slot (ageReclaim k s) := by
  by_cases hk : k = i
  · subst hk
    have clear : (s.ctx k).reclaim = none := h.2
    refine .of_same (State.Follows.refl s).ageReclaim.steady (State.Judges.ageReclaim k s).turn ?_ fun _ he _ => he
    rw [ageReclaim, State.ctx_modCtx_self _ _ _ h.1.lt_length, clear, Option.map_none, ← clear]
  · exact .ageReclaim_ne h.1 hk

/-- The home judgements of a boundary take a home back whose slot has no mark (R166). -/
theorem boundaryHomes_resumes (h : s.Holds i slot) (due : (s.ctx i).Due s.frame) (unmarked : s.lane.markRecord.getLsbD slot = false) :
    ∃ u, s.Waits i slot u ∧ (boundaryHomes s).ctx i = u.resumed i ∧ (boundaryHomes s).Holds i slot := by
  have judged : ∀ u : State, s.Waits i slot u → judgeAbsence i u = serveAgain i u ∧ (serveAgain i u).Holds i slot := fun u hu => by
    have holds := hu.holds h
    have act : judgeAbsence i u = serveAgain i u := judgeAbsence_of_due
      (by rw [hu.turn.frame]; exact Context.due_of_steady (hu.steady ▸ due.steady))
      (by rw [hu.turn.markRecord, holds.slotOf]; exact unmarked)
    refine ⟨act, act ▸ (State.Follows.refl u).judgeAbsence.steady.slots holds.sound, ?_⟩
    rw [serveAgain_ctx holds.lt_length]
    exact holds.slot
  obtain ⟨u, before, after⟩ := State.Waits.eachContext_split (act := judgeAbsence) (fun _ hk _ hu => .judgeAbsence_ne hu hk) h
    fun u hu => by
      rw [(judged u hu).1]
      exact (judged u hu).2
  obtain ⟨act, holds⟩ := judged u before
  rw [act] at after
  have self : (serveAgain i u).ctx i = u.resumed i := serveAgain_ctx (before.holds h).lt_length
  have aged := after.trans (.eachContext (P := fun c => c.reclaim = none) (fun k _ hu => .ageReclaim_unset hu k)
    (after.stands ⟨holds, by rw [self]; rfl⟩))
  have queued := aged.trans (.eachContext (act := requeueReclaim) (P := fun _ => True) (fun k _ hu => .requeueReclaim hu.1 k)
    ⟨aged.holds holds, trivial⟩)
  refine ⟨u, before, ?_, queued.holds holds⟩
  rw [← self]
  exact queued.fixed (by rw [self]; exact Context.takesNone_of_passes (resumed_passes u i))

/-- A context that serves its home slot again, without a call (R166). -/
structure Context.Resumed (profile : Nat) (c : Context) : Prop where
  serving : ∃ sv, c.serving = some sv ∧ sv.callPresent = false
  role : c.role = .homeServing
  server : c.server = none
  reclaim : c.reclaim = none
  startAt : c.startAt = none
  stopAt : c.stopAt = none
  profile : c.profile = profile
  passes : c.callState.processes = false

theorem resumed_resumed (s : State) (i : Nat) : (s.resumed i).Resumed (s.ctx i).profile :=
  ⟨⟨_, rfl, rfl⟩, rfl, rfl, rfl, rfl, rfl, rfl, resumed_passes s i⟩

/-- Without a call a home in BYPASS goes to IDLE at RUN entry (R29). -/
theorem rejudge_resumed {p : Nat} (h : (s.ctx i).Resumed p) : ((rejudge s i).ctx i).Resumed p := by
  obtain ⟨sv, hsv, absent⟩ := h.serving
  by_cases hc : (s.ctx i).callState = .bypass ∧ s.serves i = true ∧ (!(s.ctx i).transparent) = true
  · obtain ⟨bypass, serves, opaque_⟩ := hc
    have self := enterPassing_ctx (s := s) (st := .idle) (State.lt_of_serving hsv) rfl
    have parts := (State.Cancels.refl (s := s)).enterPassing i .idle |>.parts i
    rw [rejudge_of_bypass hsv serves bypass (by simpa using opaque_), if_neg (by rw [absent]; exact Bool.false_ne_true)]
    generalize (enterPassing i .idle s).ctx i = d at self parts
    have role : d.role = .homeServing := by
      rcases parts.2.2 with ⟨same, -⟩ | ⟨-, now, -⟩
      · exact same.trans h.role
      · exact now
    have passing : (s.ctx i).passing .idle = { s.ctx i with
        callState := .idle, search := none, toneHold := false, serving := (s.ctx i).serving.map Serving.untoned } := if_neg (by decide)
    rw [passing] at self
    have serving : d.serving = some sv.untoned := by
      rw [Context.unoffered_serving self]
      dsimp only
      rw [hsv]
      rfl
    have server := (congrArg Context.server self :)
    have reclaim := (congrArg Context.reclaim self :)
    have start := (congrArg Context.startAt self :)
    have stop := (congrArg Context.stopAt self :)
    have profile := (congrArg Context.profile self :)
    exact ⟨⟨_, serving, absent⟩, role, server.trans h.server, reclaim.trans h.reclaim, start.trans h.startAt, stop.trans h.stopAt,
      profile.trans h.profile, by rw [Context.unoffered_callState self]; rfl⟩
  · rw [rejudge_of_not hc]
    exact h

end Resume

end Sys2Proof.Machine

namespace Sys2Proof.Machine

open Sys2Proof

/-! ## A home that reclaims its slot (R170) -/

section Reclaim

variable {s t u : State} {i k slot d : Nat} {r : Reclaim}

/-- A home that reclaims its slot, with this record and no hand-over pending. -/
def Context.Reclaiming (r : Reclaim) (c : Context) : Prop :=
  c.role = .reclaiming ∧ c.reclaim = some r ∧ c.stopAt = none ∧ c.startAt = none

theorem Context.Reclaiming.steady {c : Context} (h : c.Reclaiming r) : c.steady.Reclaiming r := by
  obtain ⟨role, rest⟩ := h
  exact ⟨by rw [Context.steady, role]; rfl, rest⟩

theorem Context.reclaiming_of_steady {c : Context} (h : c.steady.Reclaiming r) : c.Reclaiming r :=
  ⟨Context.role_of_steady h.1 (by decide), h.2⟩

/-- A RECLAIM for the slot stands in the queue, or one was dropped since the count stood at `d`. -/
def State.Reclaims (s : State) (slot d : Nat) : Prop :=
  (∃ e ∈ s.lane.queue, e.isReclaim slot = true) ∨ d < s.lane.drops ∨ s.lane.drops = 65535

theorem State.Waits.keepsReclaim (h : s.Waits i slot t) (hs : s.Reclaims slot d) : t.Reclaims slot d :=
  hs.imp (fun ⟨e, he, hr⟩ => ⟨e, h.reclaims e he hr, hr⟩) h.turn.over

/-- A RECLAIM at its age is queued, unless one is queued already or it is dropped (R151, R170). -/
theorem requeueReclaim_reclaims (h : s.Holds i slot) (hc : (s.ctx i).Reclaiming r) (age : 8000 ≤ r.age)
    (count : min 65535 d ≤ min 65535 s.lane.drops) : (requeueReclaim i s).Reclaims slot d := by
  obtain ⟨role, reclaim, -⟩ := hc
  unfold requeueReclaim
  dsimp only
  rw [role, reclaim, h.slotOf]
  dsimp only
  have old : (r.carried.isNone || decide (Config.reclaimTop ≤ r.age)) = true := by simp [Config.reclaimTop, age]
  rw [old, Bool.true_and]
  split
  · rcases s.enqueue_or_drops ⟨.reclaim (BitVec.ofNat 7 slot) s.me, s.frame, none⟩ with joined | dropped
    · exact .inl ⟨_, joined, by simp [Entry.isReclaim, Nat.mod_eq_of_lt h.slot_lt]⟩
    · refine .inr ?_
      show d < (s.enqueue _).1.lane.drops ∨ (s.enqueue _).1.lane.drops = 65535
      rw [dropped]
      omega
  · next queued =>
    obtain ⟨e, he, hr⟩ := List.any_eq_true.1 (show s.queued (·.isReclaim slot) = true by simpa using queued)
    exact .inl ⟨e, he, hr⟩

/-- The home judgements of a boundary leave a home whose slot has a mark, and count the age of its RECLAIM (R170). -/
theorem boundaryHomes_ages (h : s.Holds i slot) (hc : (s.ctx i).Reclaiming r) (marked : s.lane.markRecord.getLsbD slot = true)
    (count : min 65535 d ≤ min 65535 s.lane.drops) :
    (boundaryHomes s).Stands i slot (Context.Reclaiming (nextReclaim s.frame r)) ∧ s.Turn (boundaryHomes s)
      ∧ (8000 ≤ (nextReclaim s.frame r).age → (boundaryHomes s).Reclaims slot d) := by
  obtain ⟨u, before, after⟩ := State.Waits.eachContext_split (act := judgeAbsence) (fun _ hk _ hu => .judgeAbsence_ne hu hk) h fun u hu => by
    rw [judgeAbsence_of_marked (by rw [hu.turn.markRecord, (hu.holds h).slotOf]; exact marked)]
    exact hu.holds h
  rw [judgeAbsence_of_marked (by rw [before.turn.markRecord, (before.holds h).slotOf]; exact marked)] at after
  have judged := before.trans after
  have stands := judged.stands ⟨h, hc.steady⟩
  have self : ∀ u : State, u.Stands i slot (Context.Reclaiming r) → u.frame = s.frame →
      (ageReclaim i u).Stands i slot (Context.Reclaiming (nextReclaim s.frame r)) := fun u hu frame => by
    obtain ⟨role, reclaim, stop, start⟩ := Context.reclaiming_of_steady hu.2
    have ctx : (ageReclaim i u).ctx i = { u.ctx i with reclaim := some (nextReclaim s.frame r) } := by
      rw [ageReclaim, State.ctx_modCtx_self _ _ _ hu.1.lt_length, frame, reclaim]
      rfl
    refine ⟨⟨(State.Follows.refl u).ageReclaim.steady.slots hu.1.sound, ?_⟩, Context.Reclaiming.steady ?_⟩ <;> rw [ctx]
    · exact hu.1.slot
    · exact ⟨role, rfl, stop, start⟩
  obtain ⟨v, first, rest⟩ := State.Waits.eachContext_split (act := ageReclaim) (fun _ hk _ hu => .ageReclaim_ne hu hk) (judged.holds h)
    fun u hu => (self u (hu.stands stands) (hu.turn.frame.trans judged.turn.frame)).1
  have aged := self v (first.stands stands) (first.turn.frame.trans judged.turn.frame)
  have turn : s.Turn (eachContext ageReclaim (eachContext judgeAbsence s)) :=
    ((judged.turn.trans first.turn).trans (State.Judges.ageReclaim i v).turn).trans rest.turn
  have stands' := rest.stands aged
  obtain ⟨w, queued, last⟩ := State.Waits.eachContext_split (act := requeueReclaim) (fun k _ _ hu => .requeueReclaim hu k) stands'.1
    fun u hu => (State.Waits.requeueReclaim (hu.holds stands'.1) i).holds (hu.holds stands'.1)
  have own := State.Waits.requeueReclaim (queued.holds stands'.1) i
  have waits := (queued.trans own).trans last
  refine ⟨waits.stands stands', turn.trans waits.turn, fun age => last.keepsReclaim ?_⟩
  have standsW := queued.stands stands'
  exact requeueReclaim_reclaims standsW.1 (Context.reclaiming_of_steady standsW.2) age (Nat.le_trans count (turn.trans queued.turn).rises)

end Reclaim

/-! ## The hand-overs that follow the judgements -/

section After

variable {s t : State} {i slot : Nat}

/-- Nothing of a boundary in RUN behind the home judgements touches a context without a hand-over pending. -/
theorem afterHomes_waits (h : s.Stands i slot fun c => c.stopAt = none ∧ c.startAt = none) :
    s.Waits i slot (eachContext handOver (boundaryOrphans (updateAbsence s))) := by
  have counted := State.Waits.updateAbsence h.1
  have orphans := counted.trans (.boundaryOrphans (counted.holds h.1))
  exact orphans.trans (.eachContext (fun k _ hu => .handOver hu k) (orphans.stands h))

theorem handOvers_wait (h : s.Stands i slot fun c => c.stopAt = none ∧ c.startAt = none) :
    s.Waits i slot (eachContext handOver s) := .eachContext (fun k _ hu => .handOver hu k) h

/-- RUN entry, when due, sets the station and the absence counts, and re-judges the contexts in order. -/
theorem boundaryConfig_cases (s : State) : boundaryConfig s = boundaryHomes s.configCounted
    ∨ boundaryConfig s = (List.range 64).foldl rejudge (boundaryHomes s.configCounted).enteredRun := by
  have split : boundaryConfig s = if runEntryDue (boundaryHomes s.configCounted) then enterRun (boundaryHomes s.configCounted)
      else ifDue configTimeoutDue enterRun (boundaryHomes s.configCounted) := rfl
  rw [split]
  generalize boundaryHomes s.configCounted = u
  unfold ifDue
  split
  · exact .inr (enterRun_eq u)
  · split
    · exact .inr (enterRun_eq u)
    · exact .inl rfl

theorem State.Holds.of_profile {p : ProfileTable} (h : s.Holds i slot) (table : t.table = s.table) (profile : t.profile = p)
    (hk : p.k = s.profile.k) (hn : p.n = s.profile.n) : t.Holds i slot := by
  have ctx : ∀ k, t.ctx k = s.ctx k := fun k => by rw [State.ctx, table, State.ctx]
  refine ⟨?_, by rw [ctx]; exact h.slot⟩
  have sound := h.sound
  simpa only [State.slotsSound, State.lookup, ctx, table, profile, hk, hn] using sound

theorem State.Holds.marked (h : s.Holds i slot) (others : BitVec 128) : (s.marked others).Holds i slot := h.of_profile rfl rfl rfl rfl
theorem State.Holds.configCounted (h : s.Holds i slot) : s.configCounted.Holds i slot := h.of_profile rfl rfl rfl rfl
theorem enteredRun_ctx (s : State) (i : Nat) : s.enteredRun.ctx i = s.ctx i := rfl

theorem enteredRun_reclaims (s : State) (slot d : Nat) : s.enteredRun.Reclaims slot d ↔ s.Reclaims slot d := Iff.rfl

theorem State.Holds.enteredRun (h : s.Holds i slot) : s.enteredRun.Holds i slot := h.of_profile rfl rfl rfl rfl

theorem marked_markRecord (s : State) (others : BitVec 128) : (s.marked others).lane.markRecord = others ||| s.marks := by
  rw [← settleRecalled_marks]
  rfl

/-- A slot whose home does not serve it has the marks of the others alone (R138). -/
theorem State.Holds.markRecord (h : s.Holds i slot) (others : BitVec 128) (idle : (s.ctx i).role.serves = false) :
    (s.marked others).lane.markRecord.getLsbD slot = others.getLsbD slot := by
  have unserved : s.servedBy slot = none := by
    rw [State.servedBy, h.lookup, Option.filter_some, State.serves, idle]
    rfl
  rw [marked_markRecord, BitVec.getLsbD_or, marks_getLsbD s h.slot_lt, unserved]
  exact Bool.or_false _

theorem Context.Resumed.unpending {p : Nat} {c : Context} (h : c.Resumed p) : c.steady.stopAt = none ∧ c.steady.startAt = none :=
  ⟨h.stopAt, h.startAt⟩

/-- A home that takes its slot back stands so once the boundary is over. -/
theorem resumed_stays {p : Nat} (h : s.Holds i slot) (hc : (s.ctx i).Resumed p) :
    s.Waits i slot (eachContext handOver s) ∧ (eachContext handOver s).ctx i = s.ctx i := by
  have waits := handOvers_wait (s := s) (i := i) (slot := slot) ⟨h, hc.unpending⟩
  exact ⟨waits, waits.fixed (Context.takesNone_of_passes hc.passes)⟩

theorem rejudges_resumed {p : Nat} (l : List Nat) (h : s.Holds i slot) (hc : (s.ctx i).Resumed p) :
    (l.foldl rejudge s).Holds i slot ∧ ((l.foldl rejudge s).ctx i).Resumed p := by
  induction l generalizing s with
  | nil => exact ⟨h, hc⟩
  | cons k l ih =>
    rw [List.foldl_cons]
    by_cases hk : k = i
    · subst hk
      have judged := rejudge_resumed hc
      refine ih ⟨(State.Steady.rejudge s k).slots h.sound, ?_⟩ judged
      obtain ⟨sv, hsv, -⟩ := hc.serving
      exact (((State.Follows.refl s).rejudge (State.occupied_of_serving hsv)).ctx k).slot.trans h.slot
    · have waits := State.Waits.rejudge_ne (s := s) (slot := slot) hk
      exact ih (waits.holds h) (by rw [waits.fixed (Context.takesNone_of_passes hc.passes)]; exact hc)

/-- A home that RECLAIMS its slot does not serve, so that RUN entry leaves it (R29). -/
theorem rejudges_reclaiming {r : Reclaim} (l : List Nat) (h : s.Stands i slot (Context.Reclaiming r)) :
    s.Waits i slot (l.foldl rejudge s) := by
  refine .foldl (P := Context.Reclaiming r) (fun k _ u hu => ?_) h
  by_cases hk : k = i
  · subst hk
    have role := (Context.reclaiming_of_steady hu.2).1
    rw [rejudge_of_not fun hc => by
      have serves := hc.2.1
      rw [State.serves, role] at serves
      cases serves]
    exact .refl u
  · exact .rejudge_ne hk

theorem settleRecalled_of_none (h : s.lane.recalled = []) : s.settleRecalled = s := by
  obtain ⟨pending, frame, highway, profile, table, pool, lane, share⟩ := s
  obtain ⟨queue, recalled⟩ := lane
  dsimp only at h
  subst h
  rfl

/-- A LISTEN boundary before the last takes the marks read into the LISTEN record (R169). -/
theorem boundaryListen_early (frames : s.profile.listenFrames < 15) : boundaryListen s = { s with
    profile := { s.profile with listenFrames := s.profile.listenFrames + 1 }
    share := { s.share with listenMarks := s.lane.markRecord, listenMarks' := s.share.listenMarks,
                            listenAdopt := 0, listenAdopt' := s.share.listenAdopt } } := by
  have count : countUp 16 s.profile.listenFrames = s.profile.listenFrames + 1 := by
    unfold countUp
    omega
  unfold boundaryListen
  dsimp only
  rw [count]
  refine if_neg fun due => ?_
  have ended : 16 ≤ s.profile.listenFrames + 1 := of_decide_eq_true (Bool.and_eq_true_iff.1 due).2
  omega

theorem marked_eq (h : s.lane.recalled = []) (others : BitVec 128) : s.marked others = { s with
    frame := s.frame + 1, lane := { s.lane with markRecord := others ||| s.marks, ownRecord := s.marks } } := by
  rw [State.marked, settleRecalled_of_none h]
  rfl

/-- A RUN boundary takes a home back whose slot has no mark (R166). -/
theorem run_resumes (h : s.Holds i slot) (run : s.profile.station = .run) (due : (s.ctx i).Due s.frame)
    (unmarked : s.lane.markRecord.getLsbD slot = false) :
    ((eachContext handOver (boundaryRun s)).ctx i).Resumed (s.ctx i).profile
      ∧ ((eachContext handOver (boundaryRun s)).ctx i).callState = if (s.ctx i).transparent = true then .bypass else .idle := by
  have guests := State.Waits.boundaryGuests (s := s) ⟨h, due.steady.aloof⟩
  obtain ⟨u, before, self, held⟩ := boundaryHomes_resumes (guests.holds h)
    (by rw [guests.turn.frame]; exact Context.due_of_steady (by rw [guests.steady]; exact due.steady)) (by rw [guests.turn.markRecord]; exact unmarked)
  have all := guests.trans before
  have resumed := resumed_resumed u i
  rw [← self] at resumed
  have after := afterHomes_waits ⟨held, resumed.unpending⟩
  have same := after.fixed (Context.takesNone_of_passes resumed.passes)
  rw [boundaryRun_eq, boundaryCalls_eq, same]
  have profile : (u.ctx i).profile = (s.ctx i).profile := (congrArg Context.profile all.steady :)
  have transparent : (u.ctx i).transparent = (s.ctx i).transparent := (congrArg Context.transparent all.steady :)
  refine ⟨profile ▸ resumed, ?_⟩
  rw [self, State.resumed, transparent, all.turn.profile, run]
  cases (s.ctx i).transparent <;> rfl

/-- So does a CONFIG boundary, which may lead to RUN. -/
theorem config_resumes (h : s.Holds i slot) (due : (s.ctx i).Due s.frame) (unmarked : s.lane.markRecord.getLsbD slot = false) :
    ((eachContext handOver (boundaryConfig s)).ctx i).Resumed (s.ctx i).profile := by
  obtain ⟨u, before, self, held⟩ := boundaryHomes_resumes h.configCounted due unmarked
  have resumed := resumed_resumed u i
  rw [← self] at resumed
  obtain ⟨held, resumed⟩ : (boundaryConfig s).Holds i slot ∧ ((boundaryConfig s).ctx i).Resumed (u.ctx i).profile := by
    rcases boundaryConfig_cases s with eq | eq <;> rw [eq]
    · exact ⟨held, resumed⟩
    · exact rejudges_resumed _ held.enteredRun (by rw [enteredRun_ctx]; exact resumed)
  have profile : (u.ctx i).profile = (s.ctx i).profile := (congrArg Context.profile before.steady :)
  rw [(resumed_stays held resumed).2, ← profile]
  exact resumed

/-- A RUN boundary counts the RECLAIM age of a home whose slot has a mark (R170). -/
theorem run_ages {r : Reclaim} (h : s.Holds i slot) (hc : (s.ctx i).Reclaiming r) (marked : s.lane.markRecord.getLsbD slot = true) :
    ((eachContext handOver (boundaryRun s)).ctx i).Reclaiming (nextReclaim s.frame r)
      ∧ (8000 ≤ (nextReclaim s.frame r).age → (eachContext handOver (boundaryRun s)).Reclaims slot s.lane.drops) := by
  have guests := State.Waits.boundaryGuests (s := s) ⟨h, .inr (.inl hc.steady.1)⟩
  obtain ⟨stands, -, queued⟩ := boundaryHomes_ages (r := r) (guests.holds h) (Context.reclaiming_of_steady (by rw [guests.steady]; exact hc.steady))
    (by rw [guests.turn.markRecord]; exact marked) guests.turn.rises
  rw [guests.turn.frame] at stands queued
  have after := afterHomes_waits ⟨stands.1, stands.2.2.2⟩
  rw [boundaryRun_eq, boundaryCalls_eq]
  exact ⟨Context.reclaiming_of_steady (after.stands stands).2, fun age => after.keepsReclaim (queued age)⟩

/-- So does a CONFIG boundary. -/
theorem config_ages {r : Reclaim} (h : s.Holds i slot) (hc : (s.ctx i).Reclaiming r) (marked : s.lane.markRecord.getLsbD slot = true) :
    ((eachContext handOver (boundaryConfig s)).ctx i).Reclaiming (nextReclaim s.frame r)
      ∧ (8000 ≤ (nextReclaim s.frame r).age → (eachContext handOver (boundaryConfig s)).Reclaims slot s.lane.drops) := by
  obtain ⟨stands, -, queued⟩ := boundaryHomes_ages (s := s.configCounted) h.configCounted hc marked (Nat.le_refl _)
  obtain ⟨stands, queued⟩ : (boundaryConfig s).Stands i slot (Context.Reclaiming (nextReclaim s.frame r))
      ∧ (8000 ≤ (nextReclaim s.frame r).age → (boundaryConfig s).Reclaims slot s.lane.drops) := by
    rcases boundaryConfig_cases s with eq | eq <;> rw [eq]
    · exact ⟨stands, queued⟩
    · have entered : (boundaryHomes s.configCounted).enteredRun.Stands i slot (Context.Reclaiming (nextReclaim s.frame r)) :=
        ⟨stands.1.enteredRun, by rw [enteredRun_ctx]; exact stands.2⟩
      have judged := rejudges_reclaiming (List.range 64) entered
      exact ⟨judged.stands entered, fun age => judged.keepsReclaim ((enteredRun_reclaims _ slot _).2 (queued age))⟩
  have after := handOvers_wait ⟨stands.1, stands.2.2.2⟩
  exact ⟨Context.reclaiming_of_steady (after.stands stands).2, fun age => after.keepsReclaim (queued age)⟩

end After

/-- Settles O43: the judgements of other contexts pass a home by, and its own act on it one after the other. -/
theorem frameBoundaryJudgesSlots : Obligations.FrameBoundaryJudgesSlots := by
  refine ⟨fun s others locked run => ?_, fun s others locked listen frames quiet => ?_, fun s others i slot locked serves sound home hslot => ?_⟩
  · refine ⟨_, endFrame_run locked run, fun slot lt away => ?_⟩
    have calls := State.Judges.boundaryCalls (s.marked others)
    have orphans := State.Judges.boundaryOrphans (updateAbsence_orphansUnmarked (boundaryCalls (s.marked others)))
    have hands := State.Judges.eachContext State.Judges.handOver (boundaryRun (s.marked others))
    rw [boundaryRun_eq] at hands ⊢
    rw [State.edge_absence hands.edge, State.edge_absence orphans.edge, updateAbsence_getD _ lt, nextAbsence, countAbsence]
    have profile : (boundaryCalls (s.marked others)).profile = s.profile := (State.edge_profile calls.edge).trans rfl
    have absence : (boundaryCalls (s.marked others)).share.absence = s.share.absence := (State.edge_absence calls.edge).trans rfl
    have other : (boundaryCalls (s.marked others)).isHome slot = false := by
      rw [State.isHome, profile]
      exact decide_eq_false away
    rw [other, absence, State.edge_markRecord calls.edge, marked_markRecord, BitVec.getLsbD_or, marks_getLsbD s lt]
    simp [countUp, Config.orphanAt]
  · rw [endFrame_listen locked listen, boundaryListen_early (s := s.marked others) frames, marked_eq quiet]
  · have holds : s.Holds i slot := ⟨sound, hslot⟩
    have station : s.profile.station = .config ∨ s.profile.station = .run := by
      revert serves
      cases s.profile.station <;> simp [StationState.serves]
    refine ⟨fun waits absent => ?_, fun r reclaim f carried role present start stop => ?_⟩
    · have due : (s.ctx i).Due (s.frame + 1) := waits.imp_right fun ⟨role, r, reclaim, first⟩ => ⟨role, r, reclaim, Nat.lt_succ_of_le first⟩
      have idle : (s.ctx i).role.serves = false := by rcases due.role with h | h <;> rw [h] <;> rfl
      have unmarked := (holds.markRecord others idle).trans absent
      rcases station with config | run
      · have resumed := config_resumes (holds.marked others) due unmarked
        obtain ⟨sv, hsv, clear⟩ := resumed.serving
        refine ⟨_, sv, endFrame_config locked config, hsv, resumed.role, resumed.server, resumed.reclaim, resumed.startAt, clear,
          resumed.profile, fun run => ?_⟩
        rw [config] at run
        cases run
      · obtain ⟨resumed, state⟩ := run_resumes (holds.marked others) run due unmarked
        obtain ⟨sv, hsv, clear⟩ := resumed.serving
        exact ⟨_, sv, endFrame_run locked run, hsv, resumed.role, resumed.server, resumed.reclaim, resumed.startAt, clear,
          resumed.profile, fun _ => state⟩
    · have hc : (s.ctx i).Reclaiming r := ⟨role, reclaim, stop, start⟩
      have marked := (holds.markRecord others (by rw [role]; rfl)).trans present
      have aged : nextReclaim (s.frame + 1) r = { r with age := if f < s.frame then min 8000 (r.age + 1) else r.age } := by
        rw [nextReclaim, carried]
        simp only [Option.elim, Nat.add_lt_add_iff_right, decide_eq_true_eq, countUp, Config.reclaimTop]
        split
        · rfl
        · rw [← carried]
      have old : f < s.frame → 7999 ≤ r.age → 8000 ≤ (nextReclaim (s.frame + 1) r).age := fun late age => by
        rw [aged, if_pos late]
        exact (by omega : 8000 ≤ min 8000 (r.age + 1))
      rcases station with config | run
      · obtain ⟨⟨role, reclaim, _⟩, entry⟩ := config_ages (holds.marked others) hc marked
        exact ⟨_, endFrame_config locked config, role, reclaim.trans (congrArg some aged), fun late age => entry (old late age)⟩
      · obtain ⟨⟨role, reclaim, _⟩, entry⟩ := run_ages (holds.marked others) hc marked
        exact ⟨_, endFrame_run locked run, role, reclaim.trans (congrArg some aged), fun late age => entry (old late age)⟩

end Sys2Proof.Machine

namespace Sys2Proof.Machine

open Sys2Proof

/-! ## What serving starts and stops keep of every context -/

/-- The slot, role and deadlines of a context: all but its serving parts, its call and its open offer. -/
def Context.posting (c : Context) : Context := { c.steady with serving := none, toneHold := false }

section Posting

variable {s : State} {i k : Nat}

theorem Context.posting_of_steady {c d : Context} (h : d.steady = c.steady) : d.posting = c.posting := by
  rw [Context.posting, h, Context.posting]

theorem Context.posting_of_unoffered {c d : Context} (h : d.unoffered = c.unoffered) : d.posting = c.posting :=
  (congrArg (fun c : Context => { c with callState := .notServing, search := none, serving := none, toneHold := false }) h :)

theorem posting_modCtx {f : Context → Context} (hf : ∀ c, (f c).posting = c.posting) :
    ((s.modCtx i f).ctx k).posting = (s.ctx k).posting := State.ctx_modCtx_proj Context.posting s i k f hf

theorem posting_perform (ts : List Task) (k : Nat) (s : State) : ((perform ts s).ctx k).posting = (s.ctx k).posting :=
  Context.posting_of_steady (by simp)

theorem posting_enterPassing {st : CallState} (hst : st.processes = false) (i k : Nat) (s : State) :
    ((enterPassing i st s).ctx k).posting = (s.ctx k).posting := by
  by_cases hk : k = i
  · subst hk
    by_cases lt : k < s.table.contexts.length
    · rw [Context.posting_of_unoffered (enterPassing_ctx lt hst), Context.passing]
      split <;> rfl
    · have len := State.outside_contexts (outside_enterPassing k st s)
      rw [State.ctx_ge _ _ (by omega), State.ctx_ge _ _ (by omega)]
  · exact Context.posting_of_steady (steady_enterPassing_ne hk)

theorem posting_startTaker (bypass : Bool) (i k : Nat) (s : State) : ((startTaker i bypass s).ctx k).posting = (s.ctx k).posting := by
  unfold startTaker
  dsimp only
  split
  · rw [posting_perform, posting_modCtx]
    exact fun _ => rfl
  · rw [posting_perform, posting_perform, posting_modCtx]
    exact fun _ => rfl

theorem posting_servingStart (offered : Option Nat) (i k : Nat) (s : State) :
    ((servingStart i offered s).ctx k).posting = (s.ctx k).posting := by
  have cleared : ((s.clearPipeline (s.slotOf i)).ctx k).posting = (s.ctx k).posting := rfl
  unfold servingStart
  dsimp only
  split
  · rw [posting_startTaker, posting_modCtx, cleared]
    exact fun _ => rfl
  · rw [posting_modCtx, posting_modCtx, cleared]
    · exact fun _ => rfl
    · exact fun _ => rfl

theorem posting_servingStop (i k : Nat) (s : State) : ((servingStop i s).ctx k).posting = (s.ctx k).posting := by
  have entered := posting_enterPassing (st := .notServing) rfl i k s
  unfold servingStop
  dsimp only
  generalize enterPassing i .notServing s = u at entered
  rw [posting_modCtx]
  · exact entered
  · exact fun _ => rfl

theorem State.setDirectory_posting (slot : Nat) (e : Option Nat) : ((s.setDirectory slot e).ctx k).posting = (s.ctx k).posting := rfl

theorem freeGuestAt_ctx_ne (hk : k ≠ i) (s : State) : (s.freeGuestAt i).ctx k = s.ctx k := by
  unfold State.freeGuestAt
  split
  · rw [State.ctx_setCtx_ne _ _ _ _ hk.symm]
    rfl
  · rw [State.ctx_setCtx_ne _ _ _ _ hk.symm]

theorem freeGuestAt_ctx (hi : i < s.table.contexts.length) : (s.freeGuestAt i).ctx i = freeGuest := by
  unfold State.freeGuestAt
  split
  · exact State.ctx_setCtx_self _ _ _ hi
  · exact State.ctx_setCtx_self _ _ _ hi

/-! ## Hand-overs -/

/-- A hand-over frame that has come (R162 to R165). -/
def State.dueAt (s : State) (f : Option Nat) : Bool := f.elim false fun f => decide (f ≤ s.frame)

/-- The station after the serving stop of a hand-over, when one is due. -/
def State.stopped (s : State) (i : Nat) : State := if s.dueAt (s.ctx i).stopAt then handOverStop i s else s

theorem handOver_eq (i : Nat) (s : State) :
    handOver i s = if s.dueAt ((s.stopped i).ctx i).startAt then handOverStart i (s.stopped i) else s.stopped i := rfl

theorem State.dueAt_iff {f : Option Nat} : s.dueAt f = true ↔ ∃ g, f = some g ∧ g ≤ s.frame := by
  cases f with
  | none => simp [State.dueAt]
  | some g => simp [State.dueAt]

/-- A home as its serving stops at its hand-over frame (R162). -/
def Context.handedOver (c : Context) : Context :=
  { c with role := .handed, server := c.grantee, offer := none, stopAt := none, grantee := none }

theorem handOverStop_home (home : (s.ctx i).kind = .home) : handOverStop i s =
    servingStop i ((s.withdraw fun e => e.isOffer (s.slotOf i) || e.isGrant (s.slotOf i)).modCtx i Context.handedOver) := by
  unfold handOverStop
  rw [home]
  rfl

theorem handOverStop_guest (guest : (s.ctx i).kind = .guest) :
    handOverStop i s = (servingStop i (s.modCtx i fun c => { c with stopAt := none })).freeGuestAt i := by
  unfold handOverStop
  rw [guest]

theorem handOverStop_posting_ne (hk : k ≠ i) (s : State) : ((handOverStop i s).ctx k).posting = (s.ctx k).posting := by
  cases kind : (s.ctx i).kind with
  | home => rw [handOverStop_home kind, posting_servingStop, State.ctx_modCtx_ne _ _ _ _ hk.symm, State.withdraw_ctx]
  | guest => rw [handOverStop_guest kind, freeGuestAt_ctx_ne hk, posting_servingStop, State.ctx_modCtx_ne _ _ _ _ hk.symm]

theorem handOverStart_posting_ne (hk : k ≠ i) (s : State) : ((handOverStart i s).ctx k).posting = (s.ctx k).posting := by
  unfold handOverStart
  split
  · rw [State.ctx_modCtx_ne _ _ _ _ hk.symm]
  · rw [serveAgain_eq, posting_servingStart, State.ctx_modCtx_ne _ _ _ _ hk.symm, State.withdraw_ctx]
  · rw [posting_servingStart, State.ctx_modCtx_ne _ _ _ _ hk.symm]

theorem stopped_posting_ne (hk : k ≠ i) (s : State) : ((s.stopped i).ctx k).posting = (s.ctx k).posting := by
  unfold State.stopped
  split
  · exact handOverStop_posting_ne hk s
  · rfl

theorem handOver_posting_ne (hk : k ≠ i) (s : State) : ((handOver i s).ctx k).posting = (s.ctx k).posting := by
  rw [handOver_eq]
  split
  · rw [handOverStart_posting_ne hk, stopped_posting_ne hk]
  · exact stopped_posting_ne hk s

theorem Context.posting_stopAt {c d : Context} (h : d.posting = c.posting) : d.stopAt = c.stopAt := (congrArg Context.stopAt h :)
theorem Context.posting_startAt {c d : Context} (h : d.posting = c.posting) : d.startAt = c.startAt := (congrArg Context.startAt h :)

theorem servingStop_length (i : Nat) (s : State) : (servingStop i s).table.contexts.length = s.table.contexts.length := by
  have entered := State.outside_contexts (outside_enterPassing i .notServing s)
  unfold servingStop
  dsimp only
  generalize enterPassing i .notServing s = u at entered
  simpa using entered

theorem handOverStop_stopAt (hi : i < s.table.contexts.length) : ((handOverStop i s).ctx i).stopAt = none := by
  cases kind : (s.ctx i).kind with
  | home =>
    rw [handOverStop_home kind, Context.posting_stopAt (posting_servingStop _ _ _), State.ctx_modCtx_self _ _ _ (by exact hi)]
    rfl
  | guest =>
    rw [handOverStop_guest kind, freeGuestAt_ctx (by rw [servingStop_length, State.modCtx_contexts_length]; exact hi)]
    rfl

theorem freeGuestAt_length (i : Nat) (s : State) : (s.freeGuestAt i).table.contexts.length = s.table.contexts.length := by
  unfold State.freeGuestAt
  split <;> simp

theorem handOverStop_length (i : Nat) (s : State) : (handOverStop i s).table.contexts.length = s.table.contexts.length := by
  cases kind : (s.ctx i).kind with
  | home =>
    rw [handOverStop_home kind, servingStop_length, State.modCtx_contexts_length]
    rfl
  | guest => rw [handOverStop_guest kind, freeGuestAt_length, servingStop_length, State.modCtx_contexts_length]

theorem handOverStart_pending (hi : i < s.table.contexts.length) : ((handOverStart i s).ctx i).startAt = none
    ∧ (((handOverStart i s).ctx i).stopAt = none ∨ ((handOverStart i s).ctx i).stopAt = (s.ctx i).stopAt) := by
  unfold handOverStart
  split
  · rw [State.ctx_modCtx_self _ _ _ hi]
    exact ⟨rfl, .inr rfl⟩
  · rw [serveAgain_ctx hi]
    exact ⟨rfl, .inl rfl⟩
  · have self := posting_servingStart (some ((s.ctx i).reservation.elim 0 (·.profile))) i i
      (s.modCtx i fun c => { c with role := .taken, reservation := none, startAt := none })
    rw [State.ctx_modCtx_self _ _ _ hi] at self
    exact ⟨(Context.posting_startAt self).trans rfl, .inr ((Context.posting_stopAt self).trans rfl)⟩

/-- Once context i's hand-over is judged it has none due (R162 to R165). -/
theorem handOver_done (hi : i < s.table.contexts.length) {f : Nat}
    (h : ((handOver i s).ctx i).stopAt = some f ∨ ((handOver i s).ctx i).startAt = some f) : s.frame < f := by
  have later : ∀ {c : Option Nat}, ¬s.dueAt c = true → c = some f → s.frame < f := fun hd hc =>
    Nat.lt_of_not_le fun le => hd (State.dueAt_iff.2 ⟨f, hc, le⟩)
  have stop : ((s.stopped i).ctx i).stopAt = some f → s.frame < f := fun hf => by
    unfold State.stopped at hf
    split at hf
    · rw [handOverStop_stopAt hi] at hf
      cases hf
    · next due => exact later due hf
  have len : i < (s.stopped i).table.contexts.length := by
    unfold State.stopped
    split
    · rw [handOverStop_length]
      exact hi
    · exact hi
  rw [handOver_eq] at h
  split at h
  · obtain ⟨start, stops⟩ := handOverStart_pending len
    rcases h with h | h
    · rcases stops with none | same
      · rw [none] at h
        cases h
      · exact stop (same.symm.trans h)
    · rw [start] at h
      cases h
  · next due =>
    rcases h with h | h
    · exact stop h
    · exact later due h

end Posting

end Sys2Proof.Machine

namespace Sys2Proof.Machine

open Sys2Proof

/-! ## The course of a RUN boundary -/

/-- `t` is `s` after judgements of a boundary, the absence counts aside. -/
structure State.Course (s t : State) : Prop where
  frame : t.frame = s.frame
  markRecord : t.lane.markRecord = s.lane.markRecord
  joined : ∀ e ∈ t.lane.queue, e ∈ s.lane.queue ∨ s.Fresh e
  returns : ∀ e ∈ s.lane.queue, e.msg.kind = 14 → e ∈ t.lane.queue
  rises : min 65535 s.lane.drops ≤ min 65535 t.lane.drops
  bounded : t.lane.drops = s.lane.drops ∨ t.lane.drops ≤ 65535
  memory : ∀ slot m, t.share.offers.getD slot none = some m → s.share.offers.getD slot none = some m

namespace State.Course

variable {s t u : State}

theorem refl (s : State) : s.Course s := ⟨rfl, rfl, fun _ he => .inl he, fun _ he _ => he, Nat.le_refl _, .inl rfl, fun _ _ h => h⟩

theorem trans (h : s.Course t) (h' : t.Course u) : s.Course u := by
  refine ⟨h'.frame.trans h.frame, h'.markRecord.trans h.markRecord, fun e he => ?_, fun e he hk => h'.returns e (h.returns e he hk) hk,
    Nat.le_trans h.rises h'.rises, ?_, fun slot m hm => h.memory slot m (h'.memory slot m hm)⟩
  · rcases h'.joined e he with he | fresh
    · exact h.joined e he
    · exact .inr (by rw [State.Fresh, ← h.frame, ← h.markRecord]; exact fresh)
  · rcases h'.bounded with same | le
    · rw [same]
      exact h.bounded
    · exact .inr le

end State.Course

theorem State.Judges.course {s t : State} (h : s.Judges t) : s.Course t :=
  ⟨State.edge_frame h.edge, State.edge_markRecord h.edge, h.joined, h.returns, h.rises, h.bounded, h.memory⟩

theorem updateAbsence_course (s : State) : s.Course (updateAbsence s) := ⟨rfl, rfl, (State.Course.refl s).joined, (State.Course.refl s).returns,
  Nat.le_refl _, .inl rfl, fun _ _ h => h⟩

/-! ### Acts taken in turn -/

section Folds

variable {P R : State → Prop} {act : Nat → State → State} {s : State} {i n : Nat}

theorem foldl_keeps {l : List Nat} (h : ∀ k ∈ l, ∀ u, P u → P (act k u)) (hs : P s) : P (l.foldl (fun s k => act k s) s) := by
  induction l generalizing s with
  | nil => exact hs
  | cons k l ih => exact ih (fun j hj => h j (List.mem_cons_of_mem _ hj)) (h k (List.mem_cons_self ..) s hs)

theorem eachContext_keeps (h : ∀ k u, P u → P (act k u)) (hs : P s) : P (eachContext act s) := foldl_keeps (fun k _ => h k) hs

theorem eachSlot_keeps (h : ∀ slot < 128, ∀ u, P u → P (act slot u)) (hs : P s) : P (eachSlot act s) :=
  foldl_keeps (fun k hk => h k (List.mem_range.1 hk)) hs

/-- What the acts before that on context i keep, what it makes of it, and what the acts behind it keep. -/
theorem foldl_at (hi : i < n) (before : ∀ k, k ≠ i → ∀ u, P u → P (act k u)) (own : ∀ u, P u → R (act i u))
    (after : ∀ k, k ≠ i → ∀ u, R u → R (act k u)) (hs : P s) : R ((List.range n).foldl (fun s k => act k s) s) := by
  obtain ⟨first, last, split, no_first, no_last⟩ := range_split hi
  rw [split, List.foldl_append, List.foldl_cons]
  exact foldl_keeps (fun k hk => after k fun he => no_last (he ▸ hk))
    (own _ (foldl_keeps (fun k hk => before k fun he => no_first (he ▸ hk)) hs))

theorem eachContext_at (hi : i < 64) (before : ∀ k, k ≠ i → ∀ u, P u → P (act k u)) (own : ∀ u, P u → R (act i u))
    (after : ∀ k, k ≠ i → ∀ u, R u → R (act k u)) (hs : P s) : R (eachContext act s) := foldl_at hi before own after hs

end Folds

/-! ### The stages -/

section Stages

variable (s : State)

/-- A RUN boundary behind the RETURNS of the guests. -/
def boundaryTail : State := eachContext handOver (boundaryOrphans (updateAbsence (boundaryHomes s)))

theorem boundary_stages : eachContext handOver (boundaryRun s) = boundaryTail (boundaryGuests s) := rfl

theorem boundaryTail_course : s.Course (boundaryTail s) := by
  have homes := (State.Judges.boundaryHomes s).course.trans (updateAbsence_course _)
  have orphans := homes.trans (State.Judges.boundaryOrphans (updateAbsence_orphansUnmarked _)).course
  exact orphans.trans (State.Judges.eachContext State.Judges.handOver _).course

theorem memoryExpired_course : (memoryExpired s).Course (boundaryTail (boundaryGuests s)) :=
  (State.Judges.eachContext State.Judges.queueReturn _).course.trans (boundaryTail_course _)

theorem windowsEnded_course : (windowsEnded s).Course (memoryExpired s) :=
  ((State.Judges.eachContext State.Judges.timeOutBid _).trans (State.Judges.eachSlot State.Judges.expireOfferMemory _)).course

theorem grantsExpired_course : (grantsExpired s).Course (boundaryTail (boundaryGuests s)) :=
  ((State.Judges.eachContext State.Judges.endOfferWindow _).course.trans (windowsEnded_course s)).trans (memoryExpired_course s)

theorem bidsExpired_course : (bidsExpired s).Course (boundaryTail (boundaryGuests s)) :=
  (State.Judges.eachSlot State.Judges.expireGrant _).course.trans (grantsExpired_course s)

theorem expireAdopts_course : (expireAdopts s).Course (boundaryTail (boundaryGuests s)) :=
  (State.Judges.eachSlot State.Judges.expireBid _).course.trans (bidsExpired_course s)

end Stages

/-! ## Entries past their deadlines (R152, R157) -/

section Stale

variable {s : State} {e : Entry} {slot o : Nat}

/-- Stale entries of one slot leave the queue; what comes instead is fresh. -/
theorem mem_of_mem_stale {p : Entry → Bool} {act : Nat → State → State} (hact : ∀ k u, State.Judges u (act k u))
    (he : e ∈ (if s.queued p then onHeld slot act (s.withdraw p) else s).lane.queue) : s.Fresh e ∨ e ∈ s.lane.queue ∧ p e = false := by
  split at he
  · rcases (State.Judges.onHeld hact slot (s.withdraw p)).joined e he with he | fresh
    · exact .inr ((State.mem_withdraw s p e).1 he)
    · exact .inl fresh
  · next none =>
    refine .inr ⟨he, Bool.eq_false_iff.2 fun hp => none (List.any_eq_true.2 ⟨e, he, hp⟩)⟩

/-- Entries that are stale for a slot, taken slot by slot. -/
theorem mem_of_mem_staleSlots {p : Nat → State → Entry → Bool} {act : Nat → State → State}
    (judges : ∀ k u, State.Judges u (act k u))
    (one : ∀ k u e, e ∈ (act k u).lane.queue → u.Fresh e ∨ e ∈ u.lane.queue ∧ p k u e = false)
    (frame : ∀ k u v e, v.frame = u.frame → p k v e = p k u e)
    (he : e ∈ (eachSlot act s).lane.queue) : s.Fresh e ∨ e ∈ s.lane.queue ∧ ∀ slot < 128, p slot s e = false := by
  have fold : ∀ (l : List Nat) (s : State), e ∈ (l.foldl (fun s k => act k s) s).lane.queue →
      s.Fresh e ∨ e ∈ s.lane.queue ∧ ∀ k ∈ l, p k s e = false := fun l => by
    induction l with
    | nil => exact fun s he => .inr ⟨he, fun _ hk => nomatch hk⟩
    | cons k l ih =>
      intro s he
      have judged := judges k s
      rcases ih (act k s) he with fresh | ⟨he, rest⟩
      · exact .inl (by rw [State.Fresh, ← State.edge_frame judged.edge, ← State.edge_markRecord judged.edge]; exact fresh)
      · refine (one k s e he).imp_right fun ⟨he, first⟩ => ⟨he, fun j hj => ?_⟩
        rcases List.mem_cons.1 hj with rfl | hj
        · exact first
        · exact (frame j s _ e (State.edge_frame judged.edge)).symm.trans (rest j hj)
  exact (fold _ s he).imp_right fun ⟨he, all⟩ => ⟨he, fun k hk => all k (List.mem_range.2 hk)⟩

theorem Entry.isBid_own (hk : e.msg.kind = 12) : ∃ slot < 128, e.isBid slot = true := by
  cases hm : e.msg <;> rw [hm] at hk
  case bid slot _ _ => exact ⟨slot.toNat, slot.isLt, by simp [Entry.isBid, hm]⟩
  all_goals cases hk

theorem Entry.isGrant_own (hk : e.msg.kind = 13) : ∃ slot < 128, e.isGrant slot = true := by
  cases hm : e.msg <;> rw [hm] at hk
  case grant slot _ _ => exact ⟨slot.toNat, slot.isLt, by simp [Entry.isGrant, hm]⟩
  all_goals cases hk

/-- No BID past o+4 stays queued (R152). -/
theorem bidsExpired_none (ho : e.offerFrame = some o) (hk : e.msg.kind = 12) (he : e ∈ (bidsExpired s).lane.queue) : s.frame ≤ o + 4 := by
  rw [bidsExpired] at he
  have all := mem_of_mem_staleSlots (p := fun slot u e => e.isBid slot && e.pastOffer u.frame 4) State.Judges.expireBid
    (fun k u e he => mem_of_mem_stale State.Judges.withdrawBid he) (fun _ _ _ _ h => by rw [h]) he
  rcases all with fresh | ⟨-, all⟩
  · exact absurd hk fresh.1
  · obtain ⟨slot, lt, own⟩ := Entry.isBid_own hk
    have late := all slot lt
    simp only [own, Bool.true_and, Entry.pastOffer, ho] at late
    exact Nat.le_of_not_lt (of_decide_eq_false late)

/-- Of the GRANTS that were queued none past o+8 stays (R152). -/
theorem grantsExpired_none (ho : e.offerFrame = some o) (hk : e.msg.kind = 13) (early : e.eligible ≠ s.frame)
    (he : e ∈ (grantsExpired s).lane.queue) : s.frame ≤ o + 8 := by
  have judged : s.Judges (bidsExpired s) := (State.Judges.expireAdopts s).trans (.eachSlot State.Judges.expireBid _)
  rw [grantsExpired] at he
  have all := mem_of_mem_staleSlots (p := fun slot u e => e.isGrant slot && e.pastOffer u.frame 8) State.Judges.expireGrant
    (fun k u e he => mem_of_mem_stale State.Judges.failOffer he) (fun _ _ _ _ h => by rw [h]) he
  rcases all with fresh | ⟨-, all⟩
  · exact absurd ((fresh.2.1 hk).trans (State.edge_frame judged.edge)) early
  · obtain ⟨slot, lt, own⟩ := Entry.isGrant_own hk
    have late := all slot lt
    simp only [own, Bool.true_and, Entry.pastOffer, ho, State.edge_frame judged.edge] at late
    exact Nat.le_of_not_lt (of_decide_eq_false late)

/-- No ADOPT stays queued for a slot that another party marks (R152). -/
theorem expireAdopts_none (ha : e.isAdopt slot = true) (he : e ∈ (expireAdopts s).lane.queue) : s.otherMark slot = false := by
  have kept := ((State.mem_withdraw s _ e).1 he).2
  unfold Entry.isAdopt at ha
  split at ha
  · next hm =>
    rw [hm] at kept
    rw [← beq_iff_eq.1 ha]
    exact kept
  · cases ha

/-- No offer stays remembered past o+8 (R157). -/
theorem memoryExpired_none {m : OfferMemory} (lt : slot < 128) (hm : (memoryExpired s).share.offers.getD slot none = some m) :
    s.frame ≤ m.frame + 8 := by
  have judged : s.Judges (bidsTimedOut s) :=
    ((((State.Judges.expireAdopts s).trans (.eachSlot State.Judges.expireBid _)).trans (.eachSlot State.Judges.expireGrant _)).trans
      (.eachContext State.Judges.endOfferWindow _)).trans (.eachContext State.Judges.timeOutBid _)
  have frame := State.edge_frame judged.edge
  unfold memoryExpired at hm
  generalize bidsTimedOut s = u at hm frame
  rw [← frame]
  rw [eachSlot, Config.slots] at hm
  refine foldl_at (act := expireOfferMemory) (n := 128) (i := slot) (P := fun v => v.frame = u.frame)
    (R := fun v => ∀ m, v.share.offers.getD slot none = some m → u.frame ≤ m.frame + 8) lt
    (fun k _ v hv => (State.edge_frame (State.Judges.expireOfferMemory k v).edge).trans hv) (fun v hv m hm => ?_)
    (fun k _ v hv m hm => hv m ((State.Judges.expireOfferMemory k v).memory slot m hm)) rfl m hm
  rw [← hv]
  have was := (State.Judges.expireOfferMemory slot v).memory slot m hm
  unfold expireOfferMemory at hm
  rw [was] at hm
  dsimp only at hm
  split at hm
  · rw [List.getD_eq_getElem?_getD, List.getElem?_set, if_pos rfl] at hm
    split at hm <;> cases hm
  · next early => exact Nat.le_of_not_lt early

end Stale

end Sys2Proof.Machine

namespace Sys2Proof.Machine

open Sys2Proof

/-! ## Reservations without a GRANT in time (R160) -/

/-- A context keeps its posting, or it is left without a reservation. -/
def State.Frees (i : Nat) (s t : State) : Prop := (t.ctx i).posting = (s.ctx i).posting ∨ (t.ctx i).reservation = none

namespace State.Frees

variable {s t u : State} {i k slot : Nat}

theorem of_same (h : t.ctx i = s.ctx i) : s.Frees i t := .inl (by rw [h])
theorem refl (s : State) : s.Frees i s := of_same rfl

theorem reservation_of_posting {c d : Context} (h : d.posting = c.posting) : d.reservation = c.reservation :=
  (congrArg Context.reservation h :)

theorem trans (h : s.Frees i t) (h' : t.Frees i u) : s.Frees i u := by
  rcases h' with same | none
  · rcases h with first | none
    · exact .inl (same.trans first)
    · exact .inr ((reservation_of_posting same).trans none)
  · exact .inr none

theorem ite {p : Prop} [Decidable p] (h : s.Frees i t) (h' : s.Frees i u) : s.Frees i (if p then t else u) := by
  split
  · exact h
  · exact h'

theorem modCtx (s : State) (k : Nat) {f : Context → Context} (hf : ∀ c, (f c).posting = c.posting) : s.Frees i (s.modCtx k f) :=
  .inl (posting_modCtx hf)

theorem withdrawBid (k : Nat) (s : State) : s.Frees i (withdrawBid k s) := by
  unfold Machine.withdrawBid
  dsimp only
  split
  · have freed : s.Frees i ((s.withdraw fun e => e.isBid (s.slotOf k)).freeGuestAt k) := by
      by_cases hk : i = k
      · subst hk
        by_cases lt : i < s.table.contexts.length
        · exact .inr (by rw [freeGuestAt_ctx (by exact lt)]; rfl)
        · refine of_same ?_
          rw [State.ctx_ge _ _ (by rw [freeGuestAt_length]; exact Nat.le_of_not_lt lt), State.ctx_ge s i (Nat.le_of_not_lt lt)]
      · exact of_same (by rw [freeGuestAt_ctx_ne hk, State.withdraw_ctx])
    exact freed.trans (.inl (posting_perform _ _ _))
  · exact refl s

theorem onHeld {act : Nat → State → State} (h : ∀ k s, State.Frees i s (act k s)) (slot : Nat) (s : State) :
    s.Frees i (onHeld slot act s) := by
  unfold Machine.onHeld
  split
  · exact h _ s
  · exact refl s

theorem expireBid (slot : Nat) (s : State) : s.Frees i (expireBid slot s) :=
  ite ((of_same (t := s.withdraw _) rfl).trans (onHeld withdrawBid slot _)) (refl s)

theorem offerUnplaced (role : (s.ctx k).role = .homeOffering) : s.Frees i (offerUnplaced k s) := by
  refine .inl ?_
  rw [Machine.offerUnplaced, State.notify_ctx, State.ctx_modCtx]
  split
  · next at_ =>
    rw [← at_.1]
    exact Context.posting_of_steady (Context.steady_failedOffer role)
  · rfl

theorem failOffer (k : Nat) (s : State) : s.Frees i (failOffer k s) := by
  unfold Machine.failOffer
  split
  · next h => exact offerUnplaced h.1
  · exact refl s

theorem expireGrant (slot : Nat) (s : State) : s.Frees i (expireGrant slot s) :=
  ite ((of_same (t := s.withdraw _) rfl).trans (onHeld failOffer slot _)) (refl s)

theorem endOfferWindow (k : Nat) (s : State) : s.Frees i (endOfferWindow k s) := by
  unfold Machine.endOfferWindow
  dsimp only
  split
  · next role _ =>
    split
    · split
      · exact ite (of_same rfl) ((of_same (t := (s.enqueue _).1) rfl).trans (offerUnplaced (by exact role)))
      · exact offerUnplaced role
    · exact refl s
  · exact refl s

theorem timeOutBid (k : Nat) (s : State) : s.Frees i (timeOutBid k s) := by
  unfold Machine.timeOutBid
  split
  · exact ite (withdrawBid k s) (refl s)
  · exact refl s

end State.Frees

/-- A context without a reservation gets none. -/
def State.Unbids (i : Nat) (s t : State) : Prop := (s.ctx i).reservation = none → (t.ctx i).reservation = none

namespace State.Unbids

variable {s t u : State} {i k slot : Nat}

theorem of_posting (h : (t.ctx i).posting = (s.ctx i).posting) : s.Unbids i t := fun none =>
  (State.Frees.reservation_of_posting h).trans none

theorem of_same (h : t.ctx i = s.ctx i) : s.Unbids i t := of_posting (by rw [h])
theorem refl (s : State) : s.Unbids i s := id
theorem trans (h : s.Unbids i t) (h' : t.Unbids i u) : s.Unbids i u := fun none => h' (h none)

theorem ite {p : Prop} [Decidable p] (h : s.Unbids i t) (h' : s.Unbids i u) : s.Unbids i (if p then t else u) := by
  split
  · exact h
  · exact h'

theorem modCtx (s : State) (k : Nat) {f : Context → Context} (hf : ∀ c, c.reservation = none → (f c).reservation = none) :
    s.Unbids i (s.modCtx k f) := fun none => by
  rw [State.ctx_modCtx]
  split
  · next at_ => exact hf _ (at_.1 ▸ none)
  · exact none

theorem eachContext {act : Nat → State → State} (h : ∀ k s, State.Unbids i s (act k s)) (s : State) : s.Unbids i (eachContext act s) :=
  eachContext_keeps (P := fun u => s.Unbids i u) (fun k u hu => hu.trans (h k u)) (refl s)

theorem eachSlot {act : Nat → State → State} (h : ∀ k s, State.Unbids i s (act k s)) (s : State) : s.Unbids i (eachSlot act s) :=
  eachSlot_keeps (P := fun u => s.Unbids i u) (fun k _ u hu => hu.trans (h k u)) (refl s)

theorem servingStart (offered : Option Nat) (k : Nat) (s : State) : s.Unbids i (servingStart k offered s) :=
  of_posting (posting_servingStart offered k i s)

theorem freeGuestAt (k : Nat) (s : State) : s.Unbids i (s.freeGuestAt k) := fun none => by
  by_cases hk : i = k
  · subst hk
    by_cases lt : i < s.table.contexts.length
    · rw [freeGuestAt_ctx lt]
      rfl
    · rw [State.ctx_ge _ _ (by rw [freeGuestAt_length]; exact Nat.le_of_not_lt lt)]
      rfl
  · rw [freeGuestAt_ctx_ne hk]
    exact none

theorem serveAgain (k : Nat) (s : State) : s.Unbids i (serveAgain k s) := by
  have withdrawn : s.Unbids i (s.withdraw fun e => e.isReclaim (s.slotOf k)) := of_same rfl
  rw [serveAgain_eq]
  exact (withdrawn.trans (modCtx _ k (f := Context.returned) fun _ h => h)).trans (servingStart none k _)

theorem judgeAdopt (slot : Nat) (s : State) : s.Unbids i (judgeAdopt slot s) := by
  refine ite ?_ (refl s)
  show s.Unbids i (judgeAdoption slot (s.unadopting slot))
  have unadopted : s.Unbids i (s.unadopting slot) := of_same rfl
  refine ite unadopted ?_
  split
  · next k _ _ =>
    have engaged : (s.unadopting slot).Unbids i (((s.unadopting slot).setDirectory slot (some k)).setCtx k
        { freeGuest with slot := some slot, role := .actingHome }) := by
      have set := modCtx (i := i) ((s.unadopting slot).setDirectory slot (some k)) k
        (f := fun _ => { freeGuest with slot := some slot, role := .actingHome }) fun _ _ => rfl
      exact (of_same (t := (s.unadopting slot).setDirectory slot (some k)) rfl).trans set
    exact (unadopted.trans engaged).trans (servingStart none k _)
  · exact unadopted.trans (of_same rfl)

theorem handOver (k : Nat) (s : State) : s.Unbids i (handOver k s) := by
  have stop : s.Unbids i (s.stopped k) := by
    refine ite ?_ (refl s)
    cases kind : (s.ctx k).kind with
    | home =>
      rw [handOverStop_home kind]
      have withdrawn : s.Unbids i (s.withdraw fun e => e.isOffer (s.slotOf k) || e.isGrant (s.slotOf k)) := of_same rfl
      exact (withdrawn.trans (modCtx _ k (f := Context.handedOver) fun _ h => h)).trans (of_posting (posting_servingStop k i _))
    | guest =>
      rw [handOverStop_guest kind]
      exact ((modCtx s k (f := fun c => { c with stopAt := none }) fun _ h => h).trans (of_posting (posting_servingStop k i _))).trans
        (freeGuestAt k _)
  have start : (s.stopped k).Unbids i (handOverStart k (s.stopped k)) := by
    generalize s.stopped k = u
    unfold handOverStart
    split
    · exact modCtx u k (f := fun c => { c with startAt := none }) fun _ h => h
    · exact serveAgain k u
    · exact (modCtx u k (f := fun c => { c with role := .taken, reservation := none, startAt := none }) fun _ _ => rfl).trans
        (servingStart _ k _)
  rw [handOver_eq]
  exact ite (stop.trans start) stop

end State.Unbids

section Timeout

variable {s : State} {i b : Nat} {r : Reservation}

/-- A RESERVED context without a GRANT by b+8 has no reservation once the bids are timed out (R160). -/
theorem bidsTimedOut_reservation (hi : i < 64) (reserved : (s.ctx i).role = .reserved) (start : (s.ctx i).startAt = none)
    (hr : (s.ctx i).reservation = some r) (hb : r.bidFrame = some b) (late : b + 8 < s.frame) :
    ((bidsTimedOut s).ctx i).reservation = none := by
  have adopts : s.Frees i (expireAdopts s) := .of_same rfl
  have bids : s.Frees i (bidsExpired s) := eachSlot_keeps (P := fun u => s.Frees i u) (fun k _ u hu => hu.trans (.expireBid k u)) adopts
  have grants : s.Frees i (grantsExpired s) := eachSlot_keeps (P := fun u => s.Frees i u) (fun k _ u hu => hu.trans (.expireGrant k u)) bids
  have windows : s.Frees i (windowsEnded s) :=
    eachContext_keeps (P := fun u => s.Frees i u) (fun k u hu => hu.trans (.endOfferWindow k u)) grants
  have judged : s.Judges (windowsEnded s) :=
    (((State.Judges.expireAdopts s).trans (.eachSlot State.Judges.expireBid _)).trans (.eachSlot State.Judges.expireGrant _)).trans
      (.eachContext State.Judges.endOfferWindow _)
  refine eachContext_at (P := fun u => s.Frees i u ∧ u.frame = s.frame) (R := fun u => (u.ctx i).reservation = none) hi
    (fun k _ u hu => ⟨hu.1.trans (.timeOutBid k u), (State.edge_frame (State.Judges.timeOutBid k u).edge).trans hu.2⟩)
    (fun u hu => ?_) (fun k _ u none => ?_) ⟨windows, State.edge_frame judged.edge⟩
  · obtain ⟨freed, frame⟩ := hu
    have passed : (r.bidFrame.elim false fun b => decide (b + 8 < u.frame)) = true := by
      rw [hb, frame]
      exact decide_eq_true late
    rcases freed with same | none
    · have role : (u.ctx i).role = .reserved := by
        have role : (u.ctx i).steady.role = (s.ctx i).steady.role := (congrArg Context.role same :)
        exact Context.role_of_steady (role.trans (by rw [Context.steady, reserved]; rfl)) (by decide)
      have start' : (u.ctx i).startAt = none := (Context.posting_startAt same).trans start
      have hr' : (u.ctx i).reservation = some r := (State.Frees.reservation_of_posting same).trans hr
      have lt : i < u.table.contexts.length := by
        by_contra hc
        rw [State.ctx_ge u i (Nat.le_of_not_lt hc)] at role
        cases role
      have act : timeOutBid i u = perform ((u.reservedFor i).map .release) ((u.withdraw fun e => e.isBid (u.slotOf i)).freeGuestAt i) := by
        unfold timeOutBid
        rw [hr']
        exact (if_pos passed).trans (if_pos ⟨role, start'⟩)
      rw [act, State.Frees.reservation_of_posting (posting_perform _ _ _), freeGuestAt_ctx (by exact lt)]
      rfl
    · have stands : timeOutBid i u = u := by
        unfold timeOutBid
        rw [none]
      rw [stands]
      exact none
  · rcases State.Frees.timeOutBid (i := i) k u with same | none'
    · exact (State.Frees.reservation_of_posting same).trans none
    · exact none'

end Timeout

end Sys2Proof.Machine

namespace Sys2Proof.Machine

open Sys2Proof

/-! ## Hand-overs at the end of a boundary -/

/-- Every hand-over of the frame that begins has taken effect (R162 to R165). -/
theorem handOvers_done {s : State} {i f : Nat} (sound : s.slotsSound) (hi : i < 64)
    (h : ((eachContext handOver s).ctx i).stopAt = some f ∨ ((eachContext handOver s).ctx i).startAt = some f) : s.frame < f := by
  refine eachContext_at (act := handOver) (i := i) (P := fun u => u.slotsSound ∧ u.frame = s.frame)
    (R := fun u => ∀ f, (u.ctx i).stopAt = some f ∨ (u.ctx i).startAt = some f → s.frame < f) hi
    (fun k _ u hu => ⟨(State.Steady.handOver k u).slots hu.1, (State.edge_frame (State.Judges.handOver k u).edge).trans hu.2⟩)
    (fun u hu f hf => ?_) (fun k hk u hu f hf => ?_) ⟨sound, rfl⟩ f h
  · rw [← hu.2]
    exact handOver_done (by rw [hu.1.2.1]; exact hi) hf
  · have same := handOver_posting_ne hk.symm u
    exact hu f (hf.imp (fun h => (Context.posting_stopAt same).symm.trans h) fun h => (Context.posting_startAt same).symm.trans h)

/-! ## RETURNs of guests (R164) -/

section Returns

variable {s t : State} {i slot d : Nat}

/-- A RETURN that gives the slot back stands in the queue, or one was dropped since the count stood at `d`. -/
def State.Returns (s : State) (slot d : Nat) : Prop :=
  (∃ e ∈ s.lane.queue, e.isReturn slot = true) ∨ d < s.lane.drops ∨ s.lane.drops = 65535

theorem State.Course.keepsReturn (h : s.Course t) (hs : s.Returns slot d) : t.Returns slot d := by
  rcases hs with ⟨e, he, hr⟩ | dropped
  · exact .inl ⟨e, h.returns e he (Entry.kind_of_isReturn hr), hr⟩
  · have := h.rises
    have := h.bounded
    right
    omega

/-- A guest that is to give its slot back: TAKEN, or ACTING-HOME with a pending RETURN, and without a call (R164). -/
def Context.GivesBack (c : Context) : Prop :=
  (c.role = .taken ∨ c.role = .actingHome ∧ c.pendingReturn = true) ∧ ∃ sv, c.serving = some sv ∧ sv.callPresent = false

theorem Context.GivesBack.aloof {c : Context} (h : c.GivesBack) : c.Aloof :=
  .inr (.inr (h.1.imp_right fun h => h.1))

theorem Context.GivesBack.steady {c : Context} (h : c.GivesBack) : c.steady.GivesBack := by
  obtain ⟨role, sv, hsv, clear⟩ := h
  refine ⟨?_, { sv with pathRun := 0 }, by rw [Context.steady]; dsimp only; rw [hsv]; rfl, clear⟩
  rcases role with role | ⟨role, pending⟩
  · exact .inl (by rw [Context.steady, role]; rfl)
  · exact .inr ⟨by rw [Context.steady, role]; rfl, pending⟩

theorem Context.givesBack_of_steady {c : Context} (h : c.steady.GivesBack) : c.GivesBack := by
  obtain ⟨role, sv, hsv, clear⟩ := h
  refine ⟨role.imp (fun h => Context.role_of_steady h (by decide)) fun h => ⟨Context.role_of_steady h.1 (by decide), h.2⟩, ?_⟩
  obtain ⟨sv', hsv', rfl⟩ := Option.map_eq_some_iff.1 (show c.serving.map _ = some sv from hsv)
  exact ⟨sv', hsv', clear⟩

theorem queueReturn_returns (h : s.Holds i slot) (hc : (s.ctx i).GivesBack) (count : min 65535 d ≤ min 65535 s.lane.drops) :
    (queueReturn i s).Returns slot d := by
  obtain ⟨role, sv, hsv, clear⟩ := hc
  have wants : ((s.ctx i).role == .taken || ((s.ctx i).role == .actingHome && (s.ctx i).pendingReturn)) = true := by
    rcases role with role | ⟨role, pending⟩
    · rw [role]
      rfl
    · rw [role, pending]
      rfl
  unfold queueReturn
  dsimp only
  rw [wants, hsv, h.slotOf]
  simp only [Option.elim, clear, Bool.not_false, Bool.true_and]
  split
  · have own : ∀ e : Entry, e.msg = .returnSlot (BitVec.ofNat 7 (s.slotOf i)) (if (s.ctx i).pendingReturn = true then 3 else 0) s.me →
        e.isReturn slot = true := fun e he => by
      have cause : ((if (s.ctx i).pendingReturn = true then 3 else 0 : BitVec 3) == 0
          || (if (s.ctx i).pendingReturn = true then 3 else 0 : BitVec 3) == 3) = true := by
        cases (s.ctx i).pendingReturn <;> rfl
      simp only [Entry.isReturn, he, cause, Bool.and_true, h.slotOf, BitVec.toNat_ofNat, Nat.mod_eq_of_lt h.slot_lt, beq_self_eq_true]
    rcases s.enqueue_or_drops ⟨.returnSlot (BitVec.ofNat 7 (s.slotOf i)) (if (s.ctx i).pendingReturn = true then 3 else 0) s.me, s.frame, none⟩
      with joined | dropped
    · exact .inl ⟨_, joined, own _ rfl⟩
    · refine .inr ?_
      show d < (s.enqueue _).1.lane.drops ∨ (s.enqueue _).1.lane.drops = 65535
      rw [dropped]
      omega
  · next queued =>
    obtain ⟨e, he, hr⟩ := List.any_eq_true.1 (show s.queued (·.isReturn slot) = true by simpa using queued)
    exact .inl ⟨e, he, hr⟩

/-- A guest that is to give its slot back has a RETURN queued behind its turn (R151, R164). -/
theorem boundaryGuests_returns (h : s.Holds i slot) (hc : (s.ctx i).GivesBack) : (boundaryGuests s).Returns slot s.lane.drops := by
  have memory := State.Waits.memoryExpired ⟨h, hc.steady.aloof⟩
  refine eachContext_at (P := fun u => u.Stands i slot Context.GivesBack ∧ min 65535 s.lane.drops ≤ min 65535 u.lane.drops)
    (R := fun u => u.Returns slot s.lane.drops) h.lt (fun k _ u hu => ?_) (fun u hu => ?_) (fun k _ u hu => ?_)
    ⟨memory.stands ⟨h, hc.steady⟩, memory.turn.rises⟩
  · have waits := State.Waits.queueReturn (i := i) hu.1.1 k
    exact ⟨waits.stands hu.1, Nat.le_trans hu.2 waits.turn.rises⟩
  · exact queueReturn_returns hu.1.1 (Context.givesBack_of_steady hu.1.2) hu.2
  · exact (State.Judges.queueReturn k u).course.keepsReturn hu

end Returns

/-! ## Offers past o+4 (R161) -/

section Offers

variable {s t : State} {i k slot o : Nat} {r : OfferRecord}

/-- The offer of a context is over. -/
def Context.Closed (c : Context) : Prop := c.role = .homeServing ∧ c.offer = none

/-- Context i holds the slot and has no stop pending: its offer is over, or it stands with this record, and without a bid no GRANT
for the slot is queued. -/
structure State.Asks (i slot : Nat) (r : OfferRecord) (s : State) : Prop where
  holds : s.Holds i slot
  stop : (s.ctx i).stopAt = none
  offer : (s.ctx i).Closed ∨ (s.ctx i).role = .homeOffering ∧ (s.ctx i).offer = some r
    ∧ (r.best = none → ∀ e ∈ s.lane.queue, e.isGrant slot = false)

/-- Context i holds the slot and has no stop pending: its offer is over, or, where one was to be granted, a GRANT for the slot is queued. -/
structure State.Answers (i slot : Nat) (granted : Prop) (s : State) : Prop where
  holds : s.Holds i slot
  stop : (s.ctx i).stopAt = none
  offer : (s.ctx i).Closed ∨ granted ∧ (s.ctx i).role = .homeOffering ∧ ∃ e ∈ s.lane.queue, e.isGrant slot = true

theorem State.Passes.closed (h : s.Passes i slot t) (hs : (s.ctx i).Closed) : (t.ctx i).Closed := by
  rcases h.offer with ⟨role, offer⟩ | ⟨was, -⟩
  · exact ⟨role.trans hs.1, offer.trans hs.2⟩
  · rw [hs.1] at was
    cases was

theorem State.Passes.stopAt (h : s.Passes i slot t) : (t.ctx i).stopAt = (s.ctx i).stopAt := (congrArg Context.stopAt h.steady :)

theorem State.Passes.asks (h : s.Passes i slot t) (sound : s.Steady t) (hs : s.Asks i slot r) : t.Asks i slot r := by
  refine ⟨h.holds sound hs.holds, h.stopAt.trans hs.stop, ?_⟩
  rcases hs.offer with closed | ⟨role, offer, quiet⟩
  · exact .inl (h.closed closed)
  · rcases h.offer with ⟨role', offer'⟩ | ⟨-, ended⟩
    · exact .inr ⟨role'.trans role, offer'.trans offer, fun none e he => Bool.eq_false_iff.2 fun hg =>
        Bool.eq_false_iff.1 (quiet none e (h.ungranted e he hg)) hg⟩
    · exact .inl ended

theorem State.Passes.answers {g : Prop} (h : s.Passes i slot t) (sound : s.Steady t) (hs : s.Answers i slot g) : t.Answers i slot g := by
  refine ⟨h.holds sound hs.holds, h.stopAt.trans hs.stop, ?_⟩
  rcases hs.offer with closed | ⟨granted, role, e, he, hg⟩
  · exact .inl (h.closed closed)
  · rcases h.offer with ⟨role', -⟩ | ⟨-, ended⟩
    · rcases h.grants with ended | stay
      · exact .inl ended
      · exact .inr ⟨granted, role'.trans role, e, stay e he hg, hg⟩
    · exact .inl ended

theorem Context.Closed.ne {c : Context} (h : c.Closed) : c.role ≠ .homeOffering := by rw [h.1]; decide

/-- A home that offers, or has offered, has no bid. -/
theorem withdrawBid_of_role (h : (s.ctx i).role ≠ .reserved) : withdrawBid i s = s := if_neg fun hc => h hc.1

theorem State.Asks.unreserved (h : s.Asks i slot r) : (s.ctx i).role ≠ .reserved := by
  rcases h.offer with closed | ⟨role, -⟩
  · rw [closed.1]
    decide
  · rw [role]
    decide

theorem State.Answers.role {g : Prop} (h : s.Answers i slot g) : (s.ctx i).role = .homeServing ∨ (s.ctx i).role = .homeOffering :=
  h.offer.imp (fun h => h.1) fun h => h.2.1

theorem expireBid_asks (h : s.Asks i slot r) (other : Nat) : (expireBid other s).Asks i slot r := by
  refine State.Passes.asks ?_ (State.Steady.expireBid other s) h
  by_cases hne : other = slot
  · subst hne
    have withdrawn : onHeld other withdrawBid (s.withdraw fun e => e.isBid other && e.pastOffer s.frame 4) =
        s.withdraw fun e => e.isBid other && e.pastOffer s.frame 4 :=
      (onHeld_of_holds (t := s.withdraw _) h.holds rfl).trans (withdrawBid_of_role (s := s.withdraw _) h.unreserved)
    unfold expireBid
    dsimp only
    rw [withdrawn]
    have stands := State.Passes.refl h.holds.alone
    exact .ite (stands.withdraw (fun e hg => by rw [Entry.not_isBid (by rw [Entry.kind_of_isGrant hg]; decide), Bool.false_and])
      fun e hr => by rw [Entry.not_isBid (by rw [Entry.kind_of_isReclaim hr]; decide), Bool.false_and]) stands
  · exact State.Passes.expireBid h.holds hne

theorem failOffer_closed (hi : i < s.table.contexts.length) (stop : (s.ctx i).stopAt = none)
    (h : (s.ctx i).Closed ∨ (s.ctx i).role = .homeOffering) : ((failOffer i s).ctx i).Closed ∧ ((failOffer i s).ctx i).stopAt = none := by
  unfold failOffer
  split
  · rw [offerUnplaced_ctx hi]
    exact ⟨⟨rfl, rfl⟩, stop⟩
  · next hc =>
    rcases h with closed | role
    · exact ⟨closed, stop⟩
    · exact absurd ⟨role, stop⟩ hc

theorem expireGrant_asks (h : s.Asks i slot r) (other : Nat) : (expireGrant other s).Asks i slot r := by
  by_cases hne : other = slot
  · subst hne
    unfold expireGrant
    dsimp only
    split
    · rw [onHeld_of_holds (t := s.withdraw _) h.holds rfl]
      obtain ⟨closed, stop⟩ := failOffer_closed (s := s.withdraw fun e => e.isGrant other && e.pastOffer s.frame 8) (i := i)
        h.holds.lt_length h.stop (h.offer.imp_right fun h => h.1)
      have follows := (State.Follows.refl s).withdraw (p := fun e => e.isGrant other && e.pastOffer s.frame 8) |>.failOffer (i := i)
      exact ⟨⟨follows.steady.slots h.holds.sound, (follows.ctx i).slot.trans h.holds.slot⟩, stop, .inl closed⟩
    · exact h
  · exact (State.Passes.expireGrant h.holds hne).asks (State.Follows.refl s).expireGrant.steady h

theorem mem_enqueue {e : Entry} (h : (s.enqueue e).2 = true) : e ∈ (s.enqueue e).1.lane.queue := by
  have answer : (joinQueueWith e s.lane.queue).2.1 = true := h
  rw [State.enqueue_queue]
  obtain ⟨-, hj⟩ | ⟨-, -, -, hj⟩ | ⟨-, -, -, -, hj⟩ | ⟨-, hj⟩ := joinQueueWith_cases e s.lane.queue <;> rw [hj] at answer ⊢
  · exact (mem_insertEntry _ _ _).2 (.inl rfl)
  · exact (mem_insertEntry _ _ _).2 (.inl rfl)
  · exact (mem_insertEntry _ _ _).2 (.inl rfl)
  · cases answer

/-- At the end of its window an offer leads to a GRANT, or is over (R161). -/
theorem endOfferWindow_answers (h : s.Asks i slot r) (ho : r.frame = some o) (late : o + 4 < s.frame) :
    (endOfferWindow i s).Answers i slot (r.best ≠ none) := by
  have follows := (State.Follows.refl s).endOfferWindow (i := i)
  have holds : (endOfferWindow i s).Holds i slot := ⟨follows.steady.slots h.holds.sound, (follows.ctx i).slot.trans h.holds.slot⟩
  have lt := h.holds.lt_length
  rcases h.offer with closed | ⟨role, offer, quiet⟩
  · have stands : endOfferWindow i s = s := by
      unfold endOfferWindow
      dsimp only
      rw [closed.1]
    exact ⟨holds, by rw [stands]; exact h.stop, .inl (by rw [stands]; exact closed)⟩
  · obtain ⟨frame, best⟩ := r
    dsimp only at ho quiet
    subst ho
    by_cases queued : s.queued (·.isGrant (s.slotOf i)) = true
    · have stands : endOfferWindow i s = s := by
        unfold endOfferWindow
        dsimp only
        rw [role, offer]
        exact if_neg fun hc => by simp [queued] at hc
      obtain ⟨e, he, hg⟩ := List.any_eq_true.1 queued
      rw [h.holds.slotOf] at hg
      have bid : best ≠ none := fun none => Bool.eq_false_iff.1 (quiet none e he) hg
      exact ⟨holds, by rw [stands]; exact h.stop, .inr ⟨bid, by rw [stands]; exact role, e, by rw [stands]; exact he, hg⟩⟩
    · have due : o + 4 < s.frame ∧ (s.ctx i).stopAt = none ∧ (!s.queued (·.isGrant (s.slotOf i))) = true :=
        ⟨late, h.stop, by simpa using queued⟩
      have unplaced : ∀ u : State, u.ctx i = s.ctx i → i < u.table.contexts.length → endOfferWindow i s = offerUnplaced i u →
          (endOfferWindow i s).Answers i slot (best ≠ none) := fun u same lt act => by
        have ended := offerUnplaced_ctx (s := u) lt
        rw [← act, same] at ended
        exact ⟨holds, by rw [ended]; exact h.stop, .inl (by rw [ended]; exact ⟨rfl, rfl⟩)⟩
      cases best with
      | none =>
        refine unplaced s rfl lt ?_
        simp only [endOfferWindow, role, offer, if_pos due]
      | some bid =>
        have act : endOfferWindow i s =
            if (s.enqueue ⟨.grant (BitVec.ofNat 7 (s.slotOf i)) (BitVec.ofNat 4 bid.1) s.me, s.frame, some o⟩).2 then
              (s.enqueue ⟨.grant (BitVec.ofNat 7 (s.slotOf i)) (BitVec.ofNat 4 bid.1) s.me, s.frame, some o⟩).1
            else offerUnplaced i (s.enqueue ⟨.grant (BitVec.ofNat 7 (s.slotOf i)) (BitVec.ofNat 4 bid.1) s.me, s.frame, some o⟩).1 := by
          simp only [endOfferWindow, role, offer, if_pos due]
        split at act
        · next joined =>
          refine ⟨holds, by rw [act]; exact h.stop, .inr ⟨Option.some_ne_none _, by rw [act]; exact role, _, act ▸ mem_enqueue joined, ?_⟩⟩
          simp [Entry.isGrant, h.holds.slotOf, Nat.mod_eq_of_lt h.holds.slot_lt]
        · exact unplaced (s.enqueue _).1 rfl (by rw [State.enqueue_table]; exact lt) act

/-! ### Behind the offer windows -/

variable {g : Prop}

theorem timeOutBid_answers (h : s.Answers i slot g) (k : Nat) : (timeOutBid k s).Answers i slot g := by
  by_cases hk : k = i
  · have stands : timeOutBid i s = s := by
      unfold timeOutBid
      rw [withdrawBid_of_role (by rcases h.role with role | role <;> rw [role] <;> decide)]
      split
      · exact ite_self s
      · rfl
    rw [hk, stands]
    exact h
  · exact (State.Passes.timeOutBid h.holds hk).answers (State.Steady.timeOutBid k s) h

theorem judgeAbsence_answers (h : s.Answers i slot g) (k : Nat) : (judgeAbsence k s).Answers i slot g := by
  by_cases hk : k = i
  · have stands : judgeAbsence i s = s := by
      unfold judgeAbsence
      dsimp only
      rcases h.role with role | role <;> rw [role] <;> rfl
    rw [hk, stands]
    exact h
  · exact (State.Passes.judgeAbsence h.holds hk).answers (State.Follows.refl s).judgeAbsence.steady h

theorem ageReclaim_answers (h : s.Answers i slot g) (k : Nat) : (ageReclaim k s).Answers i slot g := by
  by_cases hk : k = i
  · subst hk
    have aged : (ageReclaim k s).ctx k = { s.ctx k with reclaim := (s.ctx k).reclaim.map (nextReclaim s.frame) } :=
      State.ctx_modCtx_self _ _ _ h.holds.lt_length
    refine ⟨⟨(State.Follows.refl s).ageReclaim.steady.slots h.holds.sound, ?_⟩, ?_, ?_⟩ <;> rw [aged]
    · exact h.holds.slot
    · exact h.stop
    · exact h.offer
  · exact (State.Passes.ageReclaim h.holds.alone hk).answers (State.Follows.refl s).ageReclaim.steady h

theorem handOver_answers (h : s.Answers i slot g) (k : Nat) : (handOver k s).Answers i slot g := by
  by_cases hk : k = i
  · subst hk
    have stopped : s.stopped k = s := by
      rw [State.stopped, h.stop]
      rfl
    have serves : (s.ctx k).role.serves = true := by rcases h.role with role | role <;> rw [role] <;> rfl
    have act : handOver k s = s ∨ handOver k s = s.modCtx k fun c => { c with startAt := none } := by
      rw [handOver_eq, stopped]
      split
      · refine .inr ?_
        unfold handOverStart
        rw [serves]
      · exact .inl rfl
    rcases act with act | act
    · rw [act]
      exact h
    · have sound := (State.Steady.handOver k s).slots h.holds.sound
      rw [act] at sound ⊢
      have self : (s.modCtx k fun c => { c with startAt := none }).ctx k = { s.ctx k with startAt := none } :=
        State.ctx_modCtx_self _ _ _ h.holds.lt_length
      refine ⟨⟨sound, ?_⟩, ?_, ?_⟩ <;> rw [self]
      · exact h.holds.slot
      · exact h.stop
      · exact h.offer
  · exact (State.Passes.handOver h.holds hk).answers (State.Steady.handOver k s) h

theorem boundaryTail_answers (h : s.Answers i slot g) : (boundaryTail s).Answers i slot g := by
  have judged := eachContext_keeps (P := State.Answers i slot g) (fun k _ hu => judgeAbsence_answers hu k) h
  have aged := eachContext_keeps (P := State.Answers i slot g) (fun k _ hu => ageReclaim_answers hu k) judged
  have queued := eachContext_keeps (P := State.Answers i slot g) (fun k u hu =>
    (State.Passes.requeueReclaim hu.holds.alone k).answers (State.Follows.refl u).requeueReclaim.steady hu) aged
  have counted := (State.Passes.updateAbsence queued.holds.alone).answers (State.Steady.updateAbsence _) queued
  have adopts := eachSlot_keeps (P := State.Answers i slot g) (fun k lt u hu =>
    (State.Passes.judgeAdopt hu.holds k).answers (State.Steady.judgeAdopt lt u) hu) counted
  have orphans := eachSlot_keeps (P := State.Answers i slot g) (fun k _ u hu =>
    (State.Passes.queueAdopt hu.holds.alone k).answers (State.Follows.refl u).queueAdopt.steady hu) adopts
  exact eachContext_keeps (P := State.Answers i slot g) (fun k _ hu => handOver_answers hu k) orphans

/-- An offer past o+4 has led to a GRANT, or is over, once the boundary is (R161). -/
theorem boundary_answers (h : s.Asks i slot r) (ho : r.frame = some o) (late : o + 4 < s.frame) :
    (boundaryTail (boundaryGuests s)).Answers i slot (r.best ≠ none) := by
  have kept : ∀ e : Entry, e.msg.kind ≠ 11 → (match e.msg with | .adopt slot _ _ => s.otherMark slot.toNat | _ => false) = false :=
    fun _ hk => Entry.not_adopt_of_kind (p := fun slot => s.otherMark slot.toNat) hk
  have adopts : (expireAdopts s).Asks i slot r := ((State.Passes.refl h.holds.alone).withdraw
      (fun e hg => kept e (by rw [Entry.kind_of_isGrant hg]; decide)) fun e hr => kept e (by rw [Entry.kind_of_isReclaim hr]; decide)).asks
    (State.Follows.refl s).expireAdopts.steady h
  have bids := eachSlot_keeps (P := State.Asks i slot r) (fun k _ _ hu => expireBid_asks hu k) adopts
  have grants := eachSlot_keeps (P := State.Asks i slot r) (fun k _ _ hu => expireGrant_asks hu k) bids
  have judged : s.Judges (grantsExpired s) :=
    ((State.Judges.expireAdopts s).trans (.eachSlot State.Judges.expireBid _)).trans (.eachSlot State.Judges.expireGrant _)
  have windows : (windowsEnded s).Answers i slot (r.best ≠ none) := eachContext_at (P := fun u => u.Asks i slot r ∧ u.frame = s.frame)
    h.holds.lt
    (fun k hk u hu => ⟨(State.Passes.endOfferWindow hu.1.holds hk).asks (State.Follows.refl u).endOfferWindow.steady hu.1,
      (State.edge_frame (State.Judges.endOfferWindow k u).edge).trans hu.2⟩)
    (fun u hu => endOfferWindow_answers hu.1 ho (by rw [hu.2]; exact late))
    (fun k hk u hu => (State.Passes.endOfferWindow hu.holds hk).answers (State.Follows.refl u).endOfferWindow.steady hu)
    ⟨grants, State.edge_frame judged.edge⟩
  have outs := eachContext_keeps (P := State.Answers i slot (r.best ≠ none)) (fun k _ hu => timeOutBid_answers hu k) windows
  have memory := eachSlot_keeps (P := State.Answers i slot (r.best ≠ none)) (fun k _ u hu =>
    (State.Passes.expireOfferMemory hu.holds.alone k).answers (State.Follows.refl u).expireOfferMemory.steady hu) outs
  have returns := eachContext_keeps (P := State.Answers i slot (r.best ≠ none)) (fun k u hu =>
    (State.Passes.queueReturn hu.holds.alone k).answers (State.Follows.refl u).queueReturn.steady hu) memory
  exact boundaryTail_answers returns

end Offers

section Frame

variable {i : Nat}

theorem grantsExpired_frame (s : State) : (grantsExpired s).frame = s.frame :=
  State.edge_frame (((State.Judges.expireAdopts s).trans (.eachSlot State.Judges.expireBid _)).trans
    (.eachSlot State.Judges.expireGrant _)).edge

theorem updateAbsence_unbids (s : State) : s.Unbids i (updateAbsence s) := .of_same rfl

theorem State.rim_frame {s t : State} (h : t.rim = s.rim) : t.frame = s.frame := congrArg (·.1.1) h

theorem boundaryRun_frame (s : State) : (boundaryRun s).frame = s.frame := State.rim_frame (boundaryRun_rim s)

/-- A context without a reservation has none behind the offer memory and the guests' RETURNs. -/
theorem boundaryGuests_unbids (s : State) (h : ((bidsTimedOut s).ctx i).reservation = none) :
    ((boundaryGuests s).ctx i).reservation = none := by
  have memory : ((memoryExpired s).ctx i).reservation = none :=
    State.Unbids.eachSlot (i := i) (act := expireOfferMemory) (fun k u => by
      unfold expireOfferMemory
      split
      · exact .ite (.of_same rfl) (.refl u)
      · exact .refl u) (bidsTimedOut s) h
  exact State.Unbids.eachContext (i := i) (act := queueReturn) (fun _ u => .ite (.of_same rfl) (.refl u)) (memoryExpired s) memory

/-- A context without a reservation has none behind the judgements of the homes, the orphans and the hand-overs. -/
theorem boundaryTail_unbids (s : State) : s.Unbids i (boundaryTail s) := by
  have judged := State.Unbids.eachContext (i := i) (act := judgeAbsence) (fun k u => .ite (.serveAgain k u) (.refl u)) s
  have aged := judged.trans (.eachContext (act := ageReclaim) (fun k u => .modCtx u k fun _ h => h) _)
  have queued := aged.trans (.eachContext (act := requeueReclaim) (fun k u => by
    unfold requeueReclaim
    dsimp only
    split
    · exact .ite (.of_same rfl) (.refl u)
    · exact .refl u) _)
  have counted := queued.trans (updateAbsence_unbids _)
  have adopts := counted.trans (.eachSlot .judgeAdopt _)
  have orphans := adopts.trans (.eachSlot (act := queueAdopt) (fun _ u => .ite (.of_same rfl) (.refl u)) _)
  exact orphans.trans (.eachContext .handOver _)

end Frame

/-- The slots stand behind every judgement of a RUN boundary but the hand-overs. -/
theorem beforeHandOvers_sound {s : State} (h : s.slotsSound) : (boundaryRun s).slotsSound := (State.Steady.boundaryRun s).slots h

theorem marked_sound {s : State} (h : s.slotsSound) (others : BitVec 128) : (s.marked others).slotsSound :=
  (((State.Follows.refl s).settleRecalled.takeMarks (others := others)).setFrame (f := s.frame + 1)).steady.slots h

/-- A mark of another party is a mark that this station does not assert (R138). -/
theorem unmarked_of_otherMark {s : State} {others : BitVec 128} {slot : Nat} (lt : slot < 128)
    (h : (s.marked others).otherMark slot = false) : others.getLsbD slot = false ∨ (s.servedBy slot).isSome = true := by
  have own : (s.marked others).lane.ownRecord = s.marks := (congrArg (·.1.2.2.2) (marked_rim s others) :)
  rw [State.otherMark, marked_markRecord, own, BitVec.getLsbD_or, marks_getLsbD s lt] at h
  cases ho : others.getLsbD slot with
  | false => exact .inl rfl
  | true =>
    rw [ho] at h
    simpa using h

/-- Settles O44: each deadline has its stage of the boundary, and what the stages behind it leave. -/
theorem frameBoundaryMeetsDeadlines : Obligations.FrameBoundaryMeetsDeadlines := by
  intro s others locked run sized sound
  have soundM := marked_sound sound others
  refine ⟨boundaryTail (boundaryGuests (s.marked others)), (endFrame_run locked run).trans (congrArg Host.Outcome.next (boundary_stages _)),
    fun e he o ho hk => ?_, fun e he o ho hk _ early => ?_, fun e he slot lt ha => ?_,
    fun slot lt m hm => ?_, fun i hi f hf => ?_, fun i hi r hr b hb reserved start late => ?_,
    fun i hi slot hslot sv hsv lt clear role => ?_, fun i hi slot hslot r hr o ho role stop late lt => ?_⟩
  · rcases (bidsExpired_course (s.marked others)).joined e he with he | fresh
    · exact Nat.lt_of_succ_le (bidsExpired_none ho hk he)
    · exact absurd hk fresh.1
  · have behind : e.eligible ≠ (s.marked others).frame := by
      show e.eligible ≠ s.frame + 1
      omega
    rcases (grantsExpired_course (s.marked others)).joined e he with he | fresh
    · exact Nat.lt_of_succ_le (grantsExpired_none ho hk behind he)
    · exact absurd ((fresh.2.1 hk).trans (grantsExpired_frame _)) behind
  · rcases (expireAdopts_course (s.marked others)).joined e he with he | fresh
    · exact unmarked_of_otherMark lt (expireAdopts_none ha he)
    · refine unmarked_of_otherMark lt ?_
      have unmarked : (s.marked others).lane.markRecord.getLsbD slot = false := fresh.2.2 slot lt ha
      rw [State.otherMark, unmarked, Bool.false_and]
  · exact Nat.lt_of_succ_le (memoryExpired_none lt ((memoryExpired_course (s.marked others)).memory slot m hm))
  · have done := handOvers_done (beforeHandOvers_sound soundM) hi hf
    rw [boundaryRun_frame] at done
    exact done
  · have freed := bidsTimedOut_reservation (s := s.marked others) hi reserved start hr hb (Nat.lt_succ_of_le late)
    exact (boundaryTail_unbids _) (boundaryGuests_unbids _ freed)
  · have holds : (s.marked others).Holds i slot := ⟨soundM, hslot⟩
    exact (boundaryTail_course _).keepsReturn (boundaryGuests_returns holds ⟨role, sv, hsv, clear⟩)
  · have holds : (s.marked others).Holds i slot := ⟨soundM, hslot⟩
    have asks : (r.best = none → ∀ e ∈ s.lane.queue, e.isGrant slot = false) → (s.marked others).Asks i slot r := fun quiet =>
      ⟨holds, stop, .inr ⟨role, hr, fun none e he => quiet none e (List.diff_subset _ _ he)⟩⟩
    refine ⟨fun none quiet => ?_, fun bid => ?_⟩
    · exact (boundary_answers (asks fun _ => quiet) ho (Nat.lt_succ_of_le late)).offer.resolve_right fun h => h.1 none
    · rcases (boundary_answers (asks fun none => absurd none bid) ho (Nat.lt_succ_of_le late)).offer with closed | ⟨-, -, granted⟩
      · exact .inr closed.1
      · exact .inl granted

end Sys2Proof.Machine

namespace Sys2Proof.Machine

open Sys2Proof

/-! ## Blocks out of the reach of every other context

While a context waits for no block, the acts of the pool for other contexts leave it and the blocks it holds alone. -/

/-- The blocks of a search record, on segments and in the spare hand (R78). -/
def SearchRecord.blocks (r : SearchRecord) : List Nat := r.bound.map (·.2) ++ r.spare

theorem SearchRecord.mem_blocks {r : SearchRecord} {b : Nat} :
    b ∈ r.blocks ↔ (∃ e ∈ r.map, e.fill = .block b) ∨ b ∈ r.spare := by
  have bound : b ∈ r.bound.map (·.2) ↔ ∃ e ∈ r.map, e.fill = .block b := by
    simp only [SearchRecord.bound, List.map_filterMap, List.mem_filterMap]
    refine exists_congr fun e => and_congr_right fun _ => ?_
    cases he : e.fill <;> simp [Segment.block?, he]
  rw [SearchRecord.blocks, List.mem_append, bound]

theorem SearchRecord.mem_heldBlocks {r : SearchRecord} {b : Nat} : b ∈ r.heldBlocks ↔ b ∈ r.blocks := Laws.mem_sortNums _ _

section Spares

variable {s u v : State} {i k c : Nat} {H : List Nat}

theorem State.heldBlocks_of_search {r : SearchRecord} (hr : (s.ctx k).search = some r) : s.heldBlocks k = r.blocks := by
  rw [State.heldBlocks, hr]
  rfl

/-- `u` is `s` with context i and its blocks `H` as they were; no other context holds them, none is FREE or SPARE, and context i does
not wait for blocks. -/
structure State.Spares (i : Nat) (H : List Nat) (s u : State) : Prop where
  ctx : u.ctx i = s.ctx i
  blocks : ∀ b ∈ H, u.tapBlock b = s.tapBlock b
  spare : ∀ b ∈ H, (s.tapBlock b).state ≠ .spare
  queue : i ∉ u.pool.shortfall
  fifo : ∀ b ∈ H, b ∉ u.pool.fifo
  held : ∀ k, k ≠ i → ∀ b ∈ H, b ∉ u.heldBlocks k

/-- Tasks that are not about context i and release none of the blocks `H`. -/
def Task.Misses (i : Nat) (H : List Nat) (ts : List Task) : Prop := ∀ t ∈ ts, t.subject ≠ some i ∧ ∀ b ∈ H, t ≠ .release b

theorem Task.misses_nil : Task.Misses i H [] := fun _ h => nomatch h

theorem Task.misses_one {t : Task} (ht : t.subject = some k) (hk : k ≠ i) : Task.Misses i H [t] := fun u hu => by
  obtain rfl := List.mem_singleton.1 hu
  refine ⟨by rw [ht]; exact fun h => hk (Option.some.inj h), fun b _ h => ?_⟩
  rw [h] at ht
  cases ht

theorem Task.Misses.append {ts us : List Task} (ht : Task.Misses i H ts) (hu : Task.Misses i H us) : Task.Misses i H (ts ++ us) :=
  fun t h => (List.mem_append.1 h).elim (ht t) (hu t)

theorem Task.misses_release {bs : List Nat} (h : ∀ c ∈ bs, c ∉ H) : Task.Misses i H (bs.map .release) := fun t ht => by
  obtain ⟨c, hc, rfl⟩ := List.mem_map.1 ht
  exact ⟨nofun, fun b hb he => h c hc (Task.release.inj he ▸ hb)⟩

namespace State.Spares

/-- A step that touches neither contexts nor the pool. -/
theorem of_same (h : s.Spares i H u) (table : v.table = u.table) (pool : v.pool = u.pool) : s.Spares i H v := by
  have ctx : ∀ k, v.ctx k = u.ctx k := fun k => by rw [State.ctx, table, State.ctx]
  refine ⟨(ctx i).trans h.ctx, fun b hb => ?_, h.spare, pool ▸ h.queue, fun b hb => pool ▸ h.fifo b hb, fun k hk b hb => ?_⟩
  · rw [State.tapBlock, pool]
    exact h.blocks b hb
  · rw [State.heldBlocks, ctx]
    exact h.held k hk b hb

theorem notify (h : s.Spares i H u) (kind : Nat) (fs : List Field) : s.Spares i H (u.notify kind fs) := h.of_same (by simp) (by simp)

theorem noticeRetired (h : s.Spares i H u) (b n : Nat) : s.Spares i H (u.noticeRetired b n) := h.notify 5 _

theorem recallEntries (h : s.Spares i H u) (p : Entry → Bool) : s.Spares i H (u.recall p) := h.of_same (by simp) (by simp)

/-- A change of a block that is not one of `H`. -/
theorem modBlock (h : s.Spares i H u) (hc : c ∉ H) (f : TapBlock → TapBlock) : s.Spares i H (u.modBlock c f) :=
  ⟨h.ctx, fun b hb => (State.tapBlock_modBlock_ne u c b f fun he => hc (he ▸ hb)).trans (h.blocks b hb), h.spare, h.queue, h.fifo, h.held⟩

theorem setFifo (h : s.Spares i H u) {fifo : List Nat} (hf : ∀ b ∈ H, b ∉ fifo) : s.Spares i H { u with pool := { u.pool with fifo } } :=
  ⟨h.ctx, h.blocks, h.spare, h.queue, hf, h.held⟩

theorem setShortfall (h : s.Spares i H u) {shortfall : List Nat} (hq : i ∉ shortfall) :
    s.Spares i H { u with pool := { u.pool with shortfall } } :=
  ⟨h.ctx, h.blocks, h.spare, hq, h.fifo, h.held⟩

theorem freeBlock (h : s.Spares i H u) (hc : c ∉ H) : s.Spares i H (u.freeBlock c) := by
  refine (h.modBlock hc _).setFifo fun b hb hm => ?_
  rcases List.mem_append.1 hm with hm | hm
  · exact h.fifo b hb hm
  · exact hc (List.mem_singleton.1 hm ▸ hb)

theorem reserveBlock (h : s.Spares i H u) (hc : c ∉ H) (k : Nat) : s.Spares i H (u.reserveBlock k c) := h.modBlock hc _
theorem bindBlock (h : s.Spares i H u) (hc : c ∉ H) (k j : Nat) : s.Spares i H (u.bindBlock k j c) := h.modBlock hc _

theorem failBlock (h : s.Spares i H u) (hc : c ∉ H) (n : Nat) : s.Spares i H (u.failBlock c n) := h.modBlock hc _

theorem bindAll (h : s.Spares i H u) (k : Nat) {pairs : List (Nat × Nat)} (hp : ∀ jb ∈ pairs, jb.2 ∉ H) :
    s.Spares i H (u.bindAll k pairs) := by
  induction pairs generalizing u with
  | nil => exact h
  | cons jb pairs ih => exact ih (h.bindBlock (hp jb (List.mem_cons_self ..)) k jb.1) fun x hx => hp x (List.mem_cons_of_mem _ hx)

/-- A change of another context whose search gets none of the blocks `H`. -/
theorem modCtx (h : s.Spares i H u) (hk : k ≠ i) {f : Context → Context}
    (hf : ∀ b ∈ H, b ∉ u.heldBlocks k → b ∉ (f (u.ctx k)).search.elim [] SearchRecord.blocks) : s.Spares i H (u.modCtx k f) := by
  refine ⟨(State.ctx_modCtx_ne _ _ _ _ hk).trans h.ctx, fun b hb => ?_, h.spare, ?_, ?_, fun j hj b hb => ?_⟩
  · rw [State.modCtx_tapBlock]
    exact h.blocks b hb
  · rw [State.modCtx_pool]
    exact h.queue
  · rw [State.modCtx_pool]
    exact h.fifo
  · rw [State.heldBlocks, State.ctx_modCtx]
    split
    · next at_ =>
      exact hf b hb (h.held k hk b hb)
    · exact h.held j hj b hb

theorem modSearch (h : s.Spares i H u) (hk : k ≠ i) {f : SearchRecord → SearchRecord}
    (hf : ∀ r, (u.ctx k).search = some r → ∀ b ∈ H, b ∉ r.blocks → b ∉ (f r).blocks) : s.Spares i H (u.modSearch k f) := by
  refine h.modCtx hk fun b hb hn => ?_
  dsimp only
  cases hr : (u.ctx k).search with
  | none => exact List.not_mem_nil
  | some r =>
    rw [State.heldBlocks_of_search hr] at hn
    exact hf r hr b hb hn

theorem toTrack (h : s.Spares i H u) (hk : k ≠ i) : s.Spares i H (u.toTrack k) := h.modCtx hk fun _ _ hn => hn

theorem modServing (h : s.Spares i H u) (hk : k ≠ i) (f : Serving → Serving) : s.Spares i H (u.modServing k f) := h.modCtx hk fun _ _ hn => hn

theorem cancelOffer (h : s.Spares i H u) (hk : k ≠ i) : s.Spares i H (u.cancelOffer k) := by
  unfold State.cancelOffer
  dsimp only
  split
  · exact (h.recallEntries _).modCtx hk fun _ _ hn => hn
  · exact h

theorem leaveShortfall (h : s.Spares i H u) (hk : k ≠ i) : s.Spares i H (u.leaveShortfall k) := by
  unfold State.leaveShortfall
  split
  · exact (h.setShortfall fun hm => h.queue (List.mem_of_mem_erase hm)).cancelOffer hk
  · exact h

theorem leaveIfMet (h : s.Spares i H u) (hk : k ≠ i) : s.Spares i H (u.leaveIfMet k) := by
  unfold State.leaveIfMet
  split
  · exact h.leaveShortfall hk
  · exact h

theorem joinShortfall (h : s.Spares i H u) (hk : k ≠ i) : s.Spares i H (u.joinShortfall k) := by
  unfold State.joinShortfall
  split
  · exact h
  · refine (h.setShortfall fun hm => ?_).notify 3 _
    rcases List.mem_append.1 hm with hm | hm
    · exact h.queue hm
    · exact hk (List.mem_singleton.1 hm).symm

end State.Spares

/-! ### Plans -/

theorem mem_setFill {j : Nat} {f : Fill} {map : List Segment} {e : Segment} (h : e ∈ setFill j f map) : e ∈ map ∨ e.fill = f := by
  obtain ⟨x, hx, rfl⟩ := List.mem_map.1 h
  split
  · exact .inr rfl
  · exact .inl hx

/-- The blocks of a filled plan are those of the plan and of the list. -/
theorem mem_fillPlan {map : List Segment} {bs : List Nat} {e : Segment} (h : e ∈ (fillPlan map bs).1) :
    e ∈ map ∨ ∃ b ∈ bs, e.fill = .block b := by
  induction map generalizing bs with
  | nil => cases h
  | cons x map ih =>
    cases bs with
    | nil => exact .inl h
    | cons b bs =>
      rw [fillPlan] at h
      split at h
      · rcases List.mem_cons.1 h with rfl | h
        · exact .inr ⟨b, List.mem_cons_self .., rfl⟩
        · exact (ih h).imp (List.mem_cons_of_mem _) fun ⟨c, hc, he⟩ => ⟨c, List.mem_cons_of_mem _ hc, he⟩
      · rcases List.mem_cons.1 h with rfl | h
        · exact .inl (List.mem_cons_self ..)
        · exact (ih h).imp_left (List.mem_cons_of_mem _)

theorem fillPlan_rest_sublist (map : List Segment) (bs : List Nat) : (fillPlan map bs).2.Sublist bs := by
  induction map generalizing bs with
  | nil => exact .refl _
  | cons x map ih =>
    cases bs with
    | nil => exact .refl _
    | cons b bs =>
      rw [fillPlan]
      split
      · exact (ih bs).cons b
      · exact ih (b :: bs)

/-- Filling another context's plan with blocks that are not of `H`. -/
theorem State.Spares.fillMap (h : s.Spares i H u) (hk : k ≠ i) {map : List Segment} {bs : List Nat}
    (hm : ∀ e ∈ map, ∀ b ∈ H, e.fill ≠ .block b) (hb : ∀ b ∈ bs, b ∉ H)
    (hs : ∀ r, (u.ctx k).search = some r → ∀ b ∈ H, b ∉ r.spare) : s.Spares i H (u.fillMap k map bs).1 := by
  have filled : ∀ e ∈ (fillPlan map bs).1, ∀ b ∈ H, e.fill ≠ .block b := fun e he b hH hf => by
    rcases mem_fillPlan he with he | ⟨c, hc, hf'⟩
    · exact hm e he b hH hf
    · exact hb c hc (Fill.block.inj (hf'.symm.trans hf) ▸ hH)
  refine (h.bindAll k fun jb hjb hH => ?_).modSearch hk fun r hr b hH _ hb => ?_
  · obtain ⟨⟨e, x⟩, he, hjb⟩ := List.mem_filterMap.1 hjb
    dsimp only at hjb
    split at hjb
    · obtain ⟨b, hb, rfl⟩ := Option.map_eq_some_iff.1 hjb
      refine filled e (List.of_mem_zip he).1 b hH ?_
      cases hf : e.fill <;> simp [Segment.block?, hf] at hb
      rw [hb]
    · cases hjb
  · rcases SearchRecord.mem_blocks.1 hb with ⟨e, he, hf⟩ | hb
    · exact filled e he b hH hf
    · refine hs r ?_ b hH hb
      rw [← hr]
      exact (congrArg Context.search (State.bindAll_ctx u k _ k)).symm

/-! ### Tasks -/

theorem placeBlock_spares (h : s.Spares i H u) (hc : c ∉ H) :
    s.Spares i H (placeBlock c u).1 ∧ Task.Misses i H (placeBlock c u).2 := by
  unfold placeBlock
  split
  · exact ⟨h.freeBlock hc, Task.misses_nil⟩
  · next k _ queue =>
    have hk : k ≠ i := fun he => h.queue (by rw [queue, he]; exact List.mem_cons_self ..)
    split
    · refine ⟨(h.reserveBlock hc k).modSearch hk fun r _ b hb hn hm => ?_, ?_⟩
      · rw [SearchRecord.mem_blocks] at hn hm
        refine hn (hm.imp_right fun hm => ?_)
        exact ((Laws.mem_insertNum _ _ _).1 hm).resolve_left fun he => hc (he ▸ hb)
      · dsimp only
        split
        · exact (Task.misses_one (t := .passStart k) rfl hk).append (Task.misses_one (t := .checkMet k) rfl hk)
        · exact Task.misses_one rfl hk
    · split
      · refine ⟨((h.bindBlock hc k _).modSearch hk fun r _ b hb hn hm => ?_).leaveIfMet hk, Task.misses_nil⟩
        rw [SearchRecord.mem_blocks] at hn hm
        refine hn (hm.imp_left fun ⟨e, he, hf⟩ => ?_)
        exact ⟨e, (mem_setFill he).resolve_right fun hf' => hc (Fill.block.inj (hf'.symm.trans hf) ▸ hb), hf⟩
      · exact ⟨h.freeBlock hc, Task.misses_nil⟩
    · exact ⟨h.freeBlock hc, Task.misses_nil⟩

theorem promoteTask_spares (h : s.Spares i H u) : s.Spares i H (promoteTask u).1 ∧ Task.Misses i H (promoteTask u).2 := by
  unfold promoteTask
  split
  · exact ⟨h, Task.misses_nil⟩
  · next c rest spares =>
    have hc : c ∉ H := fun hc => by
      obtain ⟨-, t, ht, state⟩ := (Laws.mem_indicesFrom _ 0 c _).1 (by rw [spares]; exact List.mem_cons_self ..)
      refine h.spare c hc ?_
      rw [← h.blocks c hc, State.tapBlock, List.getD_eq_getElem?_getD, show u.pool.blocks[c]? = some t from ht]
      simpa using state
    refine placeBlock_spares ?_ hc
    split
    · exact h.notify 6 _
    · exact h

theorem foldl_insertSegment_mem {pairs : List (Nat × Nat)} {m : List Segment} {e : Segment}
    (h : e ∈ pairs.foldl (fun m jb => insertSegment (boundSegment jb) m) m) : e ∈ m ∨ ∃ jb ∈ pairs, e = boundSegment jb := by
  induction pairs generalizing m with
  | nil => exact .inl h
  | cons p pairs ih =>
    rcases ih h with h | ⟨jb, hjb, he⟩
    · rcases List.mem_cons.1 ((insertSegment_perm _ m).mem_iff.1 h) with rfl | h
      · exact .inr ⟨p, List.mem_cons_self .., rfl⟩
      · exact .inl h
    · exact .inr ⟨jb, List.mem_cons_of_mem _ hjb, he⟩

/-- A pass start adds no block to a search. -/
theorem SearchRecord.passed_blocks {r : SearchRecord} {reach b : Nat} (h : b ∈ (r.passed reach).blocks) : b ∈ r.blocks := by
  rw [SearchRecord.mem_blocks] at h ⊢
  rcases h with ⟨e, he, hf⟩ | h
  · rcases foldl_insertSegment_mem he with he | ⟨jb, hjb, rfl⟩
    · exact .inl ⟨e, he, hf⟩
    · exact .inr (Fill.block.inj hf ▸ (List.of_mem_zip (a := jb.1) (b := jb.2) hjb).2)
  · cases h

theorem passStartTask_spares (h : s.Spares i H u) (hk : k ≠ i) :
    s.Spares i H (passStartTask k u).1 ∧ Task.Misses i H (passStartTask k u).2 := by
  cases hc : (u.ctx k).callState with
  | search =>
    cases hr : (u.ctx k).search with
    | none =>
      have act : passStartTask k u = (u, []) := by
        rw [passStartTask, hc, hr]
      rw [act]
      exact ⟨h, Task.misses_nil⟩
    | some r =>
      have apart : ∀ b ∈ H, b ∉ r.blocks := fun b hb => State.heldBlocks_of_search hr ▸ h.held k hk b hb
      have spare : ∀ c ∈ r.spare, c ∉ H := fun c hc hb => apart c hb (List.mem_append_right _ hc)
      by_cases hu : r.unexplored (u.reachOf k) = []
      · have act : passStartTask k u = (u, [.searchEnd k]) := by
          rw [passStartTask, hc, hr]
          exact if_pos hu
        rw [act]
        exact ⟨h, Task.misses_one rfl hk⟩
      · have bound := h.bindAll k (pairs := (r.unexplored (u.reachOf k)).zip r.spare) fun jb hjb =>
          spare jb.2 (List.of_mem_zip (a := jb.1) (b := jb.2) hjb).2
        have passed : ∀ b ∈ H, b ∉ (r.passed (u.reachOf k)).blocks := fun b hb hm => apart b hb (SearchRecord.passed_blocks hm)
        rw [passStartTask_eq hc hr hu]
        dsimp only
        split
        · exact ⟨bound.modSearch hk fun _ _ b hb _ => passed b hb, Task.misses_nil⟩
        · exact ⟨(bound.modSearch hk (f := fun _ => { r.passed (u.reachOf k) with want := (r.passed (u.reachOf k)).bound.length })
            fun _ _ b hb _ => passed b hb).leaveShortfall hk,
            Task.misses_release fun c hc => spare c ((List.drop_sublist _ _).mem hc)⟩
  | _ =>
    have act : passStartTask k u = (u, []) := by rw [passStartTask, hc]
    rw [act]
    exact ⟨h, Task.misses_nil⟩

/-! ### Search ends -/

/-- The plan of a search end, with the blocks its segments hold already (R86). -/
def SearchRecord.planned (r : SearchRecord) (plan : List Nat) : List Segment :=
  plan.map fun j => Segment.mk j ((r.bound.find? fun e => e.1 == j).elim Fill.unfilled fun e => Fill.block e.2)

/-- The blocks a search end gives up, in ascending number (R87). -/
def SearchRecord.sources (r : SearchRecord) (plan : List Nat) : List Nat :=
  sortNums (((r.bound.filter fun e => !plan.contains e.1).map (·.2)) ++ r.spare)

/-- A context as its search end plans: no spare hand, the plan's size as its want (R86). -/
def State.planning (s : State) (i : Nat) (plan : List Nat) : State :=
  s.modSearch i fun r => { r with spare := [], want := plan.length }

/-- The plan of context k's search end (R86). -/
def State.planOf (s : State) (k : Nat) (r : SearchRecord) : List Nat := buildPlan (s.profileOf k).budget (s.reachOf k) r.retained

theorem searchEndTask_retained {r : SearchRecord} (hr : (s.ctx k).search = some r) (hn : r.retained ≠ []) :
    searchEndTask k s =
      (let filled := (s.planning k (s.planOf k r)).fillMap k (r.planned (s.planOf k r)) (r.sources (s.planOf k r))
       ((if (s.planOf k r).length ≤ r.held then filled.1.leaveShortfall k else filled.1).toTrack k,
         filled.2.map .release ++ [.finishSearch k])) := by
  rw [searchEndTask, hr]
  exact if_neg hn

theorem SearchRecord.planned_blocks {r : SearchRecord} {plan : List Nat} {e : Segment} {b : Nat} (he : e ∈ r.planned plan)
    (hf : e.fill = .block b) : b ∈ r.blocks := by
  obtain ⟨j, -, rfl⟩ := List.mem_map.1 he
  dsimp only at hf
  cases found : r.bound.find? fun e => e.1 == j with
  | none =>
    rw [found] at hf
    cases hf
  | some x =>
    rw [found] at hf
    exact List.mem_append_left _ (List.mem_map.2 ⟨x, List.mem_of_find?_eq_some found, Fill.block.inj hf⟩)

theorem SearchRecord.sources_blocks {r : SearchRecord} {plan : List Nat} {c : Nat} (hc : c ∈ r.sources plan) : c ∈ r.blocks :=
  List.mem_append.2 ((List.mem_append.1 ((Laws.mem_sortNums _ _).1 hc)).imp_left fun hc => (List.filter_sublist.map _).mem hc)

theorem planning_spares (h : s.Spares i H u) (hk : k ≠ i) (plan : List Nat) : s.Spares i H (u.planning k plan) :=
  h.modSearch hk fun _ _ _ _ hn hm => hn (List.mem_append_left _ ((List.mem_append.1 hm).resolve_right List.not_mem_nil))

theorem searchEndTask_spares (h : s.Spares i H u) (hk : k ≠ i) :
    s.Spares i H (searchEndTask k u).1 ∧ Task.Misses i H (searchEndTask k u).2 := by
  cases hr : (u.ctx k).search with
  | none =>
    have act : searchEndTask k u = (u, []) := by rw [searchEndTask, hr]
    rw [act]
    exact ⟨h, Task.misses_nil⟩
  | some r =>
    have apart : ∀ b ∈ H, b ∉ r.blocks := fun b hb => State.heldBlocks_of_search hr ▸ h.held k hk b hb
    have finish : Task.Misses i H [.finishSearch k] := Task.misses_one rfl hk
    by_cases hn : r.retained = []
    · have bare : ∀ c ∈ r.heldBlocks, c ∉ H := fun c hc hb => apart c hb (SearchRecord.mem_heldBlocks.1 hc)
      rw [searchEndTask_levelled hr hn]
      refine ⟨(((h.modSearch hk (f := fun r => { r with want := 0 }) fun _ _ _ _ hn => hn).leaveShortfall hk).modSearch hk
        fun _ _ _ _ _ hb => ?_).toTrack hk, (Task.misses_release bare).append finish⟩
      rcases SearchRecord.mem_blocks.1 hb with ⟨e, he, -⟩ | hb
      · cases he
      · cases hb
    · have sources : ∀ c ∈ r.sources (u.planOf k r), c ∉ H := fun c hc hb => apart c hb (SearchRecord.sources_blocks hc)
      have filled := (planning_spares h hk (u.planOf k r)).fillMap hk (map := r.planned (u.planOf k r))
        (fun e he b hb hf => apart b hb (SearchRecord.planned_blocks he hf)) sources fun r' hr' b _ hb => by
          rw [State.planning, State.ctx_modSearch_self _ _ _ (lt_of_search hr), hr] at hr'
          obtain rfl := Option.some.inj hr'
          cases hb
      rw [searchEndTask_retained hr hn]
      dsimp only
      refine ⟨State.Spares.toTrack ?_ hk, (Task.misses_release fun c hc => sources c ((fillPlan_rest_sublist _ _).mem hc)).append finish⟩
      split
      · exact filled.leaveShortfall hk
      · exact filled

theorem requestForPlan_spares (h : s.Spares i H u) (hk : k ≠ i) : s.Spares i H (requestForPlan k u) := by
  unfold requestForPlan
  dsimp only
  split
  · exact h
  · split
    · exact h.joinShortfall hk
    · have filled : s.Spares i H ((u.takeBlocks (min (u.shortOf k) u.free)).2.fillMap k ((u.ctx k).search.elim [] (·.map))
          (u.takeBlocks (min (u.shortOf k) u.free)).1).1 := by
        have taken : s.Spares i H (u.takeBlocks (min (u.shortOf k) u.free)).2 :=
          h.setFifo fun b hb hm => h.fifo b hb ((List.drop_sublist _ _).mem hm)
        refine taken.fillMap hk (fun e he b hb hf => ?_) (fun c hc hb => h.fifo c hb ((List.take_sublist _ _).mem hc)) fun r hr b hb hm =>
          h.held k hk b hb ?_
        · cases hr : (u.ctx k).search with
          | none =>
            rw [hr] at he
            cases he
          | some r =>
            rw [hr] at he
            refine h.held k hk b hb ?_
            rw [State.heldBlocks_of_search hr]
            exact SearchRecord.mem_blocks.2 (.inl ⟨e, he, hf⟩)
        · rw [State.heldBlocks_of_search (s := u) hr]
          exact List.mem_append_right _ hm
      split
      · exact filled
      · exact filled.joinShortfall hk

theorem finishSearchTask_spares (h : s.Spares i H u) (hk : k ≠ i) : s.Spares i H (finishSearchTask k u).1 :=
  (((requestForPlan_spares h hk).modSearch hk (f := fun r => { r with dwell := 0 }) fun _ _ _ _ hn => hn).modServing hk _).notify 2 _

/-- A task that is not about context i and releases none of its blocks leaves both alone. -/
theorem doTask_spares {t : Task} (h : s.Spares i H u) (ht : t.subject ≠ some i ∧ ∀ b ∈ H, t ≠ .release b) :
    s.Spares i H (doTask t u).1 ∧ Task.Misses i H (doTask t u).2 := by
  obtain ⟨other, keeps⟩ := ht
  have ne : ∀ {k}, t.subject = some k → k ≠ i := fun hk he => other (by rw [hk, he])
  cases t with
  | release c =>
    have hc : c ∉ H := fun hc => keeps c hc rfl
    simp only [doTask, releaseTask]
    split
    · exact promoteTask_spares ((h.failBlock hc _).noticeRetired c 2)
    · exact placeBlock_spares h hc
  | promote => exact promoteTask_spares h
  | passStart k => exact passStartTask_spares h (ne rfl)
  | checkMet k => exact ⟨h.leaveIfMet (ne rfl), Task.misses_nil⟩
  | searchEnd k => exact searchEndTask_spares h (ne rfl)
  | finishSearch k => exact ⟨finishSearchTask_spares h (ne rfl), Task.misses_nil⟩

/-- So do tasks taken to the end. -/
theorem runTasks_spares (fuel : Nat) (ts : List Task) {u : State} (h : s.Spares i H u) (ht : Task.Misses i H ts) :
    s.Spares i H (runTasks fuel ts u) := by
  induction fuel generalizing ts u with
  | zero => exact h
  | succ n ih =>
    cases ts with
    | nil => exact h
    | cons t ts =>
      obtain ⟨done, off⟩ := doTask_spares h (ht t (List.mem_cons_self ..))
      exact ih _ done (off.append fun t h => ht t (List.mem_cons_of_mem _ h))

theorem perform_spares {ts : List Task} (h : s.Spares i H u) (ht : Task.Misses i H ts) : s.Spares i H (perform ts u) :=
  runTasks_spares 4096 ts h ht

end Spares

end Sys2Proof.Machine

namespace Sys2Proof.Machine

open Sys2Proof

/-! ## Pass starts while other contexts wait (R82, R91, R103) -/

section Owns

variable {s : State} {i k : Nat} {H : List Nat}

/-- The blocks `H` are neither FREE nor SPARE, and no context but i holds them. -/
structure State.Owns (i : Nat) (H : List Nat) (s : State) : Prop where
  fifo : ∀ b ∈ H, b ∉ s.pool.fifo
  spare : ∀ b ∈ H, (s.tapBlock b).state ≠ .spare
  held : ∀ k, k ≠ i → ∀ b ∈ H, b ∉ s.heldBlocks k

theorem State.Owns.spares (h : s.Owns i H) (queue : i ∉ s.pool.shortfall) : s.Spares i H s :=
  ⟨rfl, fun _ _ => rfl, h.spare, queue, h.fifo, h.held⟩

theorem State.Spares.owns {u : State} (h : s.Spares i H u) : u.Owns i H :=
  ⟨h.fifo, fun b hb => by rw [h.blocks b hb]; exact h.spare b hb, h.held⟩

theorem State.Owns.mono {K : List Nat} (h : s.Owns i H) (sub : ∀ b ∈ K, b ∈ H) : s.Owns i K :=
  ⟨fun b hb => h.fifo b (sub b hb), fun b hb => h.spare b (sub b hb), fun k hk b hb => h.held k hk b (sub b hb)⟩

theorem heldBlocks_owner (h : s.poolSound) {b : Nat} (hb : b ∈ s.heldBlocks k) : (s.tapBlock b).owner.map (·.context) = some k := by
  obtain ⟨-, -, -, -, -, -, holds, -⟩ := h
  unfold State.heldBlocks at hb
  cases hr : (s.ctx k).search with
  | none => rw [hr] at hb; cases hb
  | some r =>
    rw [hr] at hb
    obtain ⟨-, -, bound, spare⟩ := holds k r hr
    rcases List.mem_append.1 hb with hb | hb
    · obtain ⟨jb, hjb, rfl⟩ := List.mem_map.1 hb
      exact (bound jb hjb).2.2
    · exact (spare b hb).2

/-- In a sound pool the blocks in service that context i owns are in nobody else's reach. -/
theorem poolSound_owns (h : s.poolSound) (inService : ∀ b ∈ H, (s.tapBlock b).state = .assigned ∨ (s.tapBlock b).state = .reserved)
    (owner : ∀ b ∈ H, (s.tapBlock b).owner.map (·.context) = some i) : s.Owns i H := by
  have free := h.2.2.2.1
  refine ⟨fun b hb hf => ?_, fun b hb hs => ?_, fun k hk b hb hm => hk ?_⟩
  · have state := ((free b).1 hf).2
    rcases inService b hb with n | n <;> rw [state] at n <;> cases n
  · rcases inService b hb with n | n <;> rw [hs] at n <;> cases n
  · exact Option.some.inj ((heldBlocks_owner h hm).symm.trans (owner b hb))

theorem poolSound_owns_held (h : s.poolSound) : s.Owns i (s.heldBlocks i) :=
  poolSound_owns h (fun _ hb => heldBlocks_state h hb) fun _ hb => heldBlocks_owner h hb

end Owns

section PassStart

variable {s : State} {i : Nat} {r : SearchRecord}

/-- The record after a pass start: a search that explores its whole reach wants what it holds (R82). -/
def SearchRecord.begun (r : SearchRecord) (reach : Nat) : SearchRecord :=
  { r.passed reach with
    want := if (r.unexplored reach).length < r.spare.length then (r.passed reach).bound.length else r.want }

theorem leaveShortfall_spares {u : State} {H : List Nat} {i : Nat} (owns : u.Owns i H)
    (queue : i ∉ u.pool.shortfall.erase i) : (u.leaveShortfall i).Spares i H (u.leaveShortfall i) := by
  have same : ∀ b, (u.leaveShortfall i).tapBlock b = u.tapBlock b := fun b => State.leaveShortfall_tapBlock u i b
  refine State.Owns.spares ⟨fun b hb => ?_, fun b hb => ?_, fun k hk b hb => ?_⟩ ?_
  · rw [State.leaveShortfall_fifo]
    exact owns.fifo b hb
  · rw [same]
    exact owns.spare b hb
  · rw [State.heldBlocks, State.ctx_leaveShortfall_ne _ _ _ hk.symm]
    exact owns.held k hk b hb
  · rw [State.leaveShortfall_shortfall]
    exact queue

/-- A pass start binds the spare hand to the lowest unexplored segments and leaves the blocks bound before alone, whoever waits
(R82). -/
theorem passStart_begins (hi : i < s.table.contexts.length) (hc : (s.ctx i).callState = .search) (hr : (s.ctx i).search = some r)
    (hu : r.unexplored (s.reachOf i) ≠ []) (nodup : r.blocks.Nodup) (inPool : ∀ b ∈ r.spare, b < s.pool.blocks.length)
    (queue : i ∉ s.pool.shortfall.erase i) (owns : s.Owns i r.blocks) :
    ((perform [.passStart i] s).ctx i).unoffered = ((s.ctx i).searching (r.begun (s.reachOf i))).unoffered
      ∧ (∀ jb ∈ (r.unexplored (s.reachOf i)).zip r.spare,
        (perform [.passStart i] s).tapBlock jb.2 = (s.tapBlock jb.2).boundTo ⟨i, s.slotOf i⟩ jb.1)
      ∧ ∀ b ∈ r.bound.map (·.2), (perform [.passStart i] s).tapBlock b = s.tapBlock b := by
  have pairs_spare : ∀ jb ∈ (r.unexplored (s.reachOf i)).zip r.spare, jb.2 ∈ r.spare.take (r.unexplored (s.reachOf i)).length :=
    fun jb hjb => by
      rw [← zip_map_snd]
      exact List.mem_map_of_mem hjb
  obtain ⟨-, spare_nodup, disjoint⟩ := List.nodup_append.1 nodup
  have distinct : (((r.unexplored (s.reachOf i)).zip r.spare).map (·.2)).Nodup := by
    rw [zip_map_snd]
    exact spare_nodup.sublist (List.take_sublist _ _)
  obtain ⟨bound, stand⟩ := State.bindAll_tapBlock (s := s) (i := i) distinct
    fun jb hjb => inPool _ ((List.take_sublist _ _).mem (pairs_spare jb hjb))
  have kept : ∀ b ∈ r.bound.map (·.2), (s.bindAll i ((r.unexplored (s.reachOf i)).zip r.spare)).tapBlock b = s.tapBlock b :=
    fun b hb => stand b fun jb hjb he => disjoint b hb jb.2 ((List.take_sublist _ _).mem (pairs_spare jb hjb)) he.symm
  have self : ∀ r', ((s.bindAll i ((r.unexplored (s.reachOf i)).zip r.spare)).modSearch i fun _ => r').ctx i = (s.ctx i).searching r' :=
    fun r' => by
      rw [State.ctx_modSearch_self _ _ _ (by rw [State.bindAll_table]; exact hi), State.bindAll_ctx, hr]
      rfl
  by_cases fits : r.spare.length ≤ (r.unexplored (s.reachOf i)).length
  · rw [perform_passStart_fits hc hr hu fits, self]
    refine ⟨?_, bound, kept⟩
    rw [SearchRecord.begun, if_neg (Nat.not_lt.2 fits)]
    rfl
  · have left : r.spare.drop (r.unexplored (s.reachOf i)).length ≠ [] := by
      rw [Ne, List.drop_eq_nil_iff]
      exact fits
    have task := passStartTask_eq hc hr hu
    simp only [if_neg left] at task
    rw [perform, runTasks, doTask, task, List.append_nil]
    dsimp only
    have record : { r.passed (s.reachOf i) with want := (r.passed (s.reachOf i)).bound.length } = r.begun (s.reachOf i) := by
      rw [SearchRecord.begun, if_pos (Nat.lt_of_not_le fits)]
    rw [record]
    have own := self (r.begun (s.reachOf i))
    have pool : ((s.bindAll i ((r.unexplored (s.reachOf i)).zip r.spare)).modSearch i fun _ => r.begun (s.reachOf i)).pool =
        (s.bindAll i ((r.unexplored (s.reachOf i)).zip r.spare)).pool := State.modSearch_pool _ _ _
    have others : ∀ k, k ≠ i → ((s.bindAll i ((r.unexplored (s.reachOf i)).zip r.spare)).modSearch i fun _ => r.begun (s.reachOf i)).ctx k
        = s.ctx k := fun k hk => by rw [State.ctx_modSearch_ne _ _ _ _ hk.symm, State.bindAll_ctx]
    generalize ((s.bindAll i ((r.unexplored (s.reachOf i)).zip r.spare)).modSearch i fun _ => r.begun (s.reachOf i)) = u at own pool others
    have read : ∀ b, u.tapBlock b = (s.bindAll i ((r.unexplored (s.reachOf i)).zip r.spare)).tapBlock b := fun b => by
      rw [State.tapBlock, pool, State.tapBlock]
    -- the blocks that stay with the context
    have stays : ∀ b ∈ r.bound.map (·.2) ++ r.spare.take (r.unexplored (s.reachOf i)).length, b ∈ r.blocks := fun b hb =>
      List.mem_append.2 ((List.mem_append.1 hb).imp_right (List.take_sublist _ _).mem)
    have uOwns : u.Owns i (r.bound.map (·.2) ++ r.spare.take (r.unexplored (s.reachOf i)).length) := by
      refine ⟨fun b hb => ?_, fun b hb => ?_, fun k hk b hb => ?_⟩
      · rw [pool, State.bindAll_fifo]
        exact owns.fifo b (stays b hb)
      · rw [read]
        rcases List.mem_append.1 hb with hb' | hb'
        · rw [kept b hb']
          exact owns.spare b (stays b hb)
        · rw [← zip_map_snd] at hb'
          obtain ⟨jb, hjb, rfl⟩ := List.mem_map.1 hb'
          rw [bound jb hjb]
          exact nofun
      · rw [State.heldBlocks, others k hk]
        exact owns.held k hk b (stays b hb)
    have spares := leaveShortfall_spares (u := u) uOwns (by rw [pool, State.bindAll_shortfall]; exact queue)
    have done := runTasks_spares 4095 ((r.spare.drop (r.unexplored (s.reachOf i)).length).map .release) spares
      (Task.misses_release fun c hc hb => by
        rcases List.mem_append.1 hb with hb | hb
        · exact disjoint c hb c ((List.drop_sublist _ _).mem hc) rfl
        · rw [← List.take_append_drop (r.unexplored (s.reachOf i)).length r.spare] at spare_nodup
          exact (List.nodup_append.1 spare_nodup).2.2 c hb c hc rfl)
    refine ⟨?_, fun jb hjb => ?_, fun b hb => ?_⟩
    · rw [done.ctx, State.unoffered_leaveShortfall, own]
    · rw [done.blocks _ (List.mem_append_right _ (pairs_spare jb hjb)), State.leaveShortfall_tapBlock, read, bound jb hjb]
    · rw [done.blocks _ (List.mem_append_left _ hb), State.leaveShortfall_tapBlock, read, kept b hb]

end PassStart

end Sys2Proof.Machine

namespace Sys2Proof.Machine

open Sys2Proof

/-! ## Takers (R23, R90, R163) -/

section Taker

variable {s u : State} {i k : Nat}

/-! ### The state a taker starts from -/

/-- The serving parts of a taker (R23). -/
def takerParts (i index : Nat) (s : State) : Serving := newServing index (s.profileAt index) (s.slotOf i) true

/-- A context as its call starts on an offer: TAKEN with new serving parts (R163). -/
def Context.takingOver (c : Context) (sv : Serving) : Context :=
  { c with role := .taken, reservation := none, startAt := none, serving := some sv, search := none, toneHold := false }

/-- The station as context i's call starts on an offer, before its first call state (R23). -/
def State.takingOver (s : State) (i index : Nat) : State :=
  let u := s.modCtx i fun c => { c with role := .taken, reservation := none, startAt := none }
  (u.clearPipeline (u.slotOf i)).modCtx i fun c =>
    { c with serving := some (takerParts i index u), search := none, toneHold := false }

theorem handOverStart_taker (role : (s.ctx i).role.serves = false) (guest : (s.ctx i).kind = .guest) (hi : i < s.table.contexts.length) :
    handOverStart i s = startTaker i ((s.ctx i).transparent || s.profile.station != .run)
      (s.takingOver i ((s.ctx i).reservation.elim 0 (·.profile))) := by
  have self : (s.modCtx i fun c => { c with role := .taken, reservation := none, startAt := none }).ctx i =
      { s.ctx i with role := .taken, reservation := none, startAt := none } := State.ctx_modCtx_self _ _ _ hi
  have transparent : ((s.modCtx i fun c => { c with role := .taken, reservation := none, startAt := none }).ctx i).transparent =
      (s.ctx i).transparent := by rw [self]
  unfold handOverStart
  rw [role, guest]
  dsimp only
  unfold servingStart
  dsimp only
  rw [transparent]
  rfl

theorem takingOver_ctx (hi : i < s.table.contexts.length) (index : Nat) :
    (s.takingOver i index).ctx i = (s.ctx i).takingOver (takerParts i index s) := by
  have self : (s.modCtx i fun c => { c with role := .taken, reservation := none, startAt := none }).ctx i =
      { s.ctx i with role := .taken, reservation := none, startAt := none } := State.ctx_modCtx_self _ _ _ hi
  have slot : (s.modCtx i fun c => { c with role := .taken, reservation := none, startAt := none }).slotOf i = s.slotOf i :=
    slotOf_modCtx fun _ => rfl
  unfold State.takingOver
  dsimp only
  rw [State.ctx_modCtx_self _ _ _ (by simpa using hi), takerParts, slot]
  have cleared : ∀ (v : State) (n : Nat), (v.clearPipeline n).ctx i = v.ctx i := fun _ _ => rfl
  rw [cleared, self]
  rfl

theorem takingOver_ctx_ne (hk : k ≠ i) (index : Nat) : (s.takingOver i index).ctx k = s.ctx k := by
  unfold State.takingOver
  dsimp only
  rw [State.ctx_modCtx_ne _ _ _ _ hk.symm]
  exact State.ctx_modCtx_ne s i k (fun c => { c with role := .taken, reservation := none, startAt := none }) hk.symm

theorem takingOver_pool (index : Nat) : (s.takingOver i index).pool = s.pool := rfl
theorem takingOver_profile (index : Nat) : (s.takingOver i index).profile = s.profile := rfl

theorem getD_set_nil {α : Type} (l : List (List α)) (n : Nat) : (l.set n []).getD n [] = [] := by
  rw [List.getD_eq_getElem?_getD, List.getElem?_set]
  split
  · split <;> rfl
  · contradiction

theorem clearPipeline_getD (u : State) (n : Nat) : (u.clearPipeline n).highway.pipeline.getD n [] = [] := getD_set_nil _ n

theorem takingOver_pipeline (index : Nat) : (s.takingOver i index).highway.pipeline.getD (s.slotOf i) [] = [] := by
  have slot : (s.modCtx i fun c => { c with role := .taken, reservation := none, startAt := none }).slotOf i = s.slotOf i :=
    slotOf_modCtx fun _ => rfl
  unfold State.takingOver
  dsimp only
  rw [slot]
  exact clearPipeline_getD (s.modCtx i fun c => { c with role := .taken, reservation := none, startAt := none }) (s.slotOf i)

/-! ### The first call state of a taker -/

theorem steady_startTaker (bypass : Bool) (i k : Nat) (s : State) : ((startTaker i bypass s).ctx k).steady = (s.ctx k).steady := by
  unfold startTaker
  dsimp only
  split
  · rw [steady_perform]
    exact State.ctx_modCtx_proj Context.steady _ _ _ _ fun _ => rfl
  · rw [steady_perform, steady_perform]
    exact State.ctx_modCtx_proj Context.steady _ _ _ _ fun _ => rfl

theorem startTaker_bypass (hi : i < u.table.contexts.length) : ((startTaker i true u).ctx i).callState = .bypass := by
  have self : (u.modCtx i fun c => { c with callState := .bypass }).ctx i = { u.ctx i with callState := .bypass } :=
    State.ctx_modCtx_self _ _ _ hi
  show ((perform ((u.reservedFor i).map .release) (u.modCtx i fun c => { c with callState := .bypass })).ctx i).callState = .bypass
  rw [perform_release_passive _ _ _ (by rw [self]; rfl), self]

theorem startTaker_bypass_fifo (queue : u.pool.shortfall = []) (unmarked : ∀ b ∈ u.reservedFor i, (u.tapBlock b).retirePending = false)
    (few : (u.reservedFor i).length ≤ 4000) : (startTaker i true u).pool.fifo = u.pool.fifo ++ u.reservedFor i := by
  show (perform ((u.reservedFor i).map .release) (u.modCtx i fun c => { c with callState := .bypass })).pool.fifo = _
  rw [perform_release (s := u.modCtx i fun c => { c with callState := .bypass }) queue unmarked (by omega), State.freeAll_fifo]
  rfl

/-- A taker's new search, with its reserved blocks up to its budget in its spare hand (R90). -/
def takerHand (i : Nat) (u : State) : SearchRecord :=
  { newSearch (min (u.profileOf i).budget (u.reservedFor i).length) with spare := (u.reservedFor i).take (u.profileOf i).budget }

def State.handed (u : State) (i : Nat) : State := u.modCtx i fun c => { c with callState := .search, search := some (takerHand i u) }

/-- The station once the reserved blocks above the budget are given up (R90). -/
def State.handsKept (u : State) (i : Nat) : State := perform (((u.reservedFor i).drop (u.profileOf i).budget).map .release) (u.handed i)

theorem startTaker_search : startTaker i false u =
    perform [if (u.profileOf i).budget = 0 then .searchEnd i else .passStart i] (u.handsKept i) := rfl

theorem handed_ctx (hi : i < u.table.contexts.length) :
    (u.handed i).ctx i = { u.ctx i with callState := .search, search := some (takerHand i u) } := State.ctx_modCtx_self _ _ _ hi

theorem handed_ctx_ne (hk : k ≠ i) : (u.handed i).ctx k = u.ctx k := State.ctx_modCtx_ne _ _ _ _ hk.symm

theorem reservedFor_sorted (u : State) (i : Nat) : (u.reservedFor i).Pairwise (· < ·) := by
  rw [State.reservedFor_eq]
  exact u.blocksWhere_sorted _

theorem reservedFor_nodup (u : State) (i : Nat) : (u.reservedFor i).Nodup := (reservedFor_sorted u i).imp fun h => Nat.ne_of_lt h

theorem reservedFor_state {b : Nat} (hb : b ∈ u.reservedFor i) :
    (u.tapBlock b).state = .reserved ∧ (u.tapBlock b).owner.map (·.context) = some i := by
  rw [State.reservedFor_eq] at hb
  have h := (State.mem_blocksWhere.1 hb).2
  rw [Bool.and_eq_true] at h
  refine ⟨by simpa using h.1, ?_⟩
  cases ho : (u.tapBlock b).owner with
  | none =>
    rw [ho] at h
    cases h.2
  | some o =>
    rw [ho] at h
    exact congrArg some (by simpa using h.2)

/-- A taker whose reserved blocks are in nobody else's reach. -/
structure State.Taking (i : Nat) (u : State) : Prop where
  lt : i < u.table.contexts.length
  owns : u.Owns i (u.reservedFor i)
  waits : i ∉ u.pool.shortfall
  few : u.pool.blocks.length = 264

theorem State.Taking.handsKept (h : u.Taking i) :
    (u.handed i).Spares i ((u.reservedFor i).take (u.profileOf i).budget) (u.handsKept i) := by
  have kept := h.owns.mono (K := (u.reservedFor i).take (u.profileOf i).budget) fun b hb => (List.take_sublist _ _).mem hb
  have owns : (u.handed i).Owns i ((u.reservedFor i).take (u.profileOf i).budget) := ⟨kept.fifo, kept.spare, fun k hk b hb => by
    rw [State.heldBlocks, handed_ctx_ne hk]
    exact kept.held k hk b hb⟩
  refine perform_spares (owns.spares h.waits) (Task.misses_release fun c hc hb => ?_)
  have nodup := reservedFor_nodup u i
  rw [← List.take_append_drop (u.profileOf i).budget (u.reservedFor i)] at nodup
  exact (List.nodup_append.1 nodup).2.2 c hb c hc rfl

theorem handsKept_length (u : State) (i : Nat) : (u.handsKept i).table.contexts.length = u.table.contexts.length
    ∧ (u.handsKept i).pool.blocks.length = u.pool.blocks.length ∧ (u.handsKept i).profile = u.profile := by
  have out : (u.handsKept i).outside = u.outside := by simp [State.handsKept, State.handed]
  exact ⟨State.outside_contexts out, State.outside_blocks out, State.outside_profile out⟩

theorem handsKept_fifo (queue : u.pool.shortfall = []) (unmarked : ∀ b ∈ u.reservedFor i, (u.tapBlock b).retirePending = false)
    (few : (u.reservedFor i).length ≤ 4000) :
    (u.handsKept i) = (u.handed i).freeAll ((u.reservedFor i).drop (u.profileOf i).budget) :=
  perform_release queue (fun b hb => unmarked b ((List.drop_sublist _ _).mem hb)) (by rw [List.length_drop]; omega)

theorem begun_newSearch {want reach : Nat} {X : List Nat} (h : X.length = want) :
    ({ newSearch want with spare := X } : SearchRecord).begun reach = .first (min reach want) reach X := by
  have unseen : ({ newSearch want with spare := X } : SearchRecord).unexplored reach = List.range reach := unexplored_newSearch want reach
  have size : (if reach < X.length then ((List.range reach).zip X).length else want) = min reach want := by
    rw [List.length_zip, List.length_range]
    split <;> omega
  rw [SearchRecord.begun, unseen, passed_newSearch, SearchRecord.first_bound, List.length_range]
  exact congrArg (SearchRecord.first · reach X) size

theorem begun_takerHand (u : State) (i reach : Nat) : (takerHand i u).begun reach =
    .first (min reach (min (u.profileOf i).budget (u.reservedFor i).length)) reach ((u.reservedFor i).take (u.profileOf i).budget) :=
  begun_newSearch (List.length_take ..)

/-- A taker searches on its reserved blocks (R90, R163). -/
theorem startTaker_searches (h : u.Taking i) (hB : 0 < (u.profileOf i).budget) (reach : 0 < u.reachOf i) :
    ((startTaker i false u).ctx i).callState = .search
      ∧ ((startTaker i false u).ctx i).search = some (.first (min (u.reachOf i) (min (u.profileOf i).budget (u.reservedFor i).length))
        (u.reachOf i) ((u.reservedFor i).take (u.profileOf i).budget))
      ∧ ∀ jb ∈ (List.range (u.reachOf i)).zip ((u.reservedFor i).take (u.profileOf i).budget),
        ((startTaker i false u).tapBlock jb.2).BoundTo ⟨i, u.slotOf i⟩ jb.1 := by
  have kept := h.handsKept
  obtain ⟨contexts, blocks, profile⟩ := handsKept_length u i
  have self : (u.handsKept i).ctx i = _ := kept.ctx.trans (handed_ctx h.lt)
  have reaches : (u.handsKept i).reachOf i = u.reachOf i := by
    rw [State.reachOf, State.profileOf_congr profile (by rw [self]), State.reachOf]
  have slot : (u.handsKept i).slotOf i = u.slotOf i := by
    rw [State.slotOf, self]
    rfl
  have unseen : (takerHand i u).unexplored (u.reachOf i) = List.range (u.reachOf i) := unexplored_newSearch 0 _
  have hand : (takerHand i u).blocks = (u.reservedFor i).take (u.profileOf i).budget := rfl
  obtain ⟨own, bound, -⟩ := passStart_begins (s := u.handsKept i) (r := takerHand i u) (by rw [contexts]; exact h.lt) (by rw [self])
    (by rw [self]) (by rw [reaches, unseen, Ne, List.range_eq_nil]; omega)
    (by rw [hand]; exact (reservedFor_nodup u i).sublist (List.take_sublist _ _))
    (fun b hb => by rw [blocks]; exact State.mem_reservedFor ((List.take_sublist _ _).mem hb))
    (fun hm => kept.queue (List.mem_of_mem_erase hm)) kept.owns
  rw [reaches, unseen, slot] at bound
  rw [reaches, self, begun_takerHand] at own
  rw [startTaker_search, if_neg (Nat.ne_of_gt hB)]
  refine ⟨Context.unoffered_callState own, Context.unoffered_search own, fun jb hjb => ?_⟩
  rw [bound jb hjb]
  exact TapBlock.boundTo_boundTo _ _ _

/-- A taker with a budget of 0 ends its search level-only at once (R85, R90). -/
theorem startTaker_budgetless (h : u.Taking i) (hB : (u.profileOf i).budget = 0) :
    ((startTaker i false u).ctx i).Ended 0 [] := by
  rw [startTaker_search, if_pos hB]
  exact searchEnd_ended (r := takerHand i u) (by rw [(handsKept_length u i).1]; exact h.lt)
    (by rw [h.handsKept.ctx, handed_ctx h.lt]) rfl

/-- What a taker gives back while no context waits: the blocks above its budget, then those above its reach (R90, R103). -/
theorem startTaker_fifo (h : u.Taking i) (reach : 0 < u.reachOf i) (queue : u.pool.shortfall = [])
    (unmarked : ∀ b ∈ u.reservedFor i, (u.tapBlock b).retirePending = false) :
    (startTaker i false u).pool.fifo = u.pool.fifo ++ (u.reservedFor i).drop (u.profileOf i).budget
      ++ ((u.reservedFor i).take (u.profileOf i).budget).drop (u.reachOf i) := by
  have kept := h.handsKept
  obtain ⟨contexts, blocks, profile⟩ := handsKept_length u i
  have self : (u.handsKept i).ctx i = _ := kept.ctx.trans (handed_ctx h.lt)
  have few : (u.reservedFor i).length ≤ 264 := h.few ▸ State.reservedFor_length_le u i
  have freed := handsKept_fifo queue unmarked (by omega)
  have fifo : (u.handsKept i).pool.fifo = u.pool.fifo ++ (u.reservedFor i).drop (u.profileOf i).budget := by
    rw [freed, State.freeAll_fifo]
    rfl
  have shortfall : (u.handsKept i).pool.shortfall.erase i = [] := by
    rw [freed, State.freeAll_shortfall, show (u.handed i).pool.shortfall = [] from queue]
    rfl
  by_cases hB : (u.profileOf i).budget = 0
  · have ended := searchEnd_gives (s := u.handsKept i) (r := takerHand i u) (by rw [contexts]; exact h.lt) (by rw [self]) rfl shortfall
    have none : (takerHand i u).heldBlocks = [] := by
      rw [takerHand, hB]
      rfl
    rw [none] at ended
    obtain ⟨act, -⟩ := ended (fun _ hb => nomatch hb) (Nat.zero_le _)
    rw [startTaker_search, if_pos hB, act, State.finished, State.notify_pool]
    show ((u.handsKept i).levelled i).pool.fifo = _
    rw [levelled_pool, hB]
    simpa [hB] using fifo
  · have reaches : (u.handsKept i).reachOf i = u.reachOf i := by
      rw [State.reachOf, State.profileOf_congr profile (by rw [self]), State.reachOf]
    have hand : ∀ b ∈ (u.reservedFor i).take (u.profileOf i).budget, b ∈ u.reservedFor i := fun b hb => (List.take_sublist _ _).mem hb
    obtain ⟨given, -⟩ := passStart_pool (v := u.handsKept i) (i := i) (B := min (u.profileOf i).budget (u.reservedFor i).length)
      (X := (u.reservedFor i).take (u.profileOf i).budget) (by rw [self]) (by rw [self]; rfl) (by rw [reaches]; exact reach) shortfall
      ((reservedFor_nodup u i).sublist (List.take_sublist _ _)) (fun b hb => by rw [blocks]; exact State.mem_reservedFor (hand b hb))
      (fun b hb => by rw [kept.blocks b hb]; exact unmarked b (hand b hb)) (by rw [List.length_take]; omega)
    rw [startTaker_search, if_neg hB, given, fifo, reaches]

end Taker

end Sys2Proof.Machine

namespace Sys2Proof.Machine

open Sys2Proof

/-! ## Hand-overs (R21 to R24, R162 to R165) -/

section HandOver

variable {s u : State} {i k f : Nat} {slot : BitVec 7}

theorem handOver_exec (serves : s.profile.station.serves = true) (held : s.lookup slot.toNat = some i) :
    exec (.handOver slot) s = .next (handOver i s) := by
  refine congrArg Host.Outcome.next ((if_pos serves).trans ?_)
  rw [onHeld, held]

theorem State.dueAt_some (h : f ≤ s.frame) : s.dueAt (some f) = true := State.dueAt_iff.2 ⟨f, rfl, h⟩

theorem handOver_starts (stop : (s.ctx i).stopAt = none) (start : (s.ctx i).startAt = some f) (due : f ≤ s.frame) :
    handOver i s = handOverStart i s := by
  have stopped : s.stopped i = s := by
    rw [State.stopped, stop]
    rfl
  rw [handOver_eq, stopped, start, State.dueAt_some due]
  rfl

theorem handOver_stops (stop : (s.ctx i).stopAt = some f) (due : f ≤ s.frame) (start : ((handOverStop i s).ctx i).startAt = none) :
    handOver i s = handOverStop i s := by
  have stopped : s.stopped i = handOverStop i s := by
    rw [State.stopped, stop, State.dueAt_some due]
    rfl
  rw [handOver_eq, stopped, start]
  rfl

/-! ### Serving stops -/

theorem Context.eq_of_unoffered {c d : Context} (h : d.unoffered = c.unoffered) (role : d.role = c.role) (offer : d.offer = c.offer) :
    d = c := by
  have back : ∀ x : Context, { x.unoffered with role := x.role, offer := x.offer } = x := fun _ => rfl
  rw [← back d, h, role, offer, back]

/-- A context whose serving stops (R24). -/
def Context.stoppedServing (c : Context) : Context :=
  { c with callState := .notServing, search := none, serving := none, toneHold := false }

theorem servingStop_ctx (hi : i < u.table.contexts.length) (role : (u.ctx i).role ≠ .homeOffering) :
    (servingStop i u).ctx i = (u.ctx i).stoppedServing := by
  have len := State.outside_contexts (outside_enterPassing i .notServing u)
  have entered : (enterPassing i .notServing u).ctx i = (u.ctx i).passing .notServing := by
    obtain ⟨-, -, kept | ⟨was, -⟩⟩ := (State.Cancels.refl.enterPassing (s := u) i .notServing).parts i
    · exact Context.eq_of_unoffered (enterPassing_ctx hi rfl) kept.1 kept.2
    · exact absurd was role
  unfold servingStop
  dsimp only
  generalize enterPassing i .notServing u = v at entered len
  rw [State.ctx_modCtx_self _ _ _ (by simpa using len ▸ hi)]
  show { v.ctx i with serving := none, toneHold := false } = _
  rw [entered]
  rfl

theorem servingStop_steady_ne (hk : k ≠ i) : ((servingStop i u).ctx k).steady = (u.ctx k).steady := by
  have entered := steady_enterPassing_ne (s := u) (st := .notServing) hk
  unfold servingStop
  dsimp only
  generalize enterPassing i .notServing u = v at entered
  rw [State.ctx_modCtx_ne _ _ _ _ hk.symm]
  exact entered

theorem Context.posting_slot {c d : Context} (h : d.posting = c.posting) : d.slot = c.slot := (congrArg Context.slot h :)

theorem slotOf_of_posting {v : State} (h : (v.ctx i).posting = (u.ctx i).posting) : v.slotOf i = u.slotOf i := by
  rw [State.slotOf, Context.posting_slot h, State.slotOf]

theorem servingStop_pipeline (i : Nat) (u : State) : (servingStop i u).highway.pipeline.getD (u.slotOf i) [] = [] := by
  have slot := slotOf_of_posting (posting_enterPassing (st := .notServing) rfl i i u)
  unfold servingStop
  dsimp only
  rw [slot]
  generalize enterPassing i .notServing u = v
  exact clearPipeline_getD v (u.slotOf i)

theorem servingStop_directory (i : Nat) (u : State) : (servingStop i u).table.directory = u.table.directory := by
  have out := outside_enterPassing i .notServing u
  unfold servingStop
  dsimp only
  generalize enterPassing i .notServing u = v at out
  exact (congrArg (·.1.table.directory) out :)

/-- A home's serving stop at its hand-over frame (R162). -/
theorem handOverStop_home_ctx (hi : i < s.table.contexts.length) (home : (s.ctx i).kind = .home) :
    (handOverStop i s).ctx i = (s.ctx i).handedOver.stoppedServing := by
  have self : ((s.withdraw fun e => e.isOffer (s.slotOf i) || e.isGrant (s.slotOf i)).modCtx i Context.handedOver).ctx i =
      (s.ctx i).handedOver := State.ctx_modCtx_self _ _ _ (by exact hi)
  rw [handOverStop_home home, servingStop_ctx (by simpa using hi) (by rw [self]; exact nofun), self]

theorem handOverStop_steady_ne (hk : k ≠ i) (s : State) : ((handOverStop i s).ctx k).steady = (s.ctx k).steady := by
  cases kind : (s.ctx i).kind with
  | home => rw [handOverStop_home kind, servingStop_steady_ne hk, State.ctx_modCtx_ne _ _ _ _ hk.symm, State.withdraw_ctx]
  | guest => rw [handOverStop_guest kind, freeGuestAt_ctx_ne hk, servingStop_steady_ne hk, State.ctx_modCtx_ne _ _ _ _ hk.symm]

theorem freeGuestAt_highway (i : Nat) (s : State) : (s.freeGuestAt i).highway = s.highway := by
  unfold State.freeGuestAt
  split <;> rfl

theorem freeGuestAt_lookup {n : Nat} (hslot : (s.ctx i).slot = some n) (lt : n < s.table.directory.length) :
    (s.freeGuestAt i).lookup n = none := by
  unfold State.freeGuestAt
  rw [hslot]
  exact State.lookup_setDirectory_self s n none lt

theorem handOverStop_pipeline (i : Nat) (s : State) : (handOverStop i s).highway.pipeline.getD (s.slotOf i) [] = [] := by
  cases kind : (s.ctx i).kind with
  | home =>
    have slot : ((s.withdraw fun e => e.isOffer (s.slotOf i) || e.isGrant (s.slotOf i)).modCtx i Context.handedOver).slotOf i = s.slotOf i :=
      slotOf_modCtx fun _ => rfl
    have empty := servingStop_pipeline i ((s.withdraw fun e => e.isOffer (s.slotOf i) || e.isGrant (s.slotOf i)).modCtx i Context.handedOver)
    rw [slot] at empty
    rw [handOverStop_home kind]
    exact empty
  | guest =>
    have slot : (s.modCtx i fun c => { c with stopAt := none }).slotOf i = s.slotOf i := slotOf_modCtx fun _ => rfl
    have empty := servingStop_pipeline i (s.modCtx i fun c => { c with stopAt := none })
    rw [slot] at empty
    rw [handOverStop_guest kind, freeGuestAt_highway]
    exact empty

/-- A RETURNING guest is free once it has stopped (R164). -/
theorem handOverStop_guest_frees {n : Nat} (hi : i < s.table.contexts.length) (guest : (s.ctx i).kind = .guest)
    (hslot : (s.ctx i).slot = some n) (lt : n < s.table.directory.length) :
    (handOverStop i s).ctx i = freeGuest ∧ (handOverStop i s).lookup n = none := by
  have len : i < (servingStop i (s.modCtx i fun c => { c with stopAt := none })).table.contexts.length := by
    rw [servingStop_length, State.modCtx_contexts_length]
    exact hi
  have self : (s.modCtx i fun c => { c with stopAt := none }).ctx i = { s.ctx i with stopAt := none } := State.ctx_modCtx_self _ _ _ hi
  have slot : ((servingStop i (s.modCtx i fun c => { c with stopAt := none })).ctx i).slot = some n := by
    have same := posting_servingStop i i (s.modCtx i fun c => { c with stopAt := none })
    rw [self] at same
    generalize servingStop i (s.modCtx i fun c => { c with stopAt := none }) = v at same ⊢
    exact (Context.posting_slot same).trans hslot
  rw [handOverStop_guest guest]
  exact ⟨freeGuestAt_ctx len, freeGuestAt_lookup slot (by rw [servingStop_directory]; exact lt)⟩

/-! ### Takers -/

/-- The reserved blocks of a context that does not serve are in nobody else's reach. -/
theorem takingOver_taking (sound : s.poolSound) (hi : i < s.table.contexts.length) (role : (s.ctx i).role.serves = false) (index : Nat) :
    (s.takingOver i index).Taking i := by
  have owns := poolSound_owns (i := i) (H := s.reservedFor i) sound (fun b hb => .inr (reservedFor_state hb).1)
    fun b hb => (reservedFor_state hb).2
  obtain ⟨-, few, -, -, -, -, -, -, -, canTake, -, -, -, passive, -⟩ := sound
  have state := passive i role
  refine ⟨by simpa [State.takingOver] using hi, ⟨owns.fifo, owns.spare, fun k hk b hb => ?_⟩, fun hm => ?_, few⟩
  · rw [State.heldBlocks, takingOver_ctx_ne hk]
    exact owns.held k hk b hb
  · rcases canTake i hm with ⟨search, -⟩ | ⟨track, -⟩
    · rw [state] at search
      cases search
    · rw [state] at track
      cases track

/-- A taker at its hand-over frame is TAKEN, with a call under the offered profile and an empty pipeline (R23, R163). -/
structure State.TakesOver (s : State) (i index : Nat) (t : State) (sv : Serving) : Prop where
  serving : (t.ctx i).serving = some sv
  role : (t.ctx i).role = .taken
  reservation : (t.ctx i).reservation = none
  start : (t.ctx i).startAt = none
  callPresent : sv.callPresent = true
  profile : sv.profile = index
  phase : sv.phase = 0
  pipeline : t.highway.pipeline.getD (s.slotOf i) [] = []
  others : ∀ k, k ≠ i → (t.ctx k).steady = (s.ctx k).steady

theorem startTaker_takesOver (hi : i < s.table.contexts.length) (bypass : Bool) (index : Nat) :
    ∃ sv, s.TakesOver i index (startTaker i bypass (s.takingOver i index)) sv := by
  have same := steady_startTaker bypass i i (s.takingOver i index)
  have others := fun k (hk : k ≠ i) => steady_startTaker bypass i k (s.takingOver i index)
  have highway := State.outside_highway (outside_startTaker i bypass (s.takingOver i index))
  have pipeline := takingOver_pipeline (s := s) (i := i) index
  rw [← highway] at pipeline
  rw [takingOver_ctx hi] at same
  generalize startTaker i bypass (s.takingOver i index) = t at same others pipeline
  obtain ⟨sv, hsv, parts⟩ : ∃ sv, (t.ctx i).serving = some sv ∧ { sv with pathRun := 0 } = { takerParts i index s with pathRun := 0 } :=
    Option.map_eq_some_iff.1 (Context.steady_serving same)
  refine ⟨sv, hsv, Context.role_of_steady (congrArg Context.role same) (by decide), Context.steady_reservation same,
    Context.steady_startAt same, (congrArg Serving.callPresent parts :), (congrArg Serving.profile parts :),
    (congrArg Serving.phase parts :), pipeline, fun k hk => ?_⟩
  rw [others k hk, takingOver_ctx_ne hk]

end HandOver

/-- Settles O48: a stop and a start at a hand-over frame, and the search of a taker on its reserved blocks. -/
theorem handOverTakesEffect : Obligations.HandOverTakesEffect := by
  intro s slot i f serves held hi directory hslot due
  have own : s.slotOf i = slot.toNat := State.slotOf_eq hslot
  have acts := handOver_exec serves held
  refine ⟨fun home stop start => ?handed, fun guest role stop start r hr => ?taken, fun home role stop start => ?again,
    fun role stop start => ?served, fun guest stop start => ?freed⟩
  case handed =>
    have self := handOverStop_home_ctx hi home
    refine ⟨_, acts.trans (congrArg Host.Outcome.next (handOver_stops stop due (by rw [self]; exact start))), ?_⟩
    rw [self]
    refine ⟨rfl, rfl, rfl, rfl, rfl, rfl, rfl, rfl, ?_, rfl, fun k hk => handOverStop_steady_ne hk s⟩
    rw [← own]
    exact handOverStop_pipeline i s
  case taken =>
    have passive : (s.ctx i).role.serves = false := by rw [role]; rfl
    have act := handOver_starts stop start due
    rw [handOverStart_taker passive guest hi, hr] at act
    have reserved : (s.takingOver i r.profile).reservedFor i = s.reservedFor i := rfl
    have profile : (s.takingOver i r.profile).profileOf i = s.profileAt r.profile := by
      rw [State.profileOf, takingOver_ctx hi]
      rfl
    have reaches : (s.takingOver i r.profile).reachOf i = (s.profileAt r.profile).reach := by rw [State.reachOf, profile]
    have slot' : (s.takingOver i r.profile).slotOf i = slot.toNat := by
      rw [State.slotOf, takingOver_ctx hi]
      exact own
    have len : i < (s.takingOver i r.profile).table.contexts.length := by simpa [State.takingOver] using hi
    obtain ⟨sv, takes⟩ := startTaker_takesOver hi ((s.ctx i).transparent || s.profile.station != .run) r.profile
    refine ⟨_, sv, acts.trans (congrArg Host.Outcome.next act), takes.serving, takes.role, takes.reservation, takes.start,
      takes.callPresent, takes.profile, takes.phase, own ▸ takes.pipeline, fun passes => ?_, fun sound => ?_, takes.others⟩
    · have bypass : ((s.ctx i).transparent || s.profile.station != .run) = true := by simpa using passes
      rw [Option.elim, bypass]
      exact startTaker_bypass len
    · have taking := takingOver_taking sound hi passive r.profile
      have reach := reach_pos sound r.profile
      have few : (s.reservedFor i).length ≤ 264 := taking.few ▸ State.reservedFor_length_le s i
      have searching : (s.ctx i).transparent = false ∧ s.profile.station = .run →
          ((s.ctx i).transparent || s.profile.station != .run) = false := fun h => by rw [h.1, h.2]; rfl
      dsimp only [Option.elim]
      refine ⟨fun searches hB => ?_, fun searches hB => ?_, fun queue unmarked => ⟨fun searches => ?_, fun passes => ?_⟩⟩
      · obtain ⟨state, search, bound⟩ := startTaker_searches taking (by rw [profile]; exact hB) (by rw [reaches]; exact reach)
        rw [reaches, profile, reserved] at search
        rw [reaches, profile, reserved, slot'] at bound
        rw [searching searches]
        refine ⟨state, _, search, rfl, rfl, rfl, rfl, rfl, SearchRecord.first_bound _ _ _, rfl, ?_, ?_⟩
        · rw [SearchRecord.first, List.length_take]
        · rw [SearchRecord.first_bound]
          exact fun jb hjb => ⟨(bound jb hjb).state, (bound jb hjb).owner, (bound jb hjb).segment, (bound jb hjb).entries⟩
      · obtain ⟨track, record, search, ended⟩ := startTaker_budgetless taking (by rw [profile]; exact hB)
        rw [searching searches]
        exact ⟨track, record, search, ended.want, ended.map, ended.spare⟩
      · have fifo := startTaker_fifo taking (by rw [reaches]; exact reach) queue unmarked
        rw [reaches, profile, reserved] at fifo
        rw [searching searches]
        exact fifo
      · have bypass : ((s.ctx i).transparent || s.profile.station != .run) = true := by
          by_contra hn
          exact passes (by simpa using hn)
        rw [bypass]
        exact startTaker_bypass_fifo (u := s.takingOver i r.profile) queue unmarked (by rw [reserved]; omega)
  case again =>
    have self := serveAgain_ctx hi
    have act : handOver i s = serveAgain i s := by
      have passive : (s.ctx i).role.serves = false := by rcases role with role | role <;> rw [role] <;> rfl
      rw [handOver_starts stop start due, handOverStart, passive, home]
    refine ⟨_, startedParts i s, acts.trans (congrArg Host.Outcome.next act), ?_⟩
    rw [self]
    refine ⟨rfl, rfl, rfl, rfl, rfl, rfl, rfl, ?_, fun e he => ?_, rfl, fun k hk => ?_⟩
    · show (if ((s.ctx i).transparent || s.profile.station != .run) = true then CallState.bypass else .idle) = _
      exact if_congr (by simp) rfl rfl
    · have kept : e ∈ s.lane.queue.filter fun e => !e.isReclaim (s.slotOf i) := he
      rw [own] at kept
      simpa using (List.mem_filter.1 kept).2
    · rw [serveAgain_eq, servingStart_none_ctx_ne i _ hk, State.ctx_modCtx_ne _ _ _ _ hk.symm, State.withdraw_ctx]
  case served =>
    refine acts.trans (congrArg Host.Outcome.next ?_)
    rw [handOver_starts stop start due, handOverStart, role]
    rfl
  case freed =>
    obtain ⟨self, gone⟩ := handOverStop_guest_frees hi guest hslot (by rw [directory]; exact slot.isLt)
    refine ⟨_, acts.trans (congrArg Host.Outcome.next (handOver_stops stop due (by rw [self]; rfl))), self, gone, ?_,
      fun k hk => handOverStop_steady_ne hk s⟩
    rw [← own]
    exact handOverStop_pipeline i s

end Sys2Proof.Machine

namespace Sys2Proof.Machine

open Sys2Proof

/-! ## Promotion while no context waits (R111) -/

section Promote

variable {s t u : State} {i k b h j : Nat} {o : Owner} {rest : List Nat}

/-- The lowest SPARE block, if there is one. -/
def State.lowestSpare (s : State) : List Nat := (s.blocksWhere fun t => t.state == .spare).take 1

theorem State.lowestSpare_of_length (h : s.pool.blocks.length = 264) :
    s.lowestSpare = ((List.range 264).filter fun a => (s.tapBlock a).state == .spare).take 1 := by
  rw [State.lowestSpare, State.blocksWhere, h]

theorem State.mem_lowestSpare (hb : b ∈ s.lowestSpare) : b < s.pool.blocks.length ∧ (s.tapBlock b).state = .spare := by
  obtain ⟨lt, state⟩ := State.mem_blocksWhere.1 ((List.take_sublist _ _).mem hb)
  exact ⟨lt, by simpa using state⟩

theorem State.lowestSpare_congr (length : t.pool.blocks.length = s.pool.blocks.length)
    (state : ∀ c, ((t.tapBlock c).state == .spare) = ((s.tapBlock c).state == .spare)) : t.lowestSpare = s.lowestSpare := by
  unfold State.lowestSpare State.blocksWhere
  rw [length]
  exact congrArg (List.take 1) (List.filter_congr fun c _ => state c)

/-- `t` is `s` with the lowest SPARE block, if there is one, at the FIFO tail (R111). -/
structure State.Promotes (s t : State) : Prop where
  fifo : t.pool.fifo = s.pool.fifo ++ s.lowestSpare
  shortfall : t.pool.shortfall = []
  stand : ∀ b, b ∉ s.lowestSpare → t.tapBlock b = s.tapBlock b
  freed : ∀ b ∈ s.lowestSpare, (t.tapBlock b).state = .free
  ctx : ∀ k, t.ctx k = s.ctx k
  outside : t.outside = s.outside
  notices : s.OnlyNotices t

theorem perform_promote (queue : s.pool.shortfall = []) : s.Promotes (perform [.promote] s) := by
  have out : (perform [.promote] s).outside = s.outside := outside_perform _ _
  have notices := perform_onlyNotices [.promote] s
  have spares : indicesFrom (fun b => b.state == .spare) 0 s.pool.blocks = s.blocksWhere fun t => t.state == .spare :=
    s.indicesFrom_blocks _
  cases found : s.blocksWhere fun t => t.state == .spare with
  | nil =>
    have none : s.lowestSpare = [] := by rw [State.lowestSpare, found]; rfl
    have task : promoteTask s = (s, []) := by rw [promoteTask, spares, found]
    have act : perform [.promote] s = s := by rw [perform_single (by rw [doTask, task]), doTask, task]
    rw [act] at out notices ⊢
    exact ⟨by rw [none, List.append_nil], queue, fun _ _ => rfl, (by rw [none]; exact fun _ hb => nomatch hb), fun _ => rfl, out,
      notices⟩
  | cons c others =>
    have lowest : s.lowestSpare = [c] := by rw [State.lowestSpare, found]; rfl
    have lt : c < s.pool.blocks.length := (State.mem_lowestSpare (s := s) (by rw [lowest]; exact List.mem_cons_self ..)).1
    have told : (if others = [] then s.notify 6 [(9, s.countBlocks .failed)] else s).pool = s.pool := by
      split
      · exact State.notify_pool s _ _
      · rfl
    have contexts : ∀ k, (if others = [] then s.notify 6 [(9, s.countBlocks .failed)] else s).ctx k = s.ctx k := fun k => by
      split
      · exact State.notify_ctx s _ _ k
      · rfl
    have task : promoteTask s = ((if others = [] then s.notify 6 [(9, s.countBlocks .failed)] else s).freeBlock c, []) := by
      rw [promoteTask, spares, found]
      dsimp only
      rw [placeBlock, told, queue]
    have act : perform [.promote] s = (if others = [] then s.notify 6 [(9, s.countBlocks .failed)] else s).freeBlock c := by
      rw [perform_single (by rw [doTask, task]), doTask, task]
    rw [act] at out notices ⊢
    generalize (if others = [] then s.notify 6 [(9, s.countBlocks .failed)] else s) = u at told contexts out notices
    have read : ∀ b, u.tapBlock b = s.tapBlock b := fun b => by rw [State.tapBlock, told, State.tapBlock]
    refine ⟨?_, ?_, fun b hb => ?_, fun b hb => ?_, fun k => (State.freeBlock_ctx u c k).trans (contexts k), out, notices⟩
    · show u.pool.fifo ++ [c] = _
      rw [told, lowest]
    · show u.pool.shortfall = []
      rw [told, queue]
    · rw [lowest, List.mem_singleton] at hb
      rw [State.tapBlock_freeBlock_ne u c b (Ne.symm hb), read]
    · rw [lowest, List.mem_singleton] at hb
      rw [hb, State.tapBlock_freeBlock, if_pos ⟨rfl, by rw [told]; exact lt⟩]
      rfl

/-! ## Migration (R108) -/

/-- The block that takes a retiring one's place (R108). -/
def TapBlock.migratedFrom (t : TapBlock) (o : Owner) (j : Nat) (u : TapBlock) : TapBlock :=
  { u with state := .assigned, owner := some o, segment := some j, lastSegment := some j, entries := t.entries, wrong := [] }

/-- A block that fails in service (R108 to R110). -/
def TapBlock.failedWith (n : Nat) (t : TapBlock) : TapBlock :=
  { t with state := .failed, segment := t.lastSegment, retirePending := false, corrected := n }

/-- The map of a search with block h on segment j. -/
def SearchRecord.refilled (j h : Nat) (r : SearchRecord) : SearchRecord := { r with map := setFill j (.block h) r.map }

/-- The station as block b has migrated to the FIFO head h, before the promotion (R108, R112). -/
def State.migrated (s : State) (b h : Nat) (rest : List Nat) (o : Owner) (j : Nat) : State :=
  ((((({ s with pool := { s.pool with fifo := rest } }).modBlock h ((s.tapBlock b).migratedFrom o j)).modSearch o.context
    (SearchRecord.refilled j h)).modBlock b (TapBlock.failedWith (s.tapBlock b).corrected)).noticeRetired b 1)

theorem retire_migrates (fifo : s.pool.fifo = h :: rest) (owner : (s.tapBlock b).owner = some o) (segment : (s.tapBlock b).segment = some j) :
    retire b s = perform [.promote] (s.migrated b h rest o j) := by
  unfold retire
  dsimp only
  rw [fifo, owner, segment]
  rfl

theorem retire_marks (fifo : s.pool.fifo = []) : retire b s = s.modBlock b fun t => { t with retirePending := true } := by
  unfold retire
  dsimp only
  rw [fifo]

theorem migrated_tapBlock (hb : b < s.pool.blocks.length) (hh : h < s.pool.blocks.length) (hne : h ≠ b) :
    (s.migrated b h rest o j).tapBlock h = (s.tapBlock b).migratedFrom o j (s.tapBlock h)
      ∧ (s.migrated b h rest o j).tapBlock b = (s.tapBlock b).failedWith (s.tapBlock b).corrected
      ∧ ∀ c, c ≠ h → c ≠ b → (s.migrated b h rest o j).tapBlock c = s.tapBlock c := by
  have reads : ∀ c, (s.migrated b h rest o j).tapBlock c =
      ((({ s with pool := { s.pool with fifo := rest } }).modBlock h ((s.tapBlock b).migratedFrom o j)).modBlock b
        (TapBlock.failedWith (s.tapBlock b).corrected)).tapBlock c := fun c => by
    rw [State.migrated, State.noticeRetired, State.notify_tapBlock]
    rfl
  refine ⟨?_, ?_, fun c hh' hb' => ?_⟩
  · rw [reads, State.tapBlock_modBlock_ne _ _ _ _ hne.symm, State.tapBlock_modBlock_self _ _ _ (by exact hh)]
    rfl
  · rw [reads, State.tapBlock_modBlock_self _ _ _ (by rw [State.modBlock_length]; exact hb), State.tapBlock_modBlock_ne _ _ _ _ hne]
    rfl
  · rw [reads, State.tapBlock_modBlock_ne _ _ _ _ hb'.symm, State.tapBlock_modBlock_ne _ _ _ _ hh'.symm]
    rfl

/-- `t` is `s` with block b, bound to segment j of an owner, migrated to the FIFO head h (R108, R111). -/
structure State.Migrates (s : State) (b h : Nat) (rest : List Nat) (o : Owner) (j : Nat) (t : State) : Prop where
  head : t.tapBlock h = (s.tapBlock b).migratedFrom o j (s.tapBlock h)
  failed : t.tapBlock b = (s.tapBlock b).failedWith (s.tapBlock b).corrected
  fifo : t.pool.fifo = rest ++ s.lowestSpare
  shortfall : t.pool.shortfall = []
  stand : ∀ c, c ≠ h → c ≠ b → c ∉ s.lowestSpare → t.tapBlock c = s.tapBlock c
  ctx : ∀ k, t.ctx k = (s.modSearch o.context (SearchRecord.refilled j h)).ctx k
  outside : t.outside = s.outside

theorem retire_sound (fifo : s.pool.fifo = h :: rest) (owner : (s.tapBlock b).owner = some o) (segment : (s.tapBlock b).segment = some j)
    (assigned : (s.tapBlock b).state = .assigned) (free : (s.tapBlock h).state = .free) (hb : b < s.pool.blocks.length)
    (hh : h < s.pool.blocks.length) (queue : s.pool.shortfall = []) : s.Migrates b h rest o j (retire b s) := by
  have hne : h ≠ b := fun he => by
    rw [he, assigned] at free
    cases free
  obtain ⟨atHead, atBlock, others⟩ := migrated_tapBlock (s := s) (rest := rest) (o := o) (j := j) hb hh hne
  have pool : (s.migrated b h rest o j).pool.fifo = rest ∧ (s.migrated b h rest o j).pool.shortfall = s.pool.shortfall
      ∧ (s.migrated b h rest o j).pool.blocks.length = s.pool.blocks.length := by
    rw [State.migrated, State.noticeRetired, State.notify_pool]
    exact ⟨rfl, rfl, (State.modBlock_length _ _ _).trans (State.modBlock_length _ _ _)⟩
  have ctx : ∀ k, (s.migrated b h rest o j).ctx k = (s.modSearch o.context (SearchRecord.refilled j h)).ctx k := fun k => by
    rw [State.migrated, State.noticeRetired_ctx]
    rfl
  have promotes := perform_promote (s := s.migrated b h rest o j) (by rw [pool.2.1, queue])
  have spare : (s.migrated b h rest o j).lowestSpare = s.lowestSpare := State.lowestSpare_congr pool.2.2 fun c => by
    by_cases hc : c = h
    · rw [hc, atHead, free]
      rfl
    · by_cases hc' : c = b
      · rw [hc', atBlock, assigned]
        rfl
      · rw [others c hc hc']
  have outside := outside_retire b s
  have apart : ∀ c, (s.tapBlock c).state ≠ .spare → c ∉ s.lowestSpare := fun c hc hm => hc (State.mem_lowestSpare hm).2
  rw [retire_migrates fifo owner segment] at outside ⊢
  refine ⟨?_, ?_, by rw [promotes.fifo, pool.1, spare], promotes.shortfall, fun c hh hb hs => ?_,
    fun k => (promotes.ctx k).trans (ctx k), outside⟩
  · rw [promotes.stand h (by rw [spare]; exact apart h (by rw [free]; exact nofun)), atHead]
  · rw [promotes.stand b (by rw [spare]; exact apart b (by rw [assigned]; exact nofun)), atBlock]
  · rw [promotes.stand c (by rw [spare]; exact hs), others c hh hb]

end Promote

/-- Settles O32: without a FREE block the mark, with one the migration to the FIFO head and the promotion behind it. -/
theorem retirementMigratesOrMarks : Obligations.RetirementMigratesOrMarks := by
  intro s b station lt length assigned worn unmarked
  have due : retireDue (s.tapBlock b.toNat) = true := by
    rw [retireDue, assigned, unmarked, decide_eq_true (show Config.retireAt ≤ (s.tapBlock b.toNat).corrected from worn)]
    rfl
  have act : exec (.retirement b) s = .next (retire b.toNat s) :=
    congrArg Host.Outcome.next ((if_neg station).trans (if_pos ⟨lt, due⟩))
  refine ⟨fun fifo => act.trans (congrArg Host.Outcome.next (retire_marks fifo)), fun h rest o j fifo hh free queue owner segment => ?_⟩
  have retires := retire_sound fifo owner segment assigned free (by rw [length]; exact lt) (by rw [length]; exact hh) queue
  refine ⟨_, act, ?_, ?_, ?_, ?_, ?_, ?_, ?_, ?_, ?_, ?_, fun r hr => ?_, fun k hk => ?_, retires.outside, fun k => ?_⟩
  · rw [retires.head]; rfl
  · rw [retires.head]; rfl
  · rw [retires.head]; rfl
  · rw [retires.head]; rfl
  · rw [retires.head]; rfl
  · rw [retires.failed]; rfl
  · rw [retires.failed]; exact owner
  · rw [retires.failed]; rfl
  · rw [retires.failed]; rfl
  · rw [retires.fifo, State.lowestSpare_of_length length]
  · rw [retires.ctx, State.ctx_modSearch_self _ _ _ (lt_of_search hr), hr]
    rfl
  · rw [retires.ctx, State.ctx_modSearch_ne _ _ _ _ hk.symm]
  · rw [retires.ctx, State.steady_modSearch]

end Sys2Proof.Machine

namespace Sys2Proof.Machine

open Sys2Proof

/-! ## Segments unbound (R84) -/

section Unbind

variable {s : State} {i k : Nat} {r : SearchRecord} {gone : List (Nat × Nat)} {g : Nat × Nat → Bool}

/-- A search record with segments unbound, their blocks in the spare hand (R84). -/
def SearchRecord.unbound (r : SearchRecord) (gone : List (Nat × Nat)) : SearchRecord :=
  { r with map := r.map.filter fun e => gone.all fun jb => jb.1 != e.number
           spare := gone.foldl (fun l jb => insertNum jb.2 l) r.spare }

/-- Segments without repeats (R78). -/
def SearchRecord.Distinct (r : SearchRecord) : Prop := (r.map.map (·.number)).Nodup

theorem bound_filter (p : Nat → Bool) (map : List Segment) :
    (map.filter fun e => p e.number).filterMap (fun e => e.block?.map fun b => (e.number, b)) =
      (map.filterMap fun e => e.block?.map fun b => (e.number, b)).filter fun jb => p jb.1 := by
  induction map with
  | nil => rfl
  | cons e map ih =>
    rw [List.filter_cons]
    cases hp : p e.number with
    | false =>
      rw [if_neg nofun, ih]
      cases hb : e.block? <;> simp [hb, hp]
    | true =>
      rw [if_pos rfl, List.filterMap_cons, ih]
      cases hb : e.block? <;> simp [hb, hp]

theorem SearchRecord.bound_fst_sublist (r : SearchRecord) : (r.bound.map (·.1)).Sublist (r.map.map (·.number)) := by
  rw [SearchRecord.bound]
  generalize r.map = map
  induction map with
  | nil => exact .refl _
  | cons e map ih =>
    cases hb : e.block? with
    | none => simpa [hb] using ih.cons _
    | some b => simpa [hb] using ih

theorem SearchRecord.bound_unique (h : r.Distinct) {x y : Nat × Nat} (hx : x ∈ r.bound) (hy : y ∈ r.bound) (he : x.1 = y.1) : x = y := by
  have nodup : (r.bound.map (·.1)).Nodup := h.sublist r.bound_fst_sublist
  exact List.inj_on_of_nodup_map nodup hx hy he

/-- The segments that stay bound. -/
theorem SearchRecord.unbound_bound (h : r.Distinct) : (r.unbound (r.bound.filter g)).bound = r.bound.filter fun jb => !g jb := by
  rw [SearchRecord.bound, SearchRecord.unbound]
  dsimp only
  rw [bound_filter (fun n => (r.bound.filter g).all fun jb => jb.1 != n)]
  refine List.filter_congr fun x hx => ?_
  rw [Bool.eq_iff_iff]
  simp only [List.all_eq_true, List.mem_filter, bne_iff_ne, Bool.not_eq_true']
  refine ⟨fun hall => ?_, fun hg jb ⟨hjb, hg'⟩ he => ?_⟩
  · by_contra hg
    exact hall x ⟨hx, by simpa using hg⟩ rfl
  · rw [SearchRecord.bound_unique h hjb hx he, hg] at hg'
    cases hg'

theorem foldl_insertNum_perm {pairs : List (Nat × Nat)} {l : List Nat} (nodup : (pairs.map (·.2) ++ l).Nodup) :
    (pairs.foldl (fun l jb => insertNum jb.2 l) l).Perm (pairs.map (·.2) ++ l) := by
  induction pairs generalizing l with
  | nil => exact .refl _
  | cons p pairs ih =>
    obtain ⟨fresh, rest⟩ := List.nodup_cons.1 nodup
    have first : (insertNum p.2 l).Perm (p.2 :: l) := insertNum_perm fun hm => fresh (List.mem_append_right _ hm)
    have whole : (pairs.map (·.2) ++ insertNum p.2 l).Perm (p.2 :: (pairs.map (·.2) ++ l)) :=
      (first.append_left _).trans List.perm_middle
    exact (ih (whole.nodup_iff.2 nodup)).trans whole

theorem foldl_insertNum_sorted {pairs : List (Nat × Nat)} {l : List Nat} (h : l.Pairwise (· < ·)) :
    (pairs.foldl (fun l jb => insertNum jb.2 l) l).Pairwise (· < ·) := by
  induction pairs generalizing l with
  | nil => exact h
  | cons p pairs ih => exact ih (insertNum_sorted p.2 h)

theorem perm_sorted_eq {xs ys : List Nat} (hx : xs.Pairwise (· < ·)) (hy : ys.Pairwise (· < ·)) (h : xs.Perm ys) : xs = ys :=
  List.Perm.eq_of_pairwise (fun a _ _ _ h h' => absurd (h.trans h') (lt_irrefl a)) hx hy h

/-- The spare hand after it, as any ascending list of its blocks. -/
theorem SearchRecord.unbound_spare {F : List Nat} (nodup : r.blocks.Nodup) (spare : r.spare.Pairwise (· < ·))
    (perm : F.Perm ((r.bound.filter g).map (·.2) ++ r.spare)) (sorted : F.Pairwise (· < ·)) : (r.unbound (r.bound.filter g)).spare = F := by
  have sub : ((r.bound.filter g).map (·.2) ++ r.spare).Nodup :=
    nodup.sublist ((List.filter_sublist.map _).append (.refl _))
  exact perm_sorted_eq (foldl_insertNum_sorted spare) sorted ((foldl_insertNum_perm sub).trans perm.symm)

/-- Unbinding moves blocks within the search. -/
theorem SearchRecord.unbound_blocks (h : r.Distinct) (nodup : r.blocks.Nodup) : (r.unbound (r.bound.filter g)).blocks.Perm r.blocks := by
  have sub : ((r.bound.filter g).map (·.2) ++ r.spare).Nodup :=
    nodup.sublist ((List.filter_sublist.map _).append (.refl _))
  have spare : (r.unbound (r.bound.filter g)).spare.Perm ((r.bound.filter g).map (·.2) ++ r.spare) := foldl_insertNum_perm sub
  rw [SearchRecord.blocks, SearchRecord.unbound_bound h]
  refine (spare.append_left _).trans ?_
  rw [← List.append_assoc, ← List.map_append]
  refine List.Perm.append_right _ (List.Perm.map _ ?_)
  exact List.perm_append_comm.trans (List.filter_append_perm g r.bound)

theorem unbind_eq (i : Nat) (gone : List (Nat × Nat)) (s : State) :
    unbind i gone s = (gone.foldl (fun s jb => s.reserveBlock i jb.2) s).modSearch i fun r => r.unbound gone := rfl

theorem reserves_eq (l : List (Nat × Nat)) (s : State) : l.foldl (fun s jb => s.reserveBlock i jb.2) s =
    { s with pool := { s.pool with blocks := (l.foldl (fun s jb => s.reserveBlock i jb.2) s).pool.blocks } } := by
  induction l generalizing s with
  | nil => rfl
  | cons x l ih => exact ih (s.reserveBlock i x.2)

theorem reserves_tapBlock (l : List (Nat × Nat)) (s : State) (distinct : (l.map (·.2)).Nodup)
    (inPool : ∀ jb ∈ l, jb.2 < s.pool.blocks.length) :
    (∀ jb ∈ l, (l.foldl (fun s jb => s.reserveBlock i jb.2) s).tapBlock jb.2 = (s.tapBlock jb.2).reservedBy ⟨i, s.slotOf i⟩)
      ∧ ∀ b, (∀ jb ∈ l, jb.2 ≠ b) → (l.foldl (fun s jb => s.reserveBlock i jb.2) s).tapBlock b = s.tapBlock b := by
  have same : ∀ t : State, t.slotOf i = s.slotOf i → l.foldl (fun s jb => s.reserveBlock i jb.2) t =
      l.foldl (fun t jb => t.modBlock jb.2 (TapBlock.reservedBy ⟨i, s.slotOf i⟩)) t := by
    clear distinct inPool
    induction l with
    | nil => exact fun _ _ => rfl
    | cons x l ih =>
      intro t ht
      rw [List.foldl_cons, ih (t.reserveBlock i x.2) ht, List.foldl_cons, State.reserveBlock, ht]
      rfl
  rw [same s rfl]
  exact State.foldl_modBlock (fun _ => TapBlock.reservedBy ⟨i, s.slotOf i⟩) l s distinct inPool

end Unbind

end Sys2Proof.Machine

namespace Sys2Proof.Machine

open Sys2Proof

/-! ## What a pass start makes of a record and of the FIFO (R82, R103) -/

section Passed

variable {s : State} {i k : Nat} {r : SearchRecord} {reach : Nat}

theorem foldl_insertSegment_perm (pairs : List (Nat × Nat)) (m : List Segment) :
    (pairs.foldl (fun m jb => insertSegment (boundSegment jb) m) m).Perm (m ++ pairs.map boundSegment) := by
  induction pairs generalizing m with
  | nil => simp
  | cons p pairs ih =>
    refine (ih _).trans (((insertSegment_perm _ m).append_right _).trans ?_)
    exact List.perm_middle.symm

theorem SearchRecord.passed_bound (r : SearchRecord) (reach : Nat) :
    (r.passed reach).bound.Perm (r.bound ++ (r.unexplored reach).zip r.spare) := by
  refine ((foldl_insertSegment_perm ((r.unexplored reach).zip r.spare) r.map).filterMap _).trans (.of_eq ?_)
  rw [List.filterMap_append, filterMap_bound]
  rfl

theorem mem_foldl_insertNum {pairs : List (Nat × Nat)} {l : List Nat} {j : Nat} :
    j ∈ pairs.foldl (fun e jb => insertNum jb.1 e) l ↔ (∃ jb ∈ pairs, jb.1 = j) ∨ j ∈ l := by
  induction pairs generalizing l with
  | nil => simp
  | cons p pairs ih =>
    rw [List.foldl_cons, ih, Laws.mem_insertNum]
    simp only [List.mem_cons, exists_eq_or_imp]
    constructor
    · rintro (h | rfl | h)
      · exact .inl (.inr h)
      · exact .inl (.inl rfl)
      · exact .inr h
    · rintro ((rfl | h) | h)
      · exact .inr (.inl rfl)
      · exact .inl h
      · exact .inr (.inr h)

/-- What a pass start gives back while no other context waits (R82, R103). -/
theorem passStart_gives (hc : (s.ctx i).callState = .search) (hr : (s.ctx i).search = some r) (hu : r.unexplored (s.reachOf i) ≠ [])
    (alone : s.pool.shortfall.erase i = []) (nodup : r.spare.Nodup) (inPool : ∀ b ∈ r.spare, b < s.pool.blocks.length)
    (few : r.spare.length ≤ 4000) (unmarked : ∀ b ∈ r.spare, (s.tapBlock b).retirePending = false) :
    (perform [.passStart i] s).pool.fifo = s.pool.fifo ++ r.spare.drop (r.unexplored (s.reachOf i)).length := by
  by_cases fits : r.spare.length ≤ (r.unexplored (s.reachOf i)).length
  · rw [perform_passStart_fits hc hr hu fits, List.drop_eq_nil_of_le fits, List.append_nil, State.modSearch_pool, State.bindAll_fifo]
  · have pairs_spare : ∀ jb ∈ (r.unexplored (s.reachOf i)).zip r.spare, jb.2 ∈ r.spare.take (r.unexplored (s.reachOf i)).length :=
      fun jb hjb => by
        rw [← zip_map_snd]
        exact List.mem_map_of_mem hjb
    have distinct : (((r.unexplored (s.reachOf i)).zip r.spare).map (·.2)).Nodup := by
      rw [zip_map_snd]
      exact nodup.sublist (List.take_sublist _ _)
    obtain ⟨-, stand⟩ := State.bindAll_tapBlock (s := s) (i := i) distinct
      fun jb hjb => inPool _ ((List.take_sublist _ _).mem (pairs_spare jb hjb))
    have apart : ∀ b ∈ r.spare.drop (r.unexplored (s.reachOf i)).length, ∀ jb ∈ (r.unexplored (s.reachOf i)).zip r.spare, jb.2 ≠ b :=
      fun b hb jb hjb he => by
        rw [← List.take_append_drop (r.unexplored (s.reachOf i)).length r.spare] at nodup
        exact (List.nodup_append.1 nodup).2.2 jb.2 (pairs_spare jb hjb) b hb he
    rw [perform_passStart_over hc hr hu (Nat.lt_of_not_le fits) alone few
      fun b hb => by rw [stand b (apart b hb)]; exact unmarked b ((List.drop_sublist _ _).mem hb)]
    rw [State.freeAll_fifo, State.leaveShortfall_fifo, State.modSearch_pool, State.bindAll_fifo]

end Passed

/-! ## Evaluations (R84) -/

section Evaluate

variable {s : State} {slot i : Nat} {sv : Serving} {r : SearchRecord} {S : List (Nat × Nat)} {F : List Nat}

/-- A search record with a new retained set (R84). -/
def SearchRecord.retaining (r : SearchRecord) (R : List Nat) : SearchRecord := { r with retained := R }

/-- The segments that the retained set leaves out, with their blocks (R84). -/
def SearchRecord.gone (r : SearchRecord) (R : List Nat) : List (Nat × Nat) := r.bound.filter fun jb => !R.contains jb.1

/-- The station with context i's new retained set made (R84). -/
def State.judged (s : State) (i : Nat) (q : SearchRecord) : State := s.modSearch i fun _ => q

theorem exec_evaluation {slot : BitVec 7} (h : s.servesWith slot.toNat i sv) (hc : (s.ctx i).callState = .search)
    (hr : (s.ctx i).search = some r) (pass : r.status = .inPass) (dwell : 64 ≤ r.dwell) (order : s.significantOrder r S) :
    exec (.evaluation slot) s = .next (nextStep i sv.failed (r.retaining ((S.map (·.1)).take (s.profileOf i).budget))
      (s.judged i (r.retaining ((S.map (·.1)).take (s.profileOf i).budget)))) := by
  have due : evaluationDue (s.ctx i) = true := by
    rw [evaluationDue, hc, hr]
    simp [pass, Config.dwellTop, dwell]
  refine congrArg Host.Outcome.next ((h.onServed evaluateIfDue).trans ((whenDue_of_due h.2.2.2 due).trans ?_))
  unfold evaluate
  rw [hr]
  dsimp only
  rw [judgeSegments_of_order hr order, h.2.2.2]
  rfl

/-- `w` is `s` with context i's record `q`, but for some bound segments unbound (R84). -/
structure State.Unbinds (s : State) (i : Nat) (q : SearchRecord) (gone : List (Nat × Nat)) (w : State) : Prop where
  self : w.ctx i = (s.ctx i).searching (q.unbound gone)
  others : ∀ k, k ≠ i → w.ctx k = s.ctx k
  fifo : w.pool.fifo = s.pool.fifo
  shortfall : w.pool.shortfall = s.pool.shortfall
  length : w.pool.blocks.length = s.pool.blocks.length
  lane : w.lane = s.lane
  taken : ∀ jb ∈ gone, w.tapBlock jb.2 = (s.tapBlock jb.2).reservedBy ⟨i, s.slotOf i⟩
  stand : ∀ b, (∀ jb ∈ gone, jb.2 ≠ b) → w.tapBlock b = s.tapBlock b
  outside : w.outside = s.outside

theorem judged_unbinds {q : SearchRecord} {gone : List (Nat × Nat)} (hr : (s.ctx i).search = some r) (distinct : (gone.map (·.2)).Nodup)
    (inPool : ∀ jb ∈ gone, jb.2 < s.pool.blocks.length) : s.Unbinds i q gone (unbind i gone (s.judged i q)) := by
  have hi := lt_of_search hr
  have judged : (s.judged i q).ctx i = (s.ctx i).searching q := by
    rw [State.judged, State.ctx_modSearch_self _ _ _ hi, hr]
    rfl
  have blocks : ∀ b, (s.judged i q).tapBlock b = s.tapBlock b := fun b => State.modSearch_tapBlock _ _ _ _
  have slot : (s.judged i q).slotOf i = s.slotOf i := slotOf_modCtx fun _ => rfl
  have outside : (unbind i gone (s.judged i q)).outside = s.outside := by simp [State.judged]
  obtain ⟨taken, stand⟩ := reserves_tapBlock (i := i) gone (s.judged i q) distinct inPool
  have form := reserves_eq (i := i) gone (s.judged i q)
  have len : i < (gone.foldl (fun s jb => s.reserveBlock i jb.2) (s.judged i q)).table.contexts.length := by
    rw [form]
    simpa [State.judged] using hi
  have ctx : ∀ k, (gone.foldl (fun s jb => s.reserveBlock i jb.2) (s.judged i q)).ctx k = (s.judged i q).ctx k := fun k => by
    rw [form]
    rfl
  rw [unbind_eq] at outside ⊢
  refine ⟨?_, fun k hk => ?_, ?_, ?_, ?_, ?_, fun jb hjb => ?_, fun b hb => ?_, outside⟩
  · rw [State.ctx_modSearch_self _ _ _ len, ctx, judged]
    rfl
  · rw [State.ctx_modSearch_ne _ _ _ _ hk.symm, ctx]
    exact State.ctx_modSearch_ne _ _ _ _ hk.symm
  · rw [State.modSearch_pool, form]
    rfl
  · rw [State.modSearch_pool, form]
    rfl
  · exact State.outside_blocks outside
  · rw [State.modSearch_lane, form]
    rfl
  · rw [State.modSearch_tapBlock, taken jb hjb, blocks, slot]
  · rw [State.modSearch_tapBlock, stand b hb, blocks]

/-- The blocks of the search stay in its own reach. -/
theorem State.Unbinds.owns {q : SearchRecord} {gone : List (Nat × Nat)} {H : List Nat} {w : State} (h : s.Unbinds i q gone w)
    (owns : s.Owns i H) : w.Owns i H := by
  refine ⟨fun b hb => by rw [h.fifo]; exact owns.fifo b hb, fun b hb => ?_, fun k hk b hb => ?_⟩
  · by_cases taken : ∃ jb ∈ gone, jb.2 = b
    · obtain ⟨jb, hjb, rfl⟩ := taken
      rw [h.taken jb hjb]
      exact nofun
    · rw [h.stand b fun jb hjb he => taken ⟨jb, hjb, he⟩]
      exact owns.spare b hb
  · rw [State.heldBlocks, h.others k hk]
    exact owns.held k hk b hb

theorem State.Unbinds.unmarked {q : SearchRecord} {gone : List (Nat × Nat)} {w : State} (h : s.Unbinds i q gone w) {b : Nat}
    (hb : (s.tapBlock b).retirePending = false) : (w.tapBlock b).retirePending = false := by
  by_cases taken : ∃ jb ∈ gone, jb.2 = b
  · obtain ⟨jb, hjb, rfl⟩ := taken
    rw [h.taken jb hjb]
    exact hb
  · rw [h.stand b fun jb hjb he => taken ⟨jb, hjb, he⟩]
    exact hb

theorem State.Unbinds.reachOf {q : SearchRecord} {gone : List (Nat × Nat)} {w : State} (h : s.Unbinds i q gone w) :
    w.reachOf i = (s.profileOf i).reach := by
  rw [State.reachOf, State.profileOf_congr (State.outside_profile h.outside) (by rw [h.self]; rfl)]

/-- What a sound pool says of a search. -/
structure State.Sound (s : State) (i : Nat) (r : SearchRecord) : Prop where
  distinct : r.Distinct
  spare : r.spare.Pairwise (· < ·)
  nodup : r.blocks.Nodup
  inPool : ∀ b ∈ r.blocks, b < s.pool.blocks.length
  owns : s.Owns i r.blocks
  queue : s.pool.shortfall.Nodup
  few : r.blocks.length ≤ 264

theorem poolSound_sound (sound : s.poolSound) (hr : (s.ctx i).search = some r) : s.Sound i r := by
  have held := State.heldBlocks_of_search hr
  have inPool : ∀ b ∈ r.blocks, b < s.pool.blocks.length := fun b hb => heldBlocks_lt sound (i := i) (held ▸ hb)
  have owns := poolSound_owns_held (i := i) sound
  rw [held] at owns
  obtain ⟨-, few, -, -, -, -, holds, queue, -⟩ := sound
  obtain ⟨⟨⟨distinct, -⟩, -, spare, -⟩, nodup, -⟩ := holds i r hr
  rw [held] at nodup
  exact ⟨distinct, spare, nodup, inPool, owns, queue, length_le_of_nodup nodup fun b hb => few ▸ inPool b hb⟩

end Evaluate

end Sys2Proof.Machine

namespace Sys2Proof.Machine

open Sys2Proof

/-! ## The next pass of an evaluation (R84) -/

section NextPass

variable {s w : State} {i : Nat} {r : SearchRecord} {R F : List Nat}

/-- The record with which an evaluation starts the next pass. -/
def SearchRecord.evaluated (r : SearchRecord) (R : List Nat) : SearchRecord := (r.retaining R).unbound (r.gone R)

theorem SearchRecord.evaluated_bound (h : r.Distinct) (R : List Nat) : (r.evaluated R).bound = r.bound.filter fun jb => R.contains jb.1 := by
  have kept := SearchRecord.unbound_bound (r := r.retaining R) (g := fun jb => !R.contains jb.1) h
  refine kept.trans (List.filter_congr fun jb _ => ?_)
  rw [Bool.not_not]

theorem SearchRecord.mem_evaluated_bound (h : r.Distinct) {jb : Nat × Nat} : jb ∈ (r.evaluated R).bound ↔ jb ∈ r.bound ∧ jb.1 ∈ R := by
  rw [SearchRecord.evaluated_bound h, List.mem_filter, List.contains_iff_mem]

theorem SearchRecord.evaluated_length (h : r.Distinct) (R : List Nat) :
    (r.evaluated R).bound.length = r.bound.length - (r.gone R).length := by
  have both := (List.filter_append_perm (fun jb : Nat × Nat => R.contains jb.1) r.bound).length_eq
  rw [List.length_append] at both
  rw [SearchRecord.evaluated_bound h]
  show _ = r.bound.length - (r.bound.filter fun jb => !R.contains jb.1).length
  omega

theorem SearchRecord.evaluated_spare (nodup : r.blocks.Nodup) (spare : r.spare.Pairwise (· < ·))
    (perm : F.Perm ((r.gone R).map (·.2) ++ r.spare)) (sorted : F.Pairwise (· < ·)) : (r.evaluated R).spare = F :=
  SearchRecord.unbound_spare (r := r.retaining R) nodup spare perm sorted

theorem SearchRecord.evaluated_blocks (h : r.Distinct) (nodup : r.blocks.Nodup) : (r.evaluated R).blocks.Perm r.blocks :=
  SearchRecord.unbound_blocks (r := r.retaining R) h nodup

/-- A search in its next pass, as R82 and R84 leave it. -/
structure State.NextPass (s : State) (i : Nat) (r : SearchRecord) (R U F : List Nat) (t : State) : Prop where
  search : (t.ctx i).search = some ((r.evaluated R).begun (s.profileOf i).reach)
  callState : (t.ctx i).callState = .search
  kept : ∀ jb ∈ r.bound, jb.1 ∈ R → t.tapBlock jb.2 = s.tapBlock jb.2
  bound : ∀ jb ∈ U.zip F, (t.tapBlock jb.2).BoundTo ⟨i, s.slotOf i⟩ jb.1
  fifo : s.pool.shortfall = [] → (∀ b ∈ F, (s.tapBlock b).retirePending = false) → t.pool.fifo = s.pool.fifo ++ F.drop U.length

theorem gone_distinct (sound : s.Sound i r) (R : List Nat) :
    ((r.gone R).map (·.2)).Nodup ∧ ∀ jb ∈ r.gone R, jb.2 < s.pool.blocks.length := by
  have sub : ((r.gone R).map (·.2)).Sublist r.blocks := (List.filter_sublist.map _).trans (List.sublist_append_left _ _)
  exact ⟨sound.nodup.sublist sub, fun jb hjb => sound.inPool jb.2 (sub.mem (List.mem_map_of_mem hjb))⟩

theorem evaluated_passStart (sound : s.Sound i r) (hr : (s.ctx i).search = some r) (hc : (s.ctx i).callState = .search)
    (unbinds : s.Unbinds i (r.retaining R) (r.gone R) w) (perm : F.Perm ((r.gone R).map (·.2) ++ r.spare)) (sorted : F.Pairwise (· < ·))
    (unseen : r.unexplored (s.profileOf i).reach ≠ []) :
    s.NextPass i r R (r.unexplored (s.profileOf i).reach) F (perform [.passStart i] w) := by
  have hi : i < w.table.contexts.length := by
    rw [State.outside_contexts unbinds.outside]
    exact lt_of_search hr
  have record : (w.ctx i).search = some (r.evaluated R) := by rw [unbinds.self]; rfl
  have state : (w.ctx i).callState = .search := by rw [unbinds.self]; exact hc
  have reaches := unbinds.reachOf
  have explored : ∀ n, (r.evaluated R).unexplored n = r.unexplored n := fun _ => rfl
  have spare := SearchRecord.evaluated_spare sound.nodup sound.spare perm sorted
  have blocks := SearchRecord.evaluated_blocks (R := R) sound.distinct sound.nodup
  have slot : w.slotOf i = s.slotOf i := by
    rw [State.slotOf, unbinds.self]
    rfl
  have hand : ∀ b ∈ F, b ∈ r.blocks := fun b hb => blocks.mem_iff.1 (by
    rw [SearchRecord.blocks, spare]
    exact List.mem_append_right _ hb)
  have some_unseen : (r.evaluated R).unexplored (w.reachOf i) ≠ [] := by rw [reaches]; exact unseen
  obtain ⟨own, bound, kept⟩ := passStart_begins (r := r.evaluated R) hi state record some_unseen (blocks.nodup_iff.2 sound.nodup)
    (fun b hb => by rw [unbinds.length]; exact sound.inPool b (hand b (spare ▸ hb)))
    (by rw [unbinds.shortfall]; exact fun hm => (sound.queue.mem_erase_iff.1 hm).1 rfl)
    ((unbinds.owns sound.owns).mono fun b hb => blocks.mem_iff.1 hb)
  rw [reaches, unbinds.self] at own
  rw [reaches, explored, spare, slot] at bound
  refine ⟨Context.unoffered_search own, (Context.unoffered_callState own).trans hc, fun jb hjb hR => ?_, fun jb hjb => ?_,
    fun queue unmarked => ?_⟩
  · rw [kept jb.2 (List.mem_map_of_mem ((SearchRecord.mem_evaluated_bound sound.distinct).2 ⟨hjb, hR⟩)),
      unbinds.stand jb.2 fun x hx he => ?_]
    obtain ⟨hx, out⟩ := List.mem_filter.1 hx
    obtain ⟨bound_nodup, -, -⟩ := List.nodup_append.1 sound.nodup
    have same : x = jb := List.inj_on_of_nodup_map bound_nodup hx hjb he
    rw [same, List.contains_iff_mem.2 hR] at out
    cases out
  · rw [bound jb hjb]
    exact TapBlock.boundTo_boundTo _ _ _
  · have length : F.length ≤ r.blocks.length := by
      rw [← spare, ← blocks.length_eq, SearchRecord.blocks, List.length_append]
      omega
    have few := sound.few
    have given := passStart_gives (r := r.evaluated R) state record some_unseen (by rw [unbinds.shortfall, queue]; rfl)
      (by rw [spare]; exact sorted.imp fun h => Nat.ne_of_lt h)
      (fun b hb => by rw [unbinds.length]; exact sound.inPool b (hand b (spare ▸ hb))) (by rw [spare]; omega)
      (fun b hb => unbinds.unmarked (unmarked b (spare ▸ hb)))
    rw [reaches, explored, spare, unbinds.fifo] at given
    exact given

end NextPass

end Sys2Proof.Machine

namespace Sys2Proof.Machine

open Sys2Proof

/-! ## How many tasks releases set off (log entry 8)

A block released goes into the hand of a context or to the FIFO; only a WAITING search that it reaches starts a pass, which gives up
again no more blocks than its spare hand held before. So releases come to an end well within the tasks taken in one act. -/

section Patience

variable {s t u : State} {k b : Nat}

/-- The spare hand of a WAITING search, counted. -/
def Context.hand (c : Context) : Nat :=
  if c.callState = .search then c.search.elim 0 fun r => if r.status = .waiting then r.spare.length else 0 else 0

/-- A context waits only if it did before, with the same segments explored and no larger hand. -/
def Context.Patient (c d : Context) : Prop :=
  ∀ r', d.callState = .search → d.search = some r' → r'.status = .waiting →
    c.callState = .search ∧ ∃ r, c.search = some r ∧ r.status = .waiting ∧ r.explored = r'.explored ∧ r'.spare.length ≤ r.spare.length

theorem Context.Patient.refl (c : Context) : c.Patient c := fun r hc hr waits => ⟨hc, r, hr, waits, rfl, Nat.le_refl _⟩

theorem Context.Patient.of_eq {c d : Context} (state : d.callState = c.callState) (search : d.search = c.search) : c.Patient d :=
  fun r hc hr waits => ⟨state.symm.trans hc, r, search.symm.trans hr, waits, rfl, Nat.le_refl _⟩

theorem Context.Patient.hand_le {c d : Context} (h : c.Patient d) : d.hand ≤ c.hand := by
  by_cases hd : d.callState = .search
  · cases hr : d.search with
    | none =>
      rw [Context.hand, if_pos hd, hr]
      exact Nat.zero_le _
    | some r' =>
      by_cases waits : r'.status = .waiting
      · obtain ⟨hc, r, hr', waits', -, le⟩ := h r' hd hr waits
        rw [Context.hand, if_pos hd, hr, Context.hand, if_pos hc, hr']
        simpa [waits, waits'] using le
      · rw [Context.hand, if_pos hd, hr]
        simp [waits]
  · rw [Context.hand, if_neg hd]
    exact Nat.zero_le _

/-- The hands of all WAITING searches. -/
def State.hands (s : State) : Nat := ∑ k ∈ Finset.range s.table.contexts.length, (s.ctx k).hand

/-- Every WAITING search has a segment to explore (R84). -/
def State.Explores (s : State) : Prop :=
  ∀ k r, (s.ctx k).callState = .search → (s.ctx k).search = some r → r.status = .waiting → r.unexplored (s.reachOf k) ≠ []

theorem hands_le (length : t.table.contexts.length = s.table.contexts.length) (h : ∀ k, (s.ctx k).Patient (t.ctx k)) : t.hands ≤ s.hands := by
  rw [State.hands, State.hands, length]
  exact Finset.sum_le_sum fun k _ => (h k).hand_le

/-- A context whose hand is gone. -/
theorem hands_drop (length : t.table.contexts.length = s.table.contexts.length) (hk : k < s.table.contexts.length)
    (h : ∀ j, j ≠ k → (s.ctx j).Patient (t.ctx j)) (none : (t.ctx k).hand = 0) : t.hands + (s.ctx k).hand ≤ s.hands := by
  have mem : k ∈ Finset.range s.table.contexts.length := Finset.mem_range.2 hk
  rw [State.hands, State.hands, length, ← Finset.add_sum_erase _ _ mem, ← Finset.add_sum_erase _ (fun k => (s.ctx k).hand) mem, none]
  have rest := Finset.sum_le_sum (s := (Finset.range s.table.contexts.length).erase k)
    (f := fun k => (t.ctx k).hand) (g := fun k => (s.ctx k).hand) fun j hj => (h j (Finset.ne_of_mem_erase hj)).hand_le
  omega

theorem Explores_of_patient (reach : t.reachOf k = s.reachOf k) (h : (s.ctx k).Patient (t.ctx k)) (explores : s.Explores) :
    ∀ r, (t.ctx k).callState = .search → (t.ctx k).search = some r → r.status = .waiting → r.unexplored (t.reachOf k) ≠ [] :=
  fun r' hc hr waits => by
    obtain ⟨hc', r, hr', waits', explored, -⟩ := h r' hc hr waits
    have unseen := explores k r hc' hr' waits'
    rw [SearchRecord.unexplored, explored] at unseen
    rw [reach]
    exact unseen

/-! ### One release -/

/-- What a release does: no context waits more than before, with a check of its want at most; or a WAITING search starts its pass. -/
inductive State.Placed (s : State) (out : State × List Task) : Prop
  | quiet (patient : ∀ k, (s.ctx k).Patient (out.1.ctx k)) (tasks : out.2 = [] ∨ ∃ k, out.2 = [.checkMet k]) : s.Placed out
  | starts (k c : Nat) (r : SearchRecord) (state : (s.ctx k).callState = .search) (search : (s.ctx k).search = some r)
      (waits : r.status = .waiting) (own : out.1.ctx k = (s.ctx k).searching { r with spare := insertNum c r.spare })
      (others : ∀ j, j ≠ k → out.1.ctx j = s.ctx j) (tasks : out.2 = [.passStart k, .checkMet k]) : s.Placed out

theorem State.Placed.of_same {out : State × List Task} (h : u.Placed out) (same : ∀ k, u.ctx k = s.ctx k) : s.Placed out := by
  cases h with
  | quiet patient tasks => exact .quiet (fun k => same k ▸ patient k) tasks
  | starts k c r state search waits own others tasks =>
    exact .starts k c r (same k ▸ state) (same k ▸ search) waits (same k ▸ own) (fun j hj => same j ▸ others j hj) tasks

theorem placeBlock_placed (b : Nat) (s : State) : s.Placed (placeBlock b s) := by
  have frees : s.Placed (s.freeBlock b, []) :=
    .quiet (fun k => .of_eq (by rw [State.freeBlock_ctx]) (by rw [State.freeBlock_ctx])) (.inl rfl)
  unfold placeBlock
  split
  · exact frees
  · next h _ _ =>
    split
    · next r hc hr =>
      have hi := lt_of_search hr
      have own : ((s.reserveBlock h b).modSearch h fun r => { r with spare := insertNum b r.spare }).ctx h =
          (s.ctx h).searching { r with spare := insertNum b r.spare } := by
        rw [State.ctx_modSearch_self _ _ _ (by simpa using hi), State.reserveBlock_ctx, hr]
        rfl
      have others : ∀ j, j ≠ h → ((s.reserveBlock h b).modSearch h fun r => { r with spare := insertNum b r.spare }).ctx j = s.ctx j :=
        fun j hj => by rw [State.ctx_modSearch_ne _ _ _ _ hj.symm, State.reserveBlock_ctx]
      cases status : r.status with
      | waiting => exact .starts h b r hc hr status own others rfl
      | inPass =>
        refine .quiet (fun k => ?_) (.inr ⟨h, rfl⟩)
        by_cases hk : k = h
        · rw [hk]
          dsimp only
          rw [own]
          intro r' _ hr' waits
          obtain rfl := Option.some.inj hr'
          exact absurd (status.symm.trans waits) nofun
        · exact .of_eq (by dsimp only; rw [others k hk]) (by dsimp only; rw [others k hk])
    · next r hc hr =>
      split
      · next j _ =>
        refine .quiet (fun k => ?_) (.inl rfl)
        by_cases hk : k = h
        · have state : ((((s.bindBlock h j b).modSearch h fun r => { r with map := setFill j (.block b) r.map }).leaveIfMet h).ctx h).callState
              = .track := by
            rw [callState_leaveIfMet, callState_modSearch, State.bindBlock_ctx, hc]
          rw [hk]
          exact fun r' hs => absurd (state.symm.trans hs) nofun
        · have same : (((s.bindBlock h j b).modSearch h fun r => { r with map := setFill j (.block b) r.map }).leaveIfMet h).ctx k = s.ctx k := by
            rw [State.ctx_leaveIfMet_ne _ _ _ (Ne.symm hk), State.ctx_modSearch_ne _ _ _ _ (Ne.symm hk), State.bindBlock_ctx]
          exact .of_eq (by dsimp only; rw [same]) (by dsimp only; rw [same])
      · exact frees
    · exact frees

theorem releaseTask_placed (b : Nat) (s : State) : s.Placed (releaseTask b s) := by
  unfold releaseTask
  split
  · refine State.Placed.of_same (u := (s.failBlock b (s.tapBlock b).corrected).noticeRetired b 2) ?_ fun k => by
      rw [State.noticeRetired_ctx]
      rfl
    generalize (s.failBlock b (s.tapBlock b).corrected).noticeRetired b 2 = u
    unfold promoteTask
    split
    · exact .quiet (fun k => .refl _) (.inl rfl)
    · refine (placeBlock_placed _ _).of_same fun k => ?_
      split
      · exact State.notify_ctx _ _ _ _
      · rfl
  · exact placeBlock_placed b s

/-! ### Releases to their end -/

/-- Releases and checks of wants: what releases set off behind the pass starts. -/
def Task.plain : Task → Prop
  | .release _ | .checkMet _ => True
  | _ => False

/-- A bound for the tasks that a task sets off, itself counted, but for the blocks of WAITING hands. -/
def Task.cost : Task → Nat
  | .release _ => 3
  | _ => 1

def Task.costs (ts : List Task) : Nat := (ts.map Task.cost).sum

theorem Task.costs_append (us ts : List Task) : Task.costs (us ++ ts) = Task.costs us + Task.costs ts := by
  rw [Task.costs, List.map_append, List.sum_append]
  rfl

theorem Task.costs_releases (bs : List Nat) : Task.costs (bs.map .release) = 3 * bs.length := by
  induction bs with
  | nil => rfl
  | cons b bs ih =>
    have step : Task.costs ((b :: bs).map .release) = 3 + Task.costs (bs.map .release) := rfl
    rw [step, ih, List.length_cons]
    omega

theorem State.unoffered_leaveIfMet (s : State) (i k : Nat) : ((s.leaveIfMet i).ctx k).unoffered = (s.ctx k).unoffered := by
  unfold State.leaveIfMet
  split
  · exact State.unoffered_leaveShortfall s i k
  · rfl

theorem reachOf_doTask (t : Task) (s : State) (k : Nat) : (doTask t s).1.reachOf k = s.reachOf k := by
  have out := outside_doTask t s
  rw [State.reachOf, profileOf_of_steady (State.outside_profile out) (steady_doTask t s k), State.reachOf]

theorem contexts_doTask (t : Task) (s : State) : (doTask t s).1.table.contexts.length = s.table.contexts.length := by
  have out := outside_doTask t s
  exact State.outside_contexts out

theorem doTask_started {v : State} {r : SearchRecord} (hc : (v.ctx k).callState = .search) (hr : (v.ctx k).search = some r)
    (hu : r.unexplored (v.reachOf k) ≠ []) : ∃ rest : List Nat, (doTask (.passStart k) v).2 = rest.map .release
      ∧ rest.length ≤ r.spare.length - 1 ∧ ∃ r', ((doTask (.passStart k) v).1.ctx k).search = some r' ∧ r'.status = .inPass := by
  have some_unseen := List.length_pos_iff.2 hu
  have self : ∀ r', ((v.bindAll k ((r.unexplored (v.reachOf k)).zip r.spare)).modSearch k fun _ => r').ctx k = (v.ctx k).searching r' :=
    fun r' => by
      rw [State.ctx_modSearch_self _ _ _ (by rw [State.bindAll_table]; exact lt_of_search hr), State.bindAll_ctx, hr]
      rfl
  rw [doTask, passStartTask_eq hc hr hu]
  dsimp only
  split
  · refine ⟨[], rfl, Nat.zero_le _, r.passed (v.reachOf k), ?_, rfl⟩
    rw [self]
    rfl
  · refine ⟨_, rfl, by rw [List.length_drop]; omega, { r.passed (v.reachOf k) with want := (r.passed (v.reachOf k)).bound.length }, ?_, rfl⟩
    rw [Context.unoffered_search (State.unoffered_leaveShortfall _ k k), self]
    rfl

/-- The pass start that a delivered block sets off gives up no more blocks than the hand held before. -/
theorem passStart_delivered {v : State} {r : SearchRecord} {c : Nat} (state : (s.ctx k).callState = .search) (search : (s.ctx k).search = some r)
    (waits : r.status = .waiting) (explores : s.Explores) (reach : ∀ j, v.reachOf j = s.reachOf j)
    (contexts : v.table.contexts.length = s.table.contexts.length)
    (own : v.ctx k = (s.ctx k).searching { r with spare := insertNum c r.spare }) (others : ∀ j, j ≠ k → v.ctx j = s.ctx j) :
    ∃ rest : List Nat, (doTask (.passStart k) v).2 = rest.map .release ∧ (doTask (.passStart k) v).1.Explores
      ∧ rest.length + (doTask (.passStart k) v).1.hands ≤ s.hands := by
  have unseen : ({ r with spare := insertNum c r.spare } : SearchRecord).unexplored (v.reachOf k) ≠ [] := by
    rw [reach]
    exact explores k r state search waits
  have hand : (s.ctx k).hand = r.spare.length := by
    rw [Context.hand, if_pos state, search]
    simp [waits]
  have patient : ∀ j, j ≠ k → (s.ctx j).Patient ((doTask (.passStart k) v).1.ctx j) := fun j hj => by
    rw [doTask_ctx_ne (t := .passStart k) rfl hj.symm, others j hj]
    exact .refl _
  have len : (doTask (.passStart k) v).1.table.contexts.length = s.table.contexts.length := (contexts_doTask _ v).trans contexts
  have reach' : ∀ j, (doTask (.passStart k) v).1.reachOf j = s.reachOf j := fun j => (reachOf_doTask _ v j).trans (reach j)
  have young := doTask_started (k := k) (v := v) (r := { r with spare := insertNum c r.spare }) (by rw [own]; exact state) (by rw [own]; rfl) unseen
  obtain ⟨rest, tasks, few, r', record, inPass⟩ := young
  have none : ((doTask (.passStart k) v).1.ctx k).hand = 0 := by
    rw [Context.hand, record]
    simp [inPass]
  have dropped := hands_drop len (lt_of_search search) patient none
  have inserted := insertNum_length_le c r.spare
  dsimp only at few
  refine ⟨rest, tasks, fun j r'' hc hr hw => ?_, ?_⟩
  · by_cases hj : j = k
    · rw [hj, record] at hr
      obtain rfl := Option.some.inj hr
      exact absurd (inPass.symm.trans hw) nofun
    · exact Explores_of_patient (reach' j) (patient j hj) explores r'' hc hr hw
  · omega

/-- Tasks that set off no more than `m` others come to an end within `m` steps, and the tasks behind them are taken. -/
theorem runTasks_settle {P : State → Prop} (step : ∀ t s, P s → P (doTask t s).1) (m : Nat) : ∀ {s : State} {us : List Task} (ts : List Task)
    (fuel : Nat), P s → s.Explores → (∀ t ∈ us, t.plain) → Task.costs us + 3 * s.hands ≤ m → m ≤ fuel →
    ∃ s' fuel', fuel ≤ fuel' + m ∧ runTasks fuel (us ++ ts) s = runTasks fuel' ts s' ∧ P s' := by
  induction m using Nat.strong_induction_on with
  | _ m ih =>
    intro s us ts fuel hP explores plain cost enough
    cases us with
    | nil => exact ⟨s, fuel, Nat.le_add_right _ _, rfl, hP⟩
    | cons t us =>
      have later : ∀ u ∈ us, u.plain := fun u hu => plain u (List.mem_cons_of_mem _ hu)
      have total : Task.costs (t :: us) = t.cost + Task.costs us := rfl
      rw [total] at cost
      cases t with
      | checkMet k =>
        have one : Task.cost (.checkMet k) = 1 := rfl
        rw [one] at cost
        obtain ⟨f, rfl⟩ : ∃ f, fuel = f + 1 := ⟨fuel - 1, by omega⟩
        have patient : ∀ j, (s.ctx j).Patient ((doTask (.checkMet k) s).1.ctx j) := fun j => by
          have left := State.unoffered_leaveIfMet s k j
          exact .of_eq (Context.unoffered_callState left) (Context.unoffered_search left)
        have hands := hands_le (contexts_doTask (.checkMet k) s) patient
        obtain ⟨s', fuel', le, run, done⟩ := ih (m - 1) (by omega) (s := (doTask (.checkMet k) s).1) ts f (step _ _ hP)
          (fun j r => Explores_of_patient (reachOf_doTask _ s j) (patient j) explores r) later (by omega) (by omega)
        exact ⟨s', fuel', by omega, run, done⟩
      | release b =>
        have three : Task.cost (.release b) = 3 := rfl
        rw [three] at cost
        cases releaseTask_placed b s with
        | quiet patient tasks =>
          obtain ⟨f, rfl⟩ : ∃ f, fuel = f + 1 := ⟨fuel - 1, by omega⟩
          have hands := hands_le (contexts_doTask (.release b) s) patient
          have off : Task.costs ((releaseTask b s).2 ++ us) ≤ 1 + Task.costs us ∧ ∀ u ∈ (releaseTask b s).2 ++ us, u.plain := by
            rcases tasks with none | ⟨k, one⟩
            · rw [none]
              exact ⟨Nat.le_add_left _ _, later⟩
            · rw [one]
              exact ⟨Nat.le_refl _, fun u hu => (List.mem_cons.1 hu).elim (fun h => h ▸ trivial) (later u)⟩
          obtain ⟨s', fuel', le, run, done⟩ := ih (m - 1) (by omega) (s := (doTask (.release b) s).1) ts f (step _ _ hP)
            (fun j r => Explores_of_patient (reachOf_doTask (.release b) s j) (patient j) explores r) off.2
            (by have := off.1; omega) (by omega)
          refine ⟨s', fuel', by omega, ?_, done⟩
          rw [← run, List.cons_append, runTasks, List.append_assoc]
          rfl
        | starts k c r state search waits own others tasks =>
          obtain ⟨f, rfl⟩ : ∃ f, fuel = f + 2 := ⟨fuel - 2, by omega⟩
          obtain ⟨rest, started, explores', hands⟩ := passStart_delivered (v := (doTask (.release b) s).1) state search waits explores
            (fun j => reachOf_doTask _ s j) (contexts_doTask _ s) own others
          have off : Task.costs (rest.map .release ++ .checkMet k :: us) = 3 * rest.length + (1 + Task.costs us) := by
            rw [Task.costs_append, Task.costs_releases]
            rfl
          obtain ⟨s', fuel', le, run, done⟩ := ih (m - 2) (by omega) (s := (doTask (.passStart k) (doTask (.release b) s).1).1)
            (us := rest.map .release ++ .checkMet k :: us) ts f (step _ _ (step _ _ hP)) explores'
            (fun u hu => (List.mem_append.1 hu).elim (fun hu => by
                obtain ⟨c, -, rfl⟩ := List.mem_map.1 hu
                trivial)
              fun hu => (List.mem_cons.1 hu).elim (fun h => h ▸ trivial) (later u)) (by omega) (by omega)
          refine ⟨s', fuel', by omega, ?_, done⟩
          rw [← run, List.cons_append, runTasks]
          rw [show (doTask (.release b) s).2 = [.passStart k, .checkMet k] from tasks, List.cons_append, runTasks, started,
            List.append_assoc]
          rfl
      | promote => exact (plain _ (List.mem_cons_self ..)).elim
      | passStart k => exact (plain _ (List.mem_cons_self ..)).elim
      | searchEnd k => exact (plain _ (List.mem_cons_self ..)).elim
      | finishSearch k => exact (plain _ (List.mem_cons_self ..)).elim

/-! ### The hands of a sound pool -/

/-- The blocks in context k's spare hand. -/
def State.handSet (s : State) (k : Nat) : Finset Nat := (s.ctx k).search.elim ∅ fun r => r.spare.toFinset

theorem mem_handSet (h : b ∈ s.handSet k) : b ∈ s.heldBlocks k := by
  unfold State.handSet at h
  cases hr : (s.ctx k).search with
  | none =>
    rw [hr] at h
    exact absurd h (Finset.notMem_empty b)
  | some r =>
    rw [hr] at h
    rw [State.heldBlocks_of_search hr]
    exact List.mem_append_right _ (List.mem_toFinset.1 h)

theorem hand_le_card (sound : s.poolSound) (k : Nat) : (s.ctx k).hand ≤ (s.handSet k).card := by
  unfold State.handSet
  cases hr : (s.ctx k).search with
  | none =>
    rw [Context.hand, hr]
    split <;> exact Nat.zero_le _
  | some r =>
    have nodup : r.spare.Nodup := (poolSound_sound sound hr).spare.imp fun h => Nat.ne_of_lt h
    rw [Context.hand, hr]
    dsimp only [Option.elim]
    rw [List.toFinset_card_of_nodup nodup]
    split
    · split
      · exact Nat.le_refl _
      · exact Nat.zero_le _
    · exact Nat.zero_le _

/-- The hands of a sound pool hold distinct blocks, so there are no more than the pool has. -/
theorem hands_le_of_sound (sound : s.poolSound) : s.hands ≤ 264 := by
  have disjoint : ((Finset.range s.table.contexts.length : Finset Nat) : Set Nat).PairwiseDisjoint s.handSet := fun j _ k _ hne =>
    Finset.disjoint_left.2 fun b hj hk =>
      hne (Option.some.inj ((heldBlocks_owner sound (mem_handSet hj)).symm.trans (heldBlocks_owner sound (mem_handSet hk))))
  have inPool : (Finset.range s.table.contexts.length).biUnion s.handSet ⊆ Finset.range 264 := fun b hb => by
    obtain ⟨k, -, hk⟩ := Finset.mem_biUnion.1 hb
    exact Finset.mem_range.2 (sound.2.1 ▸ heldBlocks_lt sound (mem_handSet hk))
  calc s.hands ≤ ∑ k ∈ Finset.range s.table.contexts.length, (s.handSet k).card := Finset.sum_le_sum fun k _ => hand_le_card sound k
    _ = ((Finset.range s.table.contexts.length).biUnion s.handSet).card := (Finset.card_biUnion disjoint).symm
    _ ≤ (Finset.range 264).card := Finset.card_le_card inPool
    _ = 264 := Finset.card_range 264

theorem explores_of_sound (sound : s.poolSound) : s.Explores := by
  intro k r hc hr waits
  obtain ⟨-, -, -, -, -, -, holds, -⟩ := sound
  obtain ⟨⟨-, -, -, search, -⟩, -⟩ := holds k r hr
  exact (search hc).2 waits

end Patience

end Sys2Proof.Machine

namespace Sys2Proof.Machine

open Sys2Proof

/-! ## Search ends while other contexts wait (R85, R88, R103) -/

section Rests

variable {s w : State} {i : Nat} {r : SearchRecord}

theorem modCtx_modCtx (s : State) (i : Nat) (f g : Context → Context) : (s.modCtx i f).modCtx i g = s.setCtx i (g (f (s.ctx i))) := by
  have twice : ∀ c d : Context, (s.setCtx i c).setCtx i d = s.setCtx i d := fun c d =>
    congrArg (fun l => ({ s with table := { s.table with contexts := l } } : State)) (List.set_set ..)
  by_cases hi : i < s.table.contexts.length
  · have self : (s.modCtx i f).ctx i = f (s.ctx i) := State.ctx_modCtx_self _ _ _ hi
    exact (congrArg (fun c => (s.modCtx i f).setCtx i (g c)) self).trans (twice _ _)
  · have out : ∀ (u : State) (c : Context), u.table.contexts.length ≤ i → u.setCtx i c = u := fun u c h =>
      congrArg (fun l => ({ u with table := { u.table with contexts := l } } : State)) (List.set_eq_of_length_le h)
    have le := Nat.le_of_not_lt hi
    rw [State.modCtx, State.modCtx, out s (f (s.ctx i)) le, out s _ le, out s _ le]

theorem levelled_patient (hi : i < w.table.contexts.length) (hr : (w.ctx i).search = some r) (k : Nat) :
    (w.ctx k).Patient ((w.levelled i).ctx k) := by
  by_cases hk : k = i
  · subst hk
    intro r' hc
    rw [Context.unoffered_callState (levelled_ctx hi hr)] at hc
    cases hc
  · have same : (w.levelled i).ctx k = w.ctx k := by
      unfold State.levelled
      rw [State.ctx_toTrack_ne _ _ _ (Ne.symm hk), State.ctx_modSearch_ne _ _ _ _ (Ne.symm hk), State.ctx_leaveShortfall_ne _ _ _ (Ne.symm hk),
        State.ctx_modSearch_ne _ _ _ _ (Ne.symm hk)]
    rw [same]
    exact .refl _

/-- A search end with nothing retained comes to its last step, whoever takes the blocks given up (R88, R103). -/
theorem searchEnd_rests (hr : (w.ctx i).search = some r) (hn : r.retained = []) (explores : w.Explores) (hands : w.hands ≤ 264)
    (few : r.heldBlocks.length ≤ 264) :
    ((perform [.searchEnd i] w).ctx i).callState = .track
      ∧ ∃ r', ((perform [.searchEnd i] w).ctx i).search = some r' ∧ r'.Ended r.pass r.explored ∧ r'.dwell = 0 := by
  have hi := lt_of_search hr
  have patient := levelled_patient hi hr
  have contexts : (w.levelled i).table.contexts.length = w.table.contexts.length := State.outside_contexts (outside_levelled w i)
  have reach : ∀ k, (w.levelled i).reachOf k = w.reachOf k := fun k => by
    rw [State.reachOf, profileOf_of_steady (State.outside_profile (outside_levelled w i)) (by simp [State.levelled]), State.reachOf]
  have lessHands := hands_le contexts patient
  obtain ⟨u, fuel, le, run, ended⟩ := runTasks_settle (P := fun u => (u.ctx i).Ended r.pass r.explored)
    (fun t _ h => doTask_ended t h) 1584 (s := w.levelled i) (us := r.heldBlocks.map .release) [.finishSearch i] 4095
    (Context.Ended.of_unoffered (c := { w.ctx i with callState := .track, search := some r.levelled })
      ⟨rfl, r.levelled, rfl, rfl, hn, rfl, rfl, rfl, rfl⟩ (levelled_ctx hi hr))
    (fun k r' => Explores_of_patient (reach k) (patient k) explores r')
    (fun t ht => by
      obtain ⟨b, -, rfl⟩ := List.mem_map.1 ht
      trivial)
    (by rw [Task.costs_releases]; omega) (by omega)
  obtain ⟨f, rfl⟩ : ∃ f, fuel = f + 1 := ⟨fuel - 1, by omega⟩
  obtain ⟨track, q, search, record⟩ := ended
  have len := lt_of_search search
  have task := finishSearchTask_levelled len search record.want record.map
  have self := finished_ctx len search 0 0
  rw [perform_searchEnd_levelled hr hn, run, runTasks, doTask, task, List.append_nil, runTasks_nil, self]
  exact ⟨track, _, rfl, ⟨record.want, record.retained, record.map, record.spare, record.pass, record.explored⟩, rfl⟩

/-- So does one with some of its segments unbound before (R84, R94). -/
theorem unbound_rests {gone : List (Nat × Nat)} {q : SearchRecord} (sound : s.poolSound) (unbinds : s.Unbinds i q gone w) (pass : q.status = .inPass)
    (hn : q.retained = []) (few : (q.unbound gone).heldBlocks.length ≤ 264) :
    ((perform [.searchEnd i] w).ctx i).callState = .track
      ∧ ∃ r', ((perform [.searchEnd i] w).ctx i).search = some r' ∧ r'.Ended q.pass q.explored ∧ r'.dwell = 0 := by
  have search : (w.ctx i).search = some (q.unbound gone) := by rw [unbinds.self]; rfl
  have patient : ∀ k, (s.ctx k).Patient (w.ctx k) := fun k => by
    by_cases hk : k = i
    · intro r' _ hr' waits
      rw [hk, search] at hr'
      obtain rfl := Option.some.inj hr'
      exact absurd (pass.symm.trans waits) nofun
    · rw [unbinds.others k hk]
      exact .refl _
  have reach : ∀ k, w.reachOf k = s.reachOf k := fun k => by
    by_cases hk : k = i
    · rw [hk, unbinds.reachOf, State.reachOf]
    · rw [State.reachOf, State.profileOf_congr (State.outside_profile unbinds.outside) (by rw [unbinds.others k hk]), State.reachOf]
  have hands := hands_le (State.outside_contexts unbinds.outside) patient
  have whole := hands_le_of_sound sound
  exact searchEnd_rests (r := q.unbound gone) search hn
    (fun k r' => Explores_of_patient (reach k) (patient k) (explores_of_sound sound) r') (by omega) few

/-- The four ways an evaluation goes on (R84). -/
theorem nextStep_judged (s : State) (i : Nat) (failed : List Nat) (r : SearchRecord) (R : List Nat) :
    nextStep i failed (r.retaining R) (s.judged i (r.retaining R)) =
      if r.unexplored (s.profileOf i).reach = [] then
        perform [.searchEnd i] (unbind i ((r.gone R).filter fun jb => failed.contains jb.1) (s.judged i (r.retaining R)))
      else if r.gone R ≠ [] ∨ r.spare ≠ [] then perform [.passStart i] (unbind i (r.gone R) (s.judged i (r.retaining R)))
      else if s.pool.shortfall.contains i then
        (s.judged i (r.retaining R)).modSearch i fun r => { r with status := .waiting, dwell := 0 }
      else perform [.searchEnd i] (unbind i ((r.gone R).filter fun jb => failed.contains jb.1) (s.judged i (r.retaining R))) := by
  have profile : (s.judged i (r.retaining R)).profileOf i = s.profileOf i := profileOf_modCtx fun _ => rfl
  unfold nextStep
  rw [State.reachOf, profile]
  rfl

end Rests

/-- Settles O39: the next pass on the blocks that move, the wait for one, or the level-only end. -/
theorem evaluationNextStep : Obligations.EvaluationNextStep := by
  intro s slot i sv r S F h hc hr pass dwell pool order
  dsimp only
  generalize hR : (S.map (·.1)).take (s.profileOf i).budget = R
  intro perm sorted
  have sound := poolSound_sound pool hr
  have gone : (r.bound.filter fun jb => decide (jb.1 ∉ R)) = r.gone R := List.filter_congr fun jb _ => by simp
  rw [gone] at perm ⊢
  have act := exec_evaluation h hc hr pass dwell order
  rw [hR] at act
  have outside : ∀ q : SearchRecord, (nextStep i sv.failed q (s.judged i q)).outside = s.outside := fun q => by simp [State.judged]
  have others : ∀ (q : SearchRecord) (k : Nat), ((nextStep i sv.failed q (s.judged i q)).ctx k).steady = (s.ctx k).steady := fun q k => by
    rw [steady_nextStep, State.judged, State.steady_modSearch]
  -- an empty hand is one with nothing to move
  have moves : F = [] ↔ r.gone R = [] ∧ r.spare = [] := by
    rw [← List.length_eq_zero_iff, perm.length_eq, List.length_append, List.length_map, Nat.add_eq_zero_iff, List.length_eq_zero_iff,
      List.length_eq_zero_iff]
  have branch := nextStep_judged s i sv.failed r R
  refine ⟨fun unseen move => ?next, fun unseen empty waits => ?wait, fun nothing last => ?levelOnly⟩
  case next =>
    obtain ⟨distinct, inPool⟩ := gone_distinct sound R
    have started := evaluated_passStart sound hr hc (judged_unbinds hr distinct inPool) perm sorted unseen
    have step : nextStep i sv.failed (r.retaining R) (s.judged i (r.retaining R)) =
        perform [.passStart i] (unbind i (r.gone R) (s.judged i (r.retaining R))) := by
      rw [branch, if_neg unseen, if_pos]
      by_contra none
      exact move (moves.2 (by simpa using none))
    have spare := SearchRecord.evaluated_spare sound.nodup sound.spare perm sorted
    have bound := SearchRecord.passed_bound (r.evaluated R) (s.profileOf i).reach
    rw [spare] at bound
    have mem : ∀ jb, jb ∈ ((r.evaluated R).begun (s.profileOf i).reach).bound ↔
        jb ∈ (r.evaluated R).bound ∨ jb ∈ (r.unexplored (s.profileOf i).reach).zip F := fun jb => by
      rw [← List.mem_append]
      exact bound.mem_iff
    rw [← step] at started
    refine ⟨_, _, act, started.search, started.callState, rfl, rfl, rfl, rfl, rfl, fun jb hjb hR =>
        ⟨(mem jb).2 (.inl ((SearchRecord.mem_evaluated_bound sound.distinct).2 ⟨hjb, hR⟩)), started.kept jb hjb hR⟩,
      fun jb hjb => ⟨(mem jb).2 (.inr hjb), ?_, (started.bound jb hjb).state, (started.bound jb hjb).segment, (started.bound jb hjb).entries⟩,
      ?_, ?_, started.fifo, outside _, fun k _ => others _ k⟩
    · refine mem_foldl_insertNum.2 (.inl ⟨jb, ?_, rfl⟩)
      rw [spare]
      exact hjb
    · refine bound.length_eq.trans ?_
      rw [List.length_append, SearchRecord.evaluated_length sound.distinct, List.length_zip]
      rfl
    · show (if (r.unexplored (s.profileOf i).reach).length < (r.evaluated R).spare.length then _ else _) = _
      rw [spare]
      rfl
  case wait =>
    refine act.trans (congrArg Host.Outcome.next ?_)
    obtain ⟨noGone, noSpare⟩ := moves.1 empty
    rw [branch, if_neg unseen, if_neg (by simp [noGone, noSpare]), if_pos (by simpa using waits)]
    rw [State.judged, State.modSearch, State.modSearch, modCtx_modCtx]
    dsimp only
    rw [hr]
    rfl
  case levelOnly =>
    have none : R = [] := by rw [← hR, nothing]; exact List.take_nil
    have step : nextStep i sv.failed (r.retaining R) (s.judged i (r.retaining R)) =
        perform [.searchEnd i] (unbind i ((r.gone R).filter fun jb => sv.failed.contains jb.1) (s.judged i (r.retaining R))) := by
      rw [branch]
      rcases last with seen | ⟨empty, out⟩
      · rw [if_pos seen]
      · obtain ⟨noGone, noSpare⟩ := moves.1 empty
        rw [if_neg (c := r.gone R ≠ [] ∨ r.spare ≠ []) (by simp [noGone, noSpare]), if_neg (c := s.pool.shortfall.contains i = true) (by simpa using out)]
        exact ite_self _
    have unbound : ((r.gone R).filter fun jb => sv.failed.contains jb.1) =
        (r.retaining R).bound.filter fun jb => sv.failed.contains jb.1 && !R.contains jb.1 := List.filter_filter
    obtain ⟨distinct, inPool⟩ := gone_distinct sound R
    have unbinds := judged_unbinds (q := r.retaining R) (gone := (r.gone R).filter fun jb => sv.failed.contains jb.1) hr
      (distinct.sublist (List.filter_sublist.map _)) fun jb hjb => inPool jb (List.mem_of_mem_filter hjb)
    have blocks : ((r.retaining R).unbound ((r.gone R).filter fun jb => sv.failed.contains jb.1)).blocks.Perm r.blocks := by
      rw [unbound]
      exact SearchRecord.unbound_blocks (r := r.retaining R) sound.distinct sound.nodup
    have all : r.gone R = r.bound := List.filter_eq_self.2 fun jb _ => by rw [none]; rfl
    rw [all] at perm
    have held : ((r.retaining R).unbound ((r.gone R).filter fun jb => sv.failed.contains jb.1)).heldBlocks = F :=
      sortNums_eq_of_perm sorted (perm.trans blocks.symm)
    have few : F.length ≤ 264 := perm.length_eq ▸ sound.few
    obtain ⟨track, r', search, ended, rests⟩ := unbound_rests pool unbinds pass none (by rw [held]; exact few)
    rw [step] at act
    refine ⟨_, r', act, search, track, ended.map, ended.spare, ended.want, ended.retained, ended.pass, rests, fun queue unmarked => ?_,
      step ▸ outside _, fun k _ => step ▸ others _ k⟩
    have slot' : (unbind i ((r.gone R).filter fun jb => sv.failed.contains jb.1) (s.judged i (r.retaining R))).slotOf i = s.slotOf i := by
      rw [State.slotOf, unbinds.self]
      rfl
    obtain ⟨-, -, fifo, -, notice⟩ := levelOnly_of_searchEnd (s := s) (H := F) (F := [])
      (by rw [State.outside_contexts unbinds.outside]; exact h.lt) (by rw [unbinds.self]; rfl) none
      (by rw [unbinds.shortfall, queue]; rfl) (by rw [held]; exact fun b hb => unbinds.unmarked (unmarked b hb)) (by rw [held]; omega)
      unbinds.outside slot' (by rw [unbinds.fifo, List.append_nil]) (by rw [held]; rfl) (by rw [unbinds.lane])
    exact ⟨fifo, notice⟩

end Sys2Proof.Machine

namespace Sys2Proof.Machine

open Sys2Proof

/-! ## The plan of a search end (R86) -/

section Plan

variable {B reach : Nat} {R : List Nat}

/-- The neighbours of a segment below the reach, lower before higher (R86). -/
def neighboursOf (reach j : Nat) : List Nat := (if 0 < j then [j - 1] else []) ++ (if j + 1 < reach then [j + 1] else [])

/-- A neighbour joins a plan that has room and does not hold it. -/
def addToPlan (B : Nat) (R plan : List Nat) (n : Nat) : List Nat :=
  if plan.contains n || R.contains n || decide (B ≤ plan.length) then plan else plan ++ [n]

theorem buildPlan_eq_foldl : buildPlan B reach R = (R.flatMap (neighboursOf reach)).foldl (addToPlan B R) R := by
  rw [buildPlan, List.foldl_flatMap]
  congr 1
  funext plan j
  unfold neighboursOf
  by_cases h0 : 0 < j <;> by_cases h1 : j + 1 < reach <;> simp only [if_pos, h0, h1] <;> rfl

theorem eraseDups_concat (l : List Nat) (n : Nat) : (l ++ [n]).eraseDups = if n ∈ l then l.eraseDups else l.eraseDups ++ [n] := by
  rw [List.eraseDups_append]
  split
  · next h => simp [List.removeAll, h]
  · next h => simp [List.removeAll, h, List.eraseDups_cons]

/-- The first B of a list without its repeats grows as a plan does. -/
theorem addToPlan_eraseDups {l : List Nat} (sub : ∀ j ∈ R, j ∈ l) (n : Nat) :
    addToPlan B R (l.eraseDups.take B) n = (l ++ [n]).eraseDups.take B := by
  rw [eraseDups_concat, addToPlan]
  by_cases hn : n ∈ l
  · have full : n ∈ l.eraseDups.take B ∨ B ≤ l.eraseDups.length := by
      rcases Nat.le_total l.eraseDups.length B with le | le
      · rw [List.take_of_length_le le]
        exact .inl (List.mem_eraseDups.2 hn)
      · exact .inr le
    rw [if_pos hn, if_pos (by rcases full with h | h <;> simp [h])]
  · have fresh : n ∉ l.eraseDups.take B := fun h => hn (List.mem_eraseDups.1 (List.mem_of_mem_take h))
    have other : n ∉ R := fun h => hn (sub n h)
    rw [if_neg hn]
    by_cases le : B ≤ l.eraseDups.length
    · rw [if_pos (by simp [le]), List.take_append_of_le_length le]
    · have all : l.eraseDups.take B = l.eraseDups := List.take_of_length_le (by omega)
      rw [all] at fresh ⊢
      rw [if_neg (by simp [fresh, other]; omega), List.take_of_length_le (by rw [List.length_append, List.length_singleton]; omega)]

theorem eraseDups_of_nodup {l : List Nat} (h : l.Nodup) : l.eraseDups = l := by
  induction l with
  | nil => rfl
  | cons x l ih =>
    obtain ⟨hx, hl⟩ := List.nodup_cons.1 h
    have kept : l.filter (fun b => !b == x) = l := List.filter_eq_self.2 fun b hb => by
      have : b ≠ x := fun he => hx (he ▸ hb)
      simpa using this
    rw [List.eraseDups_cons, kept, ih hl]

/-- The plan in closed form: the retained segments and then their neighbours, each once, up to B (R86). -/
theorem buildPlan_closed (nodup : R.Nodup) (few : R.length ≤ B) :
    buildPlan B reach R = ((R ++ R.flatMap (neighboursOf reach)).eraseDups).take B := by
  have grow : ∀ (ns l : List Nat), (∀ j ∈ R, j ∈ l) → ns.foldl (addToPlan B R) (l.eraseDups.take B) = (l ++ ns).eraseDups.take B := by
    intro ns
    induction ns with
    | nil => exact fun l _ => by rw [List.append_nil]; rfl
    | cons n ns ih =>
      intro l sub
      rw [List.foldl_cons, addToPlan_eraseDups sub, ih (l ++ [n]) fun j hj => List.mem_append_left _ (sub j hj), List.append_assoc]
      rfl
  have start : R.eraseDups.take B = R := by rw [eraseDups_of_nodup nodup, List.take_of_length_le few]
  rw [buildPlan_eq_foldl, ← grow _ R fun _ h => h, start]

theorem eraseDups_nodup (l : List Nat) : l.eraseDups.Nodup := by
  induction l using List.reverseRecOn with
  | nil => exact List.nodup_nil
  | append_singleton l n ih =>
    rw [eraseDups_concat]
    split
    · exact ih
    · next hn => exact List.nodup_append.2 ⟨ih, List.nodup_singleton n, fun a ha b hb he => hn (by
        rw [List.mem_singleton] at hb
        rw [← hb, ← he]
        exact List.mem_eraseDups.1 ha)⟩

end Plan

/-! ## Filling a plan (R87) -/

section Fill

variable {map : List Segment} {bs : List Nat}

/-- The segments of a map that wait for a block. -/
def unfilledOf (map : List Segment) : List Nat := (map.filter fun e => e.fill == .unfilled).map (·.number)

/-- The bound segments of a map with their blocks. -/
def boundIn (map : List Segment) : List (Nat × Nat) := map.filterMap fun e => e.block?.map fun b => (e.number, b)

theorem fillPlan_numbers (map : List Segment) (bs : List Nat) : (fillPlan map bs).1.map (·.number) = map.map (·.number) := by
  induction map generalizing bs with
  | nil => rfl
  | cons e map ih =>
    cases bs with
    | nil => rfl
    | cons b bs =>
      rw [fillPlan]
      split
      · exact congrArg (e.number :: ·) (ih bs)
      · exact congrArg (e.number :: ·) (ih (b :: bs))

theorem fillPlan_nil (map : List Segment) : fillPlan map [] = (map, []) := by cases map <;> rfl

theorem unfilledOf_cons (e : Segment) (map : List Segment) :
    unfilledOf (e :: map) = if e.fill = .unfilled then e.number :: unfilledOf map else unfilledOf map := by
  rw [unfilledOf, List.filter_cons]
  by_cases h : e.fill = .unfilled <;> simp [h, unfilledOf]

theorem fillPlan_rest (map : List Segment) (bs : List Nat) : (fillPlan map bs).2 = bs.drop (unfilledOf map).length := by
  induction map generalizing bs with
  | nil => rfl
  | cons e map ih =>
    cases bs with
    | nil => rw [fillPlan_nil, List.drop_nil]
    | cons b bs =>
      rw [fillPlan, unfilledOf_cons]
      split
      · rw [ih, List.length_cons, List.drop_succ_cons]
      · rw [ih]

theorem fillPlan_unfilled (map : List Segment) (bs : List Nat) :
    unfilledOf (fillPlan map bs).1 = (unfilledOf map).drop bs.length := by
  induction map generalizing bs with
  | nil => rw [show (fillPlan [] bs).1 = [] by cases bs <;> rfl]; exact List.drop_nil.symm
  | cons e map ih =>
    cases bs with
    | nil => rw [fillPlan_nil]; rfl
    | cons b bs =>
      rw [fillPlan, unfilledOf_cons e]
      split
      · rw [unfilledOf_cons, if_neg nofun, ih, List.length_cons, List.drop_succ_cons]
      · next h => rw [unfilledOf_cons, if_neg h, ih]

theorem boundIn_cons (e : Segment) (map : List Segment) :
    boundIn (e :: map) = (e.block?.map fun b => (e.number, b)).toList ++ boundIn map := by
  rw [boundIn, List.filterMap_cons]
  cases e.block? <;> rfl

theorem fillPlan_bound (map : List Segment) (bs : List Nat) :
    (boundIn (fillPlan map bs).1).Perm (boundIn map ++ (unfilledOf map).zip bs) := by
  induction map generalizing bs with
  | nil => rw [show (fillPlan [] bs).1 = [] by cases bs <;> rfl]; exact .refl _
  | cons e map ih =>
    cases bs with
    | nil => rw [fillPlan_nil, List.zip_nil_right, List.append_nil]
    | cons b bs =>
      rw [fillPlan, unfilledOf_cons e, boundIn_cons e]
      split
      · next h =>
        have none : e.block? = none := by rw [Segment.block?, h]
        rw [boundIn_cons, none, List.zip_cons_cons]
        exact ((ih bs).cons _).trans List.perm_middle.symm
      · rw [boundIn_cons, List.append_assoc]
        exact (ih (b :: bs)).append_left _

/-- The blocks that a filled plan binds anew are the first of the list, in plan order. -/
theorem fillPlan_fresh (map : List Segment) (bs : List Nat) :
    ((fillPlan map bs).1.zip map).filterMap (fun e => if e.2.fill = .unfilled then e.1.block?.map fun b => (e.1.number, b) else none) =
      (unfilledOf map).zip bs := by
  induction map generalizing bs with
  | nil => rw [List.zip_nil_right]; rfl
  | cons e map ih =>
    cases bs with
    | nil =>
      rw [fillPlan_nil, List.zip_nil_right]
      refine List.filterMap_eq_nil_iff.2 fun x hx => ?_
      have same : x.1 = x.2 := by
        obtain ⟨n, hn, rfl⟩ := List.getElem_of_mem hx
        rw [List.getElem_zip]
      split
      · next h => rw [same, Segment.block?, h]; rfl
      · rfl
    | cons b bs =>
      rw [fillPlan, unfilledOf_cons]
      split
      · next h =>
        rw [List.zip_cons_cons, List.filterMap_cons, List.zip_cons_cons, ih]
        simp [h, Segment.block?]
      · next h =>
        rw [List.zip_cons_cons, List.filterMap_cons, ih]
        simp [h]

/-- Filling a plan binds the first blocks of the list to its unfilled segments, in plan order (R87). -/
theorem State.fillMap_eq (s : State) (i : Nat) (map : List Segment) (bs : List Nat) :
    s.fillMap i map bs = ((s.bindAll i ((unfilledOf map).zip bs)).modSearch i fun r => { r with map := (fillPlan map bs).1 },
      bs.drop (unfilledOf map).length) := by
  rw [State.fillMap, fillPlan_fresh, fillPlan_rest]
  rfl

/-! ### The plan of a search end as it starts -/

variable {r : SearchRecord} {P : List Nat}

theorem planned_numbers (r : SearchRecord) (P : List Nat) : (r.planned P).map (·.number) = P := by
  rw [SearchRecord.planned, List.map_map]
  exact List.map_id _

theorem bound_find (h : r.Distinct) {j b : Nat} : r.bound.find? (fun e => e.1 == j) = some (j, b) ↔ (j, b) ∈ r.bound := by
  refine ⟨List.mem_of_find?_eq_some, fun hm => ?_⟩
  cases found : r.bound.find? fun e => e.1 == j with
  | none => exact absurd (List.find?_eq_none.1 found (j, b) hm) (by simp)
  | some x =>
    have hx : x.1 = j := by simpa using List.find?_some found
    exact congrArg some (SearchRecord.bound_unique h (List.mem_of_find?_eq_some found) hm hx)

theorem planned_unfilled (r : SearchRecord) (P : List Nat) :
    unfilledOf (r.planned P) = P.filter fun j => decide (j ∉ r.bound.map (·.1)) := by
  induction P with
  | nil => rfl
  | cons j P ih =>
    have step : r.planned (j :: P) = Segment.mk j ((r.bound.find? fun e => e.1 == j).elim Fill.unfilled fun e => Fill.block e.2)
      :: r.planned P := rfl
    rw [step, unfilledOf_cons, ih, List.filter_cons]
    cases found : r.bound.find? fun e => e.1 == j with
    | none =>
      have out : j ∉ r.bound.map (·.1) := fun hm => by
        obtain ⟨x, hx, he⟩ := List.mem_map.1 hm
        exact List.find?_eq_none.1 found x hx (by simpa using he)
      rw [if_pos (decide_eq_true out)]
      exact if_pos rfl
    | some x =>
      have there : j ∈ r.bound.map (·.1) :=
        List.mem_map.2 ⟨x, List.mem_of_find?_eq_some found, by simpa using List.find?_some found⟩
      rw [if_neg nofun, if_neg (by simpa using there)]

theorem planned_bound (h : r.Distinct) {jb : Nat × Nat} : jb ∈ boundIn (r.planned P) ↔ jb ∈ r.bound ∧ jb.1 ∈ P := by
  induction P with
  | nil => exact ⟨nofun, nofun⟩
  | cons j P ih =>
    have step : r.planned (j :: P) = Segment.mk j ((r.bound.find? fun e => e.1 == j).elim Fill.unfilled fun e => Fill.block e.2)
      :: r.planned P := rfl
    rw [step, boundIn_cons, List.mem_append, ih, List.mem_cons, and_or_left]
    refine or_congr_left ?_
    cases found : r.bound.find? fun e => e.1 == j with
    | none =>
      refine ⟨nofun, fun ⟨hm, hj⟩ => ?_⟩
      exact absurd (by simpa using hj) (List.find?_eq_none.1 found jb hm)
    | some x =>
      have hx : x.1 = j := by simpa using List.find?_some found
      have mem := List.mem_of_find?_eq_some found
      constructor
      · intro hm
        obtain rfl : jb = (j, x.2) := by simpa [Segment.block?] using hm
        exact ⟨by rw [← hx]; exact mem, rfl⟩
      · rintro ⟨hm, hj⟩
        obtain rfl := SearchRecord.bound_unique h hm mem (hj.trans hx.symm)
        rw [← hx]
        exact List.mem_singleton.2 rfl

theorem boundIn_length (map : List Segment) (h : ∀ e ∈ map, e.fill ≠ .lost) : (boundIn map).length + (unfilledOf map).length = map.length := by
  induction map with
  | nil => rfl
  | cons e map ih =>
    have rest := ih fun x hx => h x (List.mem_cons_of_mem _ hx)
    rw [boundIn_cons, unfilledOf_cons, List.length_append, List.length_cons]
    cases fill : e.fill with
    | block b => simp [Segment.block?, fill]; omega
    | unfilled => simp [Segment.block?, fill]; omega
    | lost => exact absurd fill (h e (List.mem_cons_self ..))

theorem planned_fill (r : SearchRecord) (P : List Nat) : ∀ e ∈ r.planned P, e.fill ≠ .lost := fun e he => by
  obtain ⟨j, -, rfl⟩ := List.mem_map.1 he
  dsimp only
  cases r.bound.find? fun e => e.1 == j <;> exact nofun

end Fill

end Sys2Proof.Machine

namespace Sys2Proof.Machine

open Sys2Proof

/-! ## The end of a search with a plan (R86 to R88) -/

/-! ### Plans filled in turns -/

section Turns

theorem fillPlan_append (map : List Segment) (xs ys : List Nat) : (fillPlan (fillPlan map xs).1 ys).1 = (fillPlan map (xs ++ ys)).1 := by
  induction map generalizing xs with
  | nil => cases xs <;> cases ys <;> rfl
  | cons e map ih =>
    cases xs with
    | nil => rfl
    | cons x xs =>
      rw [List.cons_append, fillPlan, fillPlan]
      split
      · cases ys with
        | nil => rw [fillPlan_nil, List.append_nil]
        | cons y ys =>
          rw [fillPlan, if_neg nofun]
          exact congrArg (List.cons _) (ih xs)
      · next h =>
        cases ys with
        | nil => rw [fillPlan_nil, List.append_nil]
        | cons y ys =>
          rw [fillPlan, if_neg h]
          exact congrArg (List.cons _) (ih (x :: xs))

theorem zip_append_drop (ms xs ys : List Nat) : ms.zip (xs ++ ys) = ms.zip xs ++ (ms.drop xs.length).zip ys := by
  induction ms generalizing xs with
  | nil => simp
  | cons m ms ih =>
    cases xs with
    | nil => rfl
    | cons x xs => exact congrArg ((m, x) :: ·) (ih xs)

theorem fillPlan_fill {map : List Segment} {bs : List Nat} (h : ∀ e ∈ map, e.fill ≠ .lost) : ∀ e ∈ (fillPlan map bs).1, e.fill ≠ .lost :=
  fun e he => by
    rcases mem_fillPlan he with he | ⟨b, -, hf⟩
    · exact h e he
    · rw [hf]
      exact nofun

/-- The segments of a plan that a search holds no block for (R87). -/
def SearchRecord.missing (r : SearchRecord) (P : List Nat) : List Nat := P.filter fun j => decide (j ∉ r.bound.map (·.1))

/-- The record of a search end whose plan took the blocks of a list, as far as they go (R87). -/
def SearchRecord.filled (r : SearchRecord) (P bs : List Nat) : SearchRecord :=
  { r with map := (fillPlan (r.planned P) bs).1, spare := [], want := P.length }

variable {r : SearchRecord} {P : List Nat}

theorem filled_numbers (r : SearchRecord) (P bs : List Nat) : (r.filled P bs).map.map (·.number) = P := by
  rw [SearchRecord.filled, fillPlan_numbers, planned_numbers]

theorem mem_filled_bound (h : r.Distinct) {bs : List Nat} {jb : Nat × Nat} :
    jb ∈ (r.filled P bs).bound ↔ (jb ∈ r.bound ∧ jb.1 ∈ P) ∨ jb ∈ (r.missing P).zip bs := by
  have perm := (fillPlan_bound (r.planned P) bs).mem_iff (a := jb)
  rw [List.mem_append, planned_bound h, planned_unfilled] at perm
  exact perm

theorem filled_length (r : SearchRecord) (P bs : List Nat) : (r.filled P bs).bound.length = P.length - ((r.missing P).length - bs.length) := by
  have all := boundIn_length (fillPlan (r.planned P) bs).1 (fillPlan_fill (planned_fill r P))
  have size := congrArg List.length (filled_numbers r P bs)
  rw [List.length_map] at size
  rw [fillPlan_unfilled, planned_unfilled, List.length_drop] at all
  have within : (r.missing P).length ≤ P.length := List.length_filter_le _ _
  show (boundIn (fillPlan (r.planned P) bs).1).length = _
  change _ + ((r.missing P).length - bs.length) = (r.filled P bs).map.length at all
  omega

end Turns

/-! ### The state on the way -/

section Binds

variable {s u : State} {i k : Nat} {pairs more : List (Nat × Nat)} {bs fifo : List Nat}

/-- `u` is `s` but for context i: the pairs bound, no block outside `bs` touched, and the FIFO `fifo`. -/
structure State.Binds (s : State) (i : Nat) (pairs : List (Nat × Nat)) (bs fifo : List Nat) (u : State) : Prop where
  others : ∀ k, k ≠ i → u.ctx k = s.ctx k
  slot : u.slotOf i = s.slotOf i
  bound : ∀ jb ∈ pairs, (u.tapBlock jb.2).BoundTo ⟨i, s.slotOf i⟩ jb.1
  stand : ∀ b, b ∉ bs → u.tapBlock b = s.tapBlock b
  marks : ∀ b, (u.tapBlock b).retirePending = (s.tapBlock b).retirePending
  fifo : u.pool.fifo = fifo
  shortfall : u.pool.shortfall = s.pool.shortfall
  lane : u.lane = s.lane
  outside : u.outside = s.outside

theorem State.Binds.refl (s : State) (i : Nat) : s.Binds i [] [] s.pool.fifo s :=
  ⟨fun _ _ => rfl, rfl, nofun, fun _ _ => rfl, fun _ => rfl, rfl, rfl, rfl, rfl⟩

theorem State.Binds.modCtx (h : s.Binds i pairs bs fifo u) {f : Context → Context} (hf : ∀ c, (f c).slot = c.slot) :
    s.Binds i pairs bs fifo (u.modCtx i f) :=
  ⟨fun k hk => (State.ctx_modCtx_ne _ _ _ _ hk.symm).trans (h.others k hk), (slotOf_modCtx hf).trans h.slot,
    fun jb hjb => State.modCtx_tapBlock u i f jb.2 ▸ h.bound jb hjb, fun b hb => (State.modCtx_tapBlock u i f b).trans (h.stand b hb),
    fun b => State.modCtx_tapBlock u i f b ▸ h.marks b, h.fifo, h.shortfall, h.lane, (State.outside_modCtx _ _ _).trans h.outside⟩

theorem State.Binds.modSearch (h : s.Binds i pairs bs fifo u) (f : SearchRecord → SearchRecord) :
    s.Binds i pairs bs fifo (u.modSearch i f) := h.modCtx fun _ => rfl

theorem State.Binds.toTrack (h : s.Binds i pairs bs fifo u) : s.Binds i pairs bs fifo (u.toTrack i) := h.modCtx fun _ => rfl

theorem State.Binds.setFifo (h : s.Binds i pairs bs fifo u) (rest : List Nat) :
    s.Binds i pairs bs rest { u with pool := { u.pool with fifo := rest } } :=
  ⟨h.others, h.slot, h.bound, h.stand, h.marks, rfl, h.shortfall, h.lane, h.outside⟩

/-- Further blocks bound. -/
theorem State.Binds.bindAll (h : s.Binds i pairs bs fifo u) {cs : List Nat} (taken : ∀ jb ∈ more, jb.2 ∈ cs)
    (distinct : (more.map (·.2)).Nodup) (inPool : ∀ jb ∈ more, jb.2 < s.pool.blocks.length) (fresh : ∀ jb ∈ pairs, jb.2 ∉ cs) :
    s.Binds i (pairs ++ more) (bs ++ cs) fifo (u.bindAll i more) := by
  obtain ⟨bound, stand⟩ := State.bindAll_tapBlock (s := u) (i := i) distinct
    fun jb hjb => by rw [State.outside_blocks h.outside]; exact inPool jb hjb
  have apart : ∀ b, b ∉ cs → ∀ jb ∈ more, jb.2 ≠ b := fun b hb jb hjb he => hb (he ▸ taken jb hjb)
  refine ⟨fun k hk => (State.bindAll_ctx _ _ _ _).trans (h.others k hk), ?_, fun jb hjb => ?_, fun b hb => ?_, fun b => ?_,
    (State.bindAll_fifo _ _ _).trans h.fifo, (State.bindAll_shortfall _ _ _).trans h.shortfall, (State.bindAll_lane _ _ _).trans h.lane, ?_⟩
  · rw [State.slotOf, State.bindAll_ctx]
    exact h.slot
  · rcases List.mem_append.1 hjb with hjb | hjb
    · rw [stand jb.2 (apart jb.2 (fresh jb hjb))]
      exact h.bound jb hjb
    · rw [bound jb hjb, h.slot]
      exact TapBlock.boundTo_boundTo _ _ _
  · rw [List.mem_append, not_or] at hb
    rw [stand b (apart b hb.2), h.stand b hb.1]
  · rw [← h.marks b]
    by_cases hb : ∃ jb ∈ more, jb.2 = b
    · obtain ⟨jb, hjb, rfl⟩ := hb
      rw [bound jb hjb]
      rfl
    · rw [stand b fun jb hjb he => hb ⟨jb, hjb, he⟩]
  · refine Eq.trans ?_ h.outside
    exact State.outside_foldl _ (by simp) _ _

/-- Blocks of the list that are not bound given back (R103). -/
theorem State.Binds.freeAll (h : s.Binds i pairs bs fifo u) {cs : List Nat} (sub : ∀ b ∈ cs, b ∈ bs) (fresh : ∀ jb ∈ pairs, jb.2 ∉ cs) :
    s.Binds i pairs bs (fifo ++ cs) (u.freeAll cs) := by
  have read : ∀ b, b ∉ cs → (u.freeAll cs).tapBlock b = u.tapBlock b := fun b hb => by
    rw [State.freeAll_tapBlock, if_neg fun hm => hb hm.1]
  refine ⟨fun k hk => (State.freeAll_ctx _ _ _).trans (h.others k hk), ?_, fun jb hjb => ?_, fun b hb => ?_, fun b => ?_, ?_,
    (State.freeAll_shortfall _ _).trans h.shortfall, (State.freeAll_lane _ _).trans h.lane, ?_⟩
  · rw [State.slotOf, State.freeAll_ctx]
    exact h.slot
  · rw [read jb.2 (fresh jb hjb)]
    exact h.bound jb hjb
  · rw [read b fun hm => hb (sub b hm), h.stand b hb]
  · rw [State.freeAll_tapBlock, ← h.marks b]
    split <;> rfl
  · rw [State.freeAll_fifo, h.fifo]
  · refine Eq.trans ?_ h.outside
    exact State.outside_foldl _ (by simp) _ _

/-- A plan filled with further blocks (R87). -/
theorem State.Binds.fillMap (h : s.Binds i pairs bs fifo u) {map : List Segment} {cs : List Nat} (nodup : cs.Nodup)
    (inPool : ∀ b ∈ cs, b < s.pool.blocks.length) (fresh : ∀ jb ∈ pairs, jb.2 ∉ cs) :
    s.Binds i (pairs ++ (unfilledOf map).zip cs) (bs ++ cs) fifo (u.fillMap i map cs).1 := by
  have taken : ∀ jb ∈ (unfilledOf map).zip cs, jb.2 ∈ cs := fun jb hjb => (List.of_mem_zip (a := jb.1) (b := jb.2) hjb).2
  rw [State.fillMap_eq]
  refine (h.bindAll taken ?_ (fun jb hjb => inPool jb.2 (taken jb hjb)) fresh).modSearch _
  rw [zip_map_snd]
  exact nodup.sublist (List.take_sublist _ _)

theorem fillMap_ctx {r : SearchRecord} (hr : (u.ctx i).search = some r) (map : List Segment) (cs : List Nat) :
    (u.fillMap i map cs).1.ctx i = (u.ctx i).searching { r with map := (fillPlan map cs).1 } := by
  have hi : i < (u.bindAll i ((unfilledOf map).zip cs)).table.contexts.length := by
    rw [State.bindAll_table]
    exact lt_of_search hr
  rw [State.fillMap_eq, State.ctx_modSearch_self _ _ _ hi, State.bindAll_ctx, hr]
  rfl

end Binds

/-! ### The plan made and its own blocks in place -/

section Plan

variable {s : State} {i : Nat} {q : SearchRecord} {P X : List Nat}

/-- The context of a call whose search has ended on a plan, before its last step (R86). -/
def Context.tracking (c : Context) (q : SearchRecord) : Context := { c with callState := .track, search := some q }

/-- The search end up to its last step: the plan, its blocks in place, those left given back (R86, R87). -/
def State.laid (s : State) (i : Nat) (q : SearchRecord) (P X : List Nat) : State :=
  (((s.planning i P).fillMap i (q.planned P) X).1.toTrack i).freeAll (X.drop (q.missing P).length)

theorem planning_ctx (hr : (s.ctx i).search = some q) : (s.planning i P).ctx i = (s.ctx i).searching { q with spare := [], want := P.length } := by
  rw [State.planning, State.ctx_modSearch_self _ _ _ (lt_of_search hr), hr]
  rfl

theorem laid_ctx (hr : (s.ctx i).search = some q) : (s.laid i q P X).ctx i = (s.ctx i).tracking (q.filled P X) := by
  have planning := planning_ctx (P := P) hr
  have search : ((s.planning i P).ctx i).search = some { q with spare := [], want := P.length } := by rw [planning]; rfl
  have filled := fillMap_ctx search (q.planned P) X
  have hi : i < ((s.planning i P).fillMap i (q.planned P) X).1.table.contexts.length :=
    lt_of_search (r := { q with spare := [], want := P.length, map := (fillPlan (q.planned P) X).1 }) (by rw [filled]; rfl)
  rw [State.laid, State.freeAll_ctx, State.toTrack, State.ctx_modCtx_self _ _ _ hi, filled, planning]
  rfl

theorem laid_binds (nodup : X.Nodup) (inPool : ∀ b ∈ X, b < s.pool.blocks.length) :
    s.Binds i ((q.missing P).zip X) X (s.pool.fifo ++ X.drop (q.missing P).length) (s.laid i q P X) := by
  have filled := ((State.Binds.refl s i).modSearch fun r => { r with spare := [], want := P.length }).fillMap (map := q.planned P) nodup inPool nofun
  rw [planned_unfilled] at filled
  refine filled.toTrack.freeAll (fun b hb => List.mem_of_mem_drop hb) fun jb hjb hb => ?_
  have first : jb.2 ∈ X.take (q.missing P).length := by
    rw [← zip_map_snd]
    exact List.mem_map_of_mem hjb
  exact List.disjoint_of_nodup_append (by rw [List.take_append_drop]; exact nodup) first hb

/-- A search end with a plan, while no context waits, comes to its last step (R86, R87, R103). -/
theorem perform_searchEnd_laid (hr : (s.ctx i).search = some q) (hn : q.retained ≠ []) (queue : s.pool.shortfall = [])
    (plan : s.planOf i q = P) (sources : q.sources P = X) (nodup : X.Nodup) (inPool : ∀ b ∈ X, b < s.pool.blocks.length)
    (few : X.length ≤ 264) (unmarked : ∀ b ∈ X, (s.tapBlock b).retirePending = false) :
    perform [.searchEnd i] s = (finishSearchTask i (s.laid i q P X)).1 := by
  have filled := (((State.Binds.refl s i).modSearch fun r => { r with spare := [], want := P.length }).fillMap
    (map := q.planned P) nodup inPool nofun).toTrack
  rw [planned_unfilled] at filled
  have rest : ((s.planning i P).fillMap i (q.planned P) X).2 = X.drop (q.missing P).length := by
    rw [State.fillMap_eq, planned_unfilled]
    rfl
  have stays : ∀ u : State, u.pool.shortfall = [] → u.leaveShortfall i = u := fun u hu => if_neg (by rw [hu]; exact nofun)
  have quiet : ((s.planning i P).fillMap i (q.planned P) X).1.leaveShortfall i = ((s.planning i P).fillMap i (q.planned P) X).1 :=
    stays _ (filled.shortfall.trans queue)
  rw [perform, runTasks, doTask, searchEndTask_retained hr hn, plan, sources]
  dsimp only
  rw [quiet, ite_self, rest, List.append_nil]
  have marks : ∀ b ∈ X.drop (q.missing P).length,
      ((((s.planning i P).fillMap i (q.planned P) X).1.toTrack i).tapBlock b).retirePending = false := fun b hb => by
    exact (filled.marks b).trans (unmarked b (List.mem_of_mem_drop hb))
  have released := runTasks_release (bs := X.drop (q.missing P).length) (s := ((s.planning i P).fillMap i (q.planned P) X).1.toTrack i)
    (4095 - (X.drop (q.missing P).length).length) [.finishSearch i] (filled.shortfall.trans queue) marks
  have short : (X.drop (q.missing P).length).length ≤ 264 := by rw [List.length_drop]; omega
  rw [Nat.add_sub_of_le (by omega)] at released
  refine released.trans ?_
  obtain ⟨n, fuel⟩ : ∃ n, 4095 - (X.drop (q.missing P).length).length = n + 1 := ⟨4094 - (X.drop (q.missing P).length).length, by omega⟩
  rw [fuel, runTasks]
  exact runTasks_nil _ _

end Plan

end Sys2Proof.Machine

namespace Sys2Proof.Machine

open Sys2Proof

/-! ## The last step of a search end with a plan (R87, R88) -/

section Finish

variable {s u v : State} {i : Nat} {q r : SearchRecord} {P X : List Nat}

theorem fillPlan_enough {map : List Segment} {bs : List Nat} {n : Nat} (h : (unfilledOf map).length ≤ n) :
    (fillPlan map (bs.take n)).1 = (fillPlan map bs).1 := by
  induction map generalizing bs n with
  | nil => cases bs.take n <;> cases bs <;> rfl
  | cons e map ih =>
    rw [unfilledOf_cons] at h
    cases bs with
    | nil => rw [List.take_nil]
    | cons b bs =>
      by_cases he : e.fill = .unfilled
      · rw [if_pos he, List.length_cons] at h
        obtain ⟨m, rfl⟩ : ∃ m, n = m + 1 := ⟨n - 1, by omega⟩
        rw [List.take_succ_cons, fillPlan, fillPlan, if_pos he, if_pos he]
        exact congrArg (List.cons _) (ih (by omega))
      · rw [if_neg he] at h
        cases n with
        | zero =>
          rw [List.take_zero, fillPlan_nil, fillPlan, if_neg he]
          have rest := ih (bs := b :: bs) h
          rw [List.take_zero, fillPlan_nil] at rest
          exact congrArg (List.cons _) rest
        | succ m =>
          rw [List.take_succ_cons, fillPlan, fillPlan, if_neg he, if_neg he]
          exact congrArg (List.cons _) (ih (bs := b :: bs) h)

theorem zip_enough {ms bs : List Nat} {n : Nat} (h : ms.length ≤ n) : ms.zip (bs.take n) = ms.zip bs := by
  induction ms generalizing bs n with
  | nil => simp
  | cons m ms ih =>
    obtain ⟨n, rfl⟩ : ∃ k, n = k + 1 := ⟨n - 1, by rw [List.length_cons] at h; omega⟩
    cases bs with
    | nil => rfl
    | cons b bs => exact congrArg ((m, b) :: ·) (ih (by simpa using h))

/-- The blocks beyond those a plan misses do not matter to it. -/
theorem filled_enough {bs : List Nat} {n : Nat} (h : (q.missing P).length ≤ n) : q.filled P (bs.take n) = q.filled P bs := by
  rw [SearchRecord.filled, fillPlan_enough (by rw [planned_unfilled]; exact h), SearchRecord.filled]

theorem finishSearchTask_eq (hr : ((requestForPlan i u).ctx i).search = some r) :
    (finishSearchTask i u).1 = (requestForPlan i u).finished i r.map.length (r.map.head?.elim 0 (·.number)) := by
  generalize requested : requestForPlan i u = v at hr
  have slot : ((v.modSearch i fun r => { r with dwell := 0 }).modServing i fun sv => { sv with pathRun := 0 }).slotOf i = v.slotOf i := by
    rw [State.modServing, slotOf_modCtx, State.modSearch, slotOf_modCtx] <;> exact fun _ => rfl
  have search : (((v.modSearch i fun r => { r with dwell := 0 }).modServing i fun sv => { sv with pathRun := 0 }).ctx i).search =
      some { r with dwell := 0 } := by
    rw [State.ctx_modServing_self _ _ _ (by simpa using lt_of_search hr), State.ctx_modSearch_self _ _ _ (lt_of_search hr), hr]
    rfl
  rw [finishSearchTask, requested]
  simp only [search, slot, Option.elim_some]
  rfl

/-- The station with context i's plan filled from the FIFO head, by up to n blocks (R87, R101). -/
def State.drawn (u : State) (i n : Nat) (map : List Segment) : State :=
  (({ u with pool := { u.pool with fifo := u.pool.fifo.drop n } } : State).fillMap i map (u.pool.fifo.take n)).1

theorem requestForPlan_eq (hr : (u.ctx i).search = some r) (short : u.shortOf i ≠ 0) (queue : u.pool.shortfall = []) :
    requestForPlan i u = if (u.drawn i (u.shortOf i) r.map).shortOf i = 0 then u.drawn i (u.shortOf i) r.map
      else (u.drawn i (u.shortOf i) r.map).joinShortfall i := by
  have taken : u.takeBlocks (min (u.shortOf i) u.free) = (u.pool.fifo.take (u.shortOf i),
      { u with pool := { u.pool with fifo := u.pool.fifo.drop (u.shortOf i) } }) := by
    rw [State.takeBlocks, State.free]
    rcases Nat.le_total (u.shortOf i) u.pool.fifo.length with le | le
    · rw [Nat.min_eq_left le]
    · rw [Nat.min_eq_right le, List.take_length, List.take_of_length_le le, List.drop_length, List.drop_eq_nil_of_le le]
  have requests : ¬ (u.shortOf i = 0 ∨ u.pool.shortfall.contains i = true) := by
    rw [queue]
    rintro (h | h)
    · exact short h
    · cases h
  unfold requestForPlan
  dsimp only
  rw [taken]
  dsimp only
  rw [if_neg requests, if_neg (not_not_intro queue), hr]
  rfl

/-- `v` is `s` with context i's plan filled as far as the blocks go; it waits for those that miss (R87, R101, R102). -/
structure State.Fills (s : State) (i : Nat) (q : SearchRecord) (P X : List Nat) (v : State) : Prop where
  self : v.ctx i = (s.ctx i).tracking (q.filled P (X ++ s.pool.fifo))
  bound : ∀ jb ∈ (q.missing P).zip (X ++ s.pool.fifo), (v.tapBlock jb.2).BoundTo ⟨i, s.slotOf i⟩ jb.1
  stand : ∀ b, b ∉ X ++ s.pool.fifo → v.tapBlock b = s.tapBlock b
  fifo : v.pool.fifo = s.pool.fifo.drop ((q.missing P).length - X.length) ++ X.drop (q.missing P).length
  shortfall : v.pool.shortfall = if (X ++ s.pool.fifo).length < (q.missing P).length then [i] else []
  lane : v.lane = if (X ++ s.pool.fifo).length < (q.missing P).length then
    (s.notify 3 [(7, s.slotOf i), (5, (q.missing P).length - (X ++ s.pool.fifo).length)]).lane else s.lane
  slot : v.slotOf i = s.slotOf i
  outside : v.outside = s.outside

theorem shortOf_filled {bs : List Nat} (h : (u.ctx i).search = some (q.filled P bs)) : u.shortOf i = (q.missing P).length - bs.length := by
  have within : (q.missing P).length ≤ P.length := List.length_filter_le _ _
  have held : (q.filled P bs).held = P.length - ((q.missing P).length - bs.length) := by
    rw [SearchRecord.held, filled_length]
    rfl
  rw [State.shortOf, h]
  show P.length - (q.filled P bs).held = _
  omega

/-- The blocks given up are enough: nothing is requested (R87). -/
theorem laid_fills (hr : (s.ctx i).search = some q) (queue : s.pool.shortfall = []) (nodup : X.Nodup)
    (inPool : ∀ b ∈ X, b < s.pool.blocks.length) (enough : (q.missing P).length ≤ X.length) : s.Fills i q P X (s.laid i q P X) := by
  have laid := laid_binds (i := i) (q := q) (P := P) nodup inPool
  have all : (X ++ s.pool.fifo).take X.length = X := List.take_left' rfl
  have few : ¬ (X ++ s.pool.fifo).length < (q.missing P).length := by rw [List.length_append]; omega
  have whole := filled_enough (q := q) (bs := X ++ s.pool.fifo) enough
  have pairs := zip_enough (bs := X ++ s.pool.fifo) enough
  rw [all] at whole pairs
  refine ⟨by rw [laid_ctx hr, whole], by rw [← pairs]; exact laid.bound, fun b hb => laid.stand b fun hm => hb (List.mem_append_left _ hm), ?_,
    ?_, ?_, laid.slot, laid.outside⟩
  · rw [laid.fifo, Nat.sub_eq_zero_of_le enough, List.drop_zero]
  · rw [if_neg few, laid.shortfall, queue]
  · rw [if_neg few, laid.lane]

/-- The blocks that miss are drawn from the FIFO head (R87, R101). -/
theorem drawn_binds (hr : (s.ctx i).search = some q) (nodup : (X ++ s.pool.fifo).Nodup) (inPool : ∀ b ∈ X ++ s.pool.fifo, b < s.pool.blocks.length)
    (less : X.length < (q.missing P).length) :
    ((s.laid i q P X).drawn i ((q.missing P).length - X.length) (q.filled P X).map).ctx i =
        (s.ctx i).tracking (q.filled P (X ++ s.pool.fifo))
      ∧ s.Binds i ((q.missing P).zip (X ++ s.pool.fifo)) ((X ++ s.pool.fifo).take (q.missing P).length)
        (s.pool.fifo.drop ((q.missing P).length - X.length))
        ((s.laid i q P X).drawn i ((q.missing P).length - X.length) (q.filled P X).map) := by
  obtain ⟨nodupX, nodupF, disjoint⟩ := List.nodup_append.1 nodup
  have laid := laid_binds (i := i) (q := q) (P := P) nodupX fun b hb => inPool b (List.mem_append_left _ hb)
  have self := laid_ctx (P := P) (X := X) hr
  have first : (X ++ s.pool.fifo).take (q.missing P).length = X ++ s.pool.fifo.take ((q.missing P).length - X.length) := by
    rw [List.take_append, List.take_of_length_le (by omega)]
  have unfilled : unfilledOf (q.filled P X).map = (q.missing P).drop X.length := by
    rw [SearchRecord.filled, fillPlan_unfilled, planned_unfilled]
    rfl
  rw [List.drop_eq_nil_of_le (by omega), List.append_nil] at laid
  rw [State.drawn, laid.fifo]
  constructor
  · have own := fillMap_ctx (i := i) (r := q.filled P X) (u := { s.laid i q P X with pool :=
      { (s.laid i q P X).pool with fifo := s.pool.fifo.drop ((q.missing P).length - X.length) } })
      (congrArg Context.search self :) (q.filled P X).map (s.pool.fifo.take ((q.missing P).length - X.length))
    refine own.trans ((congrArg (Context.searching · _) self).trans ?_)
    rw [← filled_enough (bs := X ++ s.pool.fifo) (Nat.le_refl _), first, SearchRecord.filled, SearchRecord.filled, fillPlan_append]
    rfl
  · have filled := (laid.setFifo (s.pool.fifo.drop ((q.missing P).length - X.length))).fillMap (map := (q.filled P X).map)
      (nodupF.sublist (List.take_sublist ((q.missing P).length - X.length) _))
      (fun b hb => inPool b (List.mem_append_right _ (List.mem_of_mem_take hb)))
      fun jb hjb hb => disjoint jb.2 (List.of_mem_zip (a := jb.1) (b := jb.2) hjb).2 jb.2 (List.mem_of_mem_take hb) rfl
    rw [unfilled, ← zip_append_drop, ← first, zip_enough (Nat.le_refl _)] at filled
    exact filled

/-- A search end's request, and its place in the shortfall queue (R87, R101, R102). -/
theorem requestForPlan_fills (hr : (s.ctx i).search = some q) (queue : s.pool.shortfall = []) (nodup : (X ++ s.pool.fifo).Nodup)
    (inPool : ∀ b ∈ X ++ s.pool.fifo, b < s.pool.blocks.length) : s.Fills i q P X (requestForPlan i (s.laid i q P X)) := by
  have nodupX := (List.nodup_append.1 nodup).1
  have inX : ∀ b ∈ X, b < s.pool.blocks.length := fun b hb => inPool b (List.mem_append_left _ hb)
  have search : ((s.laid i q P X).ctx i).search = some (q.filled P X) := by rw [laid_ctx hr]; rfl
  have size := shortOf_filled search
  by_cases enough : (q.missing P).length ≤ X.length
  · have request : requestForPlan i (s.laid i q P X) = s.laid i q P X := if_pos (.inl (by rw [size]; omega))
    rw [request]
    exact laid_fills hr queue nodupX inX enough
  · have laid := laid_binds (i := i) (q := q) (P := P) nodupX inX
    obtain ⟨own, filled⟩ := drawn_binds (P := P) hr nodup inPool (Nat.lt_of_not_le enough)
    rw [requestForPlan_eq search (by omega) (laid.shortfall.trans queue), size]
    generalize (s.laid i q P X).drawn i ((q.missing P).length - X.length) (q.filled P X).map = w at own filled
    have short := shortOf_filled (u := w) (q := q) (P := P) (bs := X ++ s.pool.fifo) (by rw [own]; rfl)
    have stand : ∀ b, b ∉ X ++ s.pool.fifo → w.tapBlock b = s.tapBlock b := fun b hb => filled.stand b fun hm => hb (List.mem_of_mem_take hm)
    have fifo : w.pool.fifo = s.pool.fifo.drop ((q.missing P).length - X.length) ++ X.drop (q.missing P).length := by
      rw [filled.fifo, List.drop_eq_nil_of_le (as := X) (by omega), List.append_nil]
    split
    · next met =>
      have few : ¬ (X ++ s.pool.fifo).length < (q.missing P).length := by omega
      exact ⟨own, filled.bound, stand, fifo, by rw [if_neg few, filled.shortfall, queue], by rw [if_neg few, filled.lane],
        filled.slot, filled.outside⟩
    · next unmet =>
      have few : (X ++ s.pool.fifo).length < (q.missing P).length := by omega
      have joins : w.joinShortfall i = _ := State.joinShortfall_eq (by rw [filled.shortfall, queue]; exact List.not_mem_nil) unmet
      have told := State.notify_lane_congr (s := s) (t := { w with pool := { w.pool with shortfall := w.pool.shortfall ++ [i] } })
        filled.lane (State.outside_profile filled.outside) (State.outside_frame filled.outside) 3
        [(7, s.slotOf i), (5, (q.missing P).length - (X ++ s.pool.fifo).length)]
      have outside : (w.joinShortfall i).outside = s.outside := (by simp : (w.joinShortfall i).outside = w.outside).trans filled.outside
      rw [filled.slot, short] at joins
      rw [joins] at outside ⊢
      refine ⟨?_, fun jb hjb => ?_, fun b hb => ?_, ?_, ?_, by rw [if_pos few]; exact told, ?_, outside⟩
      · rw [State.notify_ctx]
        exact own
      · rw [State.notify_tapBlock]
        exact filled.bound jb hjb
      · rw [State.notify_tapBlock]
        exact stand b hb
      · rw [State.notify_pool]
        exact fifo
      · rw [State.notify_pool, if_pos few]
        show w.pool.shortfall ++ [i] = [i]
        rw [filled.shortfall, queue]
        rfl
      · rw [State.slotOf, State.notify_ctx]
        exact filled.slot

end Finish

end Sys2Proof.Machine

namespace Sys2Proof.Machine

open Sys2Proof

/-! ## Search ends with a plan, as EVALUATION and SETTLE bring them (R84 to R89) -/

section Plans

variable {s v : State} {slot : BitVec 7} {i : Nat} {sv : Serving} {q r : SearchRecord} {P X R : List Nat} {S : List (Nat × Nat)}

/-- A search end with a plan, while no context waits (R86, R87, R88). -/
theorem searchEnd_plans (hr : (s.ctx i).search = some q) (hn : q.retained ≠ []) (queue : s.pool.shortfall = [])
    (plan : s.planOf i q = P) (sources : q.sources P = X) (nodup : (X ++ s.pool.fifo).Nodup)
    (inPool : ∀ b ∈ X ++ s.pool.fifo, b < s.pool.blocks.length) (few : X.length ≤ 264)
    (unmarked : ∀ b ∈ X, (s.tapBlock b).retirePending = false) :
    ∃ v, s.Fills i q P X v ∧ perform [.searchEnd i] s = v.finished i P.length (P.headD 0) := by
  have fills := requestForPlan_fills (P := P) hr queue nodup inPool
  have search : ((requestForPlan i (s.laid i q P X)).ctx i).search = some (q.filled P (X ++ s.pool.fifo)) := by rw [fills.self]; rfl
  have numbers := filled_numbers q P (X ++ s.pool.fifo)
  have size : (q.filled P (X ++ s.pool.fifo)).map.length = P.length := by rw [← List.length_map, numbers]
  have first : (q.filled P (X ++ s.pool.fifo)).map.head?.elim 0 (·.number) = P.headD 0 := by
    have head := congrArg (List.headD · 0) numbers
    rw [← head]
    cases (q.filled P (X ++ s.pool.fifo)).map <;> rfl
  refine ⟨_, fills, ?_⟩
  rw [perform_searchEnd_laid hr hn queue plan sources (List.nodup_append.1 nodup).1 (fun b hb => inPool b (List.mem_append_left _ hb))
    few unmarked, finishSearchTask_eq search, size, first]

theorem finished_pool (v : State) (size first : Nat) : (v.finished i size first).pool = v.pool := State.notify_pool _ _ _

theorem finished_tapBlock (v : State) (size first b : Nat) : (v.finished i size first).tapBlock b = v.tapBlock b := by
  rw [State.tapBlock, finished_pool, State.tapBlock]

theorem State.Fills.lane_room (h : s.Fills i q P X v) (room : s.lane.queue.length ≤ 14) : v.lane.queue.length < 16 := by
  have told := State.notify_queue_length s 3 [(7, s.slotOf i), (5, (q.missing P).length - (X ++ s.pool.fifo).length)]
  rw [h.lane]
  split <;> omega

/-- The SEARCH DONE notice of a search end (R88). -/
theorem State.Fills.searchDone (h : s.Fills i q P X v) (mask : maskBit s.profile.noticeMask 2 = true) (room : s.lane.queue.length ≤ 14)
    {size first : Nat} (small : size ≤ 16) :
    ⟨.notice 2 (BitVec.ofNat 16 (s.slotOf i % 128 * 512 + size * 16 + first % 16)) s.me, s.frame, none⟩
      ∈ (v.finished i size first).lane.queue := by
  have told := State.mem_notify (s := (v.modSearch i fun r => { r with dwell := 0 }).modServing i fun sv => { sv with pathRun := 0 })
    (kind := 2) (fs := [(7, v.slotOf i), (5, size), (4, first)])
    (by rw [State.modServing_profile, State.modSearch_profile, State.outside_profile h.outside]; exact mask)
    (by rw [State.modServing_lane, State.modSearch_lane]; exact h.lane_room room)
  rw [State.me, State.modServing_profile, State.modSearch_profile, State.outside_profile h.outside, State.modServing_frame,
    State.modSearch_frame, State.outside_frame h.outside, packLeft_searchDone, h.slot, Nat.mod_eq_of_lt (by omega : size < 32)] at told
  rw [State.finished, h.slot]
  exact told

/-- The POOL SHORT notice of one whose plan misses blocks (R112). -/
theorem State.Fills.poolShort (h : s.Fills i q P X v) (short : (X ++ s.pool.fifo).length < (q.missing P).length)
    (mask : maskBit s.profile.noticeMask 3 = true) (room : s.lane.queue.length ≤ 14) (small : P.length ≤ 16) (size first : Nat) :
    ⟨.notice 3 (BitVec.ofNat 16 (s.slotOf i % 128 * 512 + ((q.missing P).length - (X ++ s.pool.fifo).length) * 16)) s.me, s.frame, none⟩
      ∈ (v.finished i size first).lane.queue := by
  have within : (q.missing P).length ≤ P.length := List.length_filter_le _ _
  have told := State.mem_notify (s := s) (kind := 3) (fs := [(7, s.slotOf i), (5, (q.missing P).length - (X ++ s.pool.fifo).length)])
    mask (by omega)
  rw [packLeft_poolShort, Nat.mod_eq_of_lt (by omega : (q.missing P).length - (X ++ s.pool.fifo).length < 32)] at told
  have lane := h.lane
  rw [if_pos short] at lane
  refine Machine.mem_notify_of_mem (s := (v.modSearch i fun r => { r with dwell := 0 }).modServing i fun sv => { sv with pathRun := 0 }) ?_ ?_
  · rw [State.modServing_lane, State.modSearch_lane]
    exact h.lane_room room
  · rw [State.modServing_lane, State.modSearch_lane, lane]
    exact told

/-! ### The two commands -/

theorem unbind_nil (i : Nat) (s : State) (q : SearchRecord) : unbind i [] (s.judged i q) = s.judged i q := by
  have same : q.unbound [] = q := by
    rw [SearchRecord.unbound]
    simp
  rw [unbind_eq, List.foldl_nil, State.judged, State.modSearch, State.modSearch, modCtx_modCtx]
  dsimp only
  rw [Option.map_map, show (fun r : SearchRecord => r.unbound []) ∘ (fun _ => q) = fun _ => q from funext fun _ => same]
  rfl

/-- EVALUATION with nothing left to do, and SETTLE, end the search on its retained set (R84, R89). -/
theorem exec_searchEnd {k : BitVec 4} {c : Instr} (h : s.servesWith slot.toNat i sv) (hc : (s.ctx i).callState = .search)
    (hr : (s.ctx i).search = some r) (queue : s.pool.shortfall = []) (order : s.significantOrder r S)
    (ends : (c = .settle slot k ∧ s.hearsCard k)
      ∨ (c = .evaluation slot ∧ r.status = .inPass ∧ 64 ≤ r.dwell ∧ sv.failed = []
        ∧ (r.unexplored (s.profileOf i).reach = []
          ∨ (r.spare = [] ∧ S.length = r.bound.length ∧ S.length ≤ (s.profileOf i).budget)))) :
    exec c s = .next (perform [.searchEnd i] (s.judged i (r.retaining ((S.map (·.1)).take (s.profileOf i).budget)))) := by
  rcases ends with ⟨rfl, hears⟩ | ⟨rfl, pass, dwell, failed, last⟩
  · have settles : settleSlot i s = settleSearch i s := if_pos ⟨h.serves, hc⟩
    refine congrArg Host.Outcome.next ((Laws.slotControl_held slot 5 0 s k i hears h.2.1).trans (settles.trans ?_))
    rw [settleSearch, judgeSegments_of_order hr order, State.judged, State.modSearch, State.modSearch, State.modCtx, State.modCtx, hr]
    rfl
  · rw [exec_evaluation h hc hr pass dwell order, failed, nextStep_judged]
    generalize hR : (S.map (·.1)).take (s.profileOf i).budget = R
    have none : ((r.gone R).filter fun jb => ([] : List Nat).contains jb.1) = [] := List.filter_eq_nil_iff.2 fun _ _ => nofun
    rw [none, unbind_nil, queue]
    rcases last with seen | ⟨spare, all, fits⟩
    · rw [if_pos seen]
    · have whole : ∀ jb ∈ r.bound, jb ∈ S := fun jb hjb => by
        obtain ⟨perm, -⟩ := order
        have size := perm.length_eq
        have same := List.filter_eq_self.1 (List.filter_sublist.eq_of_length (by rw [← size, all]))
        exact perm.mem_iff.2 (List.mem_filter.2 ⟨hjb, same jb hjb⟩)
      have empty : r.gone R = [] := List.filter_eq_nil_iff.2 fun jb hjb => by
        rw [← hR, List.take_of_length_le (by rw [List.length_map]; exact fits)]
        simp only [Bool.not_eq_true, Bool.not_eq_false', List.contains_iff_mem]
        exact List.mem_map_of_mem (whole jb hjb)
      rw [if_neg (c := r.gone R ≠ [] ∨ r.spare ≠ []) (by simp [empty, spare]),
        if_neg (c := ([] : List Nat).contains i = true) nofun, ite_self]

end Plans

/-- Settles O40: the plan and its blocks at a search end. -/
theorem searchEndPlansAndFills : Obligations.SearchEndPlansAndFills := by
  intro s slot k c i sv r S X h hc hr pool queue order significant budget small ends
  dsimp only
  intro perm sorted unmarked
  have sound := poolSound_sound pool hr
  have act := exec_searchEnd h hc hr queue order ends
  have free := poolSound_freeSound pool
  generalize hR : (S.map (·.1)).take (s.profileOf i).budget = R at *
  have retained : R ≠ [] := fun none => by
    rw [none] at hR
    rcases List.take_eq_nil_iff.1 hR with zero | empty
    · omega
    · exact significant (List.map_eq_nil_iff.1 empty)
  have bound_nodup : (r.bound.map (·.1)).Nodup := sound.distinct.sublist r.bound_fst_sublist
  have nodupR : R.Nodup := by
    rw [← hR]
    obtain ⟨order, -⟩ := order
    exact ((order.map _).nodup_iff.2 (bound_nodup.sublist (List.filter_sublist.map _))).sublist (List.take_sublist _ _)
  have few : R.length ≤ (s.profileOf i).budget := by rw [← hR]; exact List.length_take_le _ _
  generalize hP : ((R ++ R.flatMap fun j => (if 0 < j then [j - 1] else []) ++ if j + 1 < (s.profileOf i).reach then [j + 1] else []).eraseDups).take
    (s.profileOf i).budget = P at *
  have search : ((s.judged i (r.retaining R)).ctx i).search = some (r.retaining R) := by
    rw [State.judged, State.ctx_modSearch_self _ _ _ (lt_of_search hr), hr]
    rfl
  have read : ∀ b, (s.judged i (r.retaining R)).tapBlock b = s.tapBlock b := fun b => State.modSearch_tapBlock _ _ _ _
  have profile : (s.judged i (r.retaining R)).profileOf i = s.profileOf i := profileOf_modCtx fun _ => rfl
  have slot' : (s.judged i (r.retaining R)).slotOf i = s.slotOf i := slotOf_modCtx fun _ => rfl
  have plan : (s.judged i (r.retaining R)).planOf i (r.retaining R) = P := by
    rw [State.planOf, State.reachOf, profile, ← hP]
    exact buildPlan_closed nodupR few
  have sources : (r.retaining R).sources P = X := by
    refine sortNums_eq_of_perm sorted (perm.trans (.of_eq ?_))
    refine congrArg (fun l : List (Nat × Nat) => l.map (·.2) ++ r.spare) (List.filter_congr fun jb _ => ?_)
    simp
  have inX : ∀ b ∈ X, b ∈ r.blocks := fun b hb => by
    rw [← sources] at hb
    exact SearchRecord.sources_blocks (r := r.retaining R) hb
  have nodup : (X ++ s.pool.fifo).Nodup := List.nodup_append.2 ⟨sorted.imp fun h => Nat.ne_of_lt h, free.nodup,
    fun a ha b hb he => sound.owns.fifo a (inX a ha) (he ▸ hb)⟩
  have inPool : ∀ b ∈ X ++ s.pool.fifo, b < s.pool.blocks.length := fun b hb =>
    (List.mem_append.1 hb).elim (fun hb => sound.inPool b (inX b hb)) (free.inPool b)
  obtain ⟨v, fills, ended⟩ := searchEnd_plans (s := s.judged i (r.retaining R)) search retained queue plan sources nodup inPool
    (length_le_of_nodup (sorted.imp fun h => Nat.ne_of_lt h) fun b hb => free.few ▸ sound.inPool b (inX b hb))
    fun b hb => by rw [read]; exact unmarked b hb
  have self := fills.self
  have own : ((s.judged i (r.retaining R)).ctx i) = (s.ctx i).searching (r.retaining R) := by
    rw [State.judged, State.ctx_modSearch_self _ _ _ (lt_of_search hr), hr]
    rfl
  rw [own] at self
  have searchV : (v.ctx i).search = some ((r.retaining R).filled P (X ++ s.pool.fifo)) := by rw [self]; rfl
  have last := finished_ctx (lt_of_search searchV) searchV P.length (P.headD 0)
  rw [self] at last
  have size : P.length ≤ 16 := by
    rw [← hP]
    exact (List.length_take_le _ _).trans small
  have outside : (perform [.searchEnd i] (s.judged i (r.retaining R))).outside = s.outside := by simp [State.judged]
  have others : ∀ n, ((perform [.searchEnd i] (s.judged i (r.retaining R))).ctx n).steady = (s.ctx n).steady := fun n => by
    simp [State.judged]
  rw [ended] at outside others
  have bound := fun jb => mem_filled_bound (P := P) (bs := X ++ s.pool.fifo) (jb := jb) (r := r.retaining R) sound.distinct
  refine ⟨_, _, { sv with pathRun := 0 }, act.trans (congrArg Host.Outcome.next ended), (congrArg Context.search last :), ?_,
    (congrArg Context.callState last :), rfl, filled_numbers _ _ _, rfl, rfl, rfl, rfl, rfl, rfl, fun jb hjb hm => ⟨(bound jb).2 (.inl ⟨hjb, hm⟩), ?_⟩,
    fun jb hjb => ⟨(bound jb).2 (.inr hjb), ?_⟩, filled_length _ _ _, ?_, ?_, fun mask room => ?_, fun short mask room => ?_, outside,
    fun n _ => others n⟩
  · rw [last]
    exact congrArg (Option.map _) h.2.2.2
  · rw [finished_tapBlock, fills.stand jb.2 fun hb => ?_, read]
    rcases List.mem_append.1 hb with hb | hb
    · obtain ⟨bound_nodup, -, apart⟩ := List.nodup_append.1 sound.nodup
      have there := List.mem_map_of_mem (f := fun jb : Nat × Nat => jb.2) hjb
      rcases List.mem_append.1 (perm.mem_iff.1 hb) with hb | hb
      · obtain ⟨x, hx, he⟩ := List.mem_map.1 hb
        obtain ⟨hx, out⟩ := List.mem_filter.1 hx
        rw [List.inj_on_of_nodup_map bound_nodup hx hjb he] at out
        exact of_decide_eq_true out hm
      · exact apart jb.2 there jb.2 hb rfl
    · exact sound.owns.fifo jb.2 (List.mem_append_left _ (List.mem_map_of_mem hjb)) hb
  · obtain ⟨state, owner, segment, entries⟩ := fills.bound jb hjb
    rw [slot'] at owner
    rw [finished_tapBlock]
    exact ⟨state, owner, segment, entries⟩
  · rw [finished_pool]
    exact fills.fifo
  · rw [finished_pool]
    exact fills.shortfall
  · have told := fills.searchDone (first := P.headD 0) mask room size
    rw [slot'] at told
    exact told
  · have told := fills.poolShort short mask room size P.length (P.headD 0)
    rw [slot'] at told
    exact told

end Sys2Proof.Machine

namespace Sys2Proof.Machine

open Sys2Proof

/-! ## A block for the head of the shortfall queue (R91, R102, R103) -/

section Delivery

variable {s t u : State} {h g b i : Nat} {r : SearchRecord} {rest : List Nat}

theorem setFill_other {j : Nat} {f : Fill} {map : List Segment} (out : j ∉ map.map (·.number)) : setFill j f map = map := by
  refine (List.map_congr_left fun e he => ?_).trans (List.map_id map)
  exact if_neg fun same => out (List.mem_map.2 ⟨e, he, same⟩)

/-- Filling the first unfilled segment of a plan binds its block and nothing else (R91). -/
theorem setFill_bound {map : List Segment} {e : Segment} (nodup : (map.map (·.number)).Nodup)
    (found : map.find? (fun e => e.fill == .unfilled) = some e) :
    (boundIn (setFill e.number (.block g) map)).Perm ((e.number, g) :: boundIn map) := by
  induction map with
  | nil => cases found
  | cons x map ih =>
    obtain ⟨out, rest⟩ := List.nodup_cons.1 nodup
    have step : setFill e.number (.block g) (x :: map) =
        (if x.number = e.number then { x with fill := .block g } else x) :: setFill e.number (.block g) map := rfl
    rw [List.find?_cons] at found
    by_cases hx : x.fill = .unfilled
    · have hit : (x.fill == Fill.unfilled) = true := by rw [hx]; rfl
      rw [hit] at found
      obtain rfl : x = e := Option.some.inj found
      have bare : x.block? = none := by rw [Segment.block?, hx]
      rw [step, if_pos rfl, setFill_other out, boundIn_cons, boundIn_cons, bare]
      exact .refl _
    · have miss : (x.fill == Fill.unfilled) = false := by simpa using hx
      rw [miss] at found
      have other : x.number ≠ e.number := fun same => out (List.mem_map.2 ⟨e, List.mem_of_find?_eq_some found, same.symm⟩)
      rw [step, if_neg other, boundIn_cons, boundIn_cons]
      exact ((ih rest found).append_left _).trans List.perm_middle

/-- `w` is `s` with the block g in the hand of context h, whose record is now `r'` (R91). -/
structure State.Delivers (s : State) (h g : Nat) (r : SearchRecord) (w : State) (r' : SearchRecord) : Prop where
  own : w.ctx h = (s.ctx h).searching r'
  fifo : w.pool.fifo = s.pool.fifo
  shortfall : w.pool.shortfall = s.pool.shortfall
  stand : ∀ b, b ≠ g → w.tapBlock b = s.tapBlock b
  owner : (w.tapBlock g).owner = some ⟨h, s.slotOf h⟩
  want : r'.want = r.want
  held : r'.held = r.held + 1
  outside : w.outside = s.outside
  hand : (s.ctx h).callState = .search → r.status = .inPass →
    r'.spare.Perm (g :: r.spare) ∧ r'.map = r.map ∧ r'.pass = r.pass ∧ r'.dwell = r.dwell
      ∧ (w.tapBlock g).state = .reserved ∧ (w.tapBlock g).segment = none
  pass : ∀ j, (s.ctx h).callState = .search → r.status = .waiting → r.spare = [] →
    (r.unexplored (s.profileOf h).reach).head? = some j →
    (j, g) ∈ r'.bound ∧ r'.bound.length = r.bound.length + 1 ∧ j ∈ r'.explored ∧ r'.spare = []
      ∧ r'.pass = min 255 (r.pass + 1) ∧ r'.status = .inPass ∧ r'.dwell = 0 ∧ (w.tapBlock g).BoundTo ⟨h, s.slotOf h⟩ j
  plan : ∀ e, r.map.find? (fun e => e.fill == .unfilled) = some e → (s.ctx h).callState = .track →
    r'.map = r.map.map (fun x => if x.number = e.number then { x with fill := .block g } else x)
      ∧ (w.tapBlock g).BoundTo ⟨h, s.slotOf h⟩ e.number

/-- A change of block g and of context h's record. -/
theorem modBlock_modSearch (hr : (s.ctx h).search = some r) (f : TapBlock → TapBlock) (q : SearchRecord → SearchRecord) :
    ((s.modBlock g f).modSearch h q).ctx h = (s.ctx h).searching (q r)
      ∧ ∀ b, b ≠ g → ((s.modBlock g f).modSearch h q).tapBlock b = s.tapBlock b := by
  refine ⟨?_, fun b hb => ?_⟩
  · rw [State.ctx_modSearch_self _ _ _ (by simpa using lt_of_search hr), State.modBlock_ctx, hr]
    rfl
  · rw [State.modSearch_tapBlock, State.tapBlock_modBlock_ne s g b f hb.symm]

/-- Into the spare hand of a search in a pass (R91). -/
theorem placeBlock_hand (hr : (s.ctx h).search = some r) (hc : (s.ctx h).callState = .search) (pass : r.status = .inPass)
    (queue : s.pool.shortfall = h :: rest) (inPool : g < s.pool.blocks.length) (fresh : g ∉ r.spare) :
    ∃ w, placeBlock g s = (w, [.checkMet h]) ∧ s.Delivers h g r w { r with spare := insertNum g r.spare } := by
  obtain ⟨own, stand⟩ := modBlock_modSearch (g := g) hr (TapBlock.reservedBy ⟨h, s.slotOf h⟩) fun r => { r with spare := insertNum g r.spare }
  have act : placeBlock g s = ((s.reserveBlock h g).modSearch h fun r => { r with spare := insertNum g r.spare }, [.checkMet h]) := by
    rw [placeBlock, queue]
    dsimp only
    rw [hc, hr]
    dsimp only
    rw [pass]
  have taken : ((s.reserveBlock h g).modSearch h fun r => { r with spare := insertNum g r.spare }).tapBlock g =
      (s.tapBlock g).reservedBy ⟨h, s.slotOf h⟩ := by
    rw [State.modSearch_tapBlock]
    exact State.tapBlock_modBlock_self s g _ inPool
  refine ⟨_, act, own, rfl, rfl, stand, ?_, rfl, ?_, by simp, fun _ _ => ⟨insertNum_perm fresh, rfl, rfl, rfl, ?_, ?_⟩, fun j _ waits => ?_,
    fun e _ track => ?_⟩
  · rw [taken]
    rfl
  · have size := (insertNum_perm fresh).length_eq
    show _ + (insertNum g r.spare).length = _
    rw [size]
    rfl
  · rw [taken]
    rfl
  · rw [taken]
    rfl
  · rw [pass] at waits
    cases waits
  · rw [hc] at track
    cases track

/-- To the first unfilled segment of a plan (R91). -/
theorem placeBlock_plan {e : Segment} (hr : (s.ctx h).search = some r) (hc : (s.ctx h).callState = .track)
    (queue : s.pool.shortfall = h :: rest) (inPool : g < s.pool.blocks.length) (nodup : r.Distinct)
    (found : r.map.find? (fun e => e.fill == .unfilled) = some e) :
    ∃ w, placeBlock g s = (w.leaveIfMet h, []) ∧ s.Delivers h g r w { r with map := setFill e.number (.block g) r.map } := by
  obtain ⟨own, stand⟩ := modBlock_modSearch (g := g) hr (TapBlock.boundTo ⟨h, s.slotOf h⟩ e.number)
    fun r => { r with map := setFill e.number (.block g) r.map }
  have first : firstUnfilled r.map = some e.number := by rw [firstUnfilled, found]; rfl
  have act : placeBlock g s =
      (((s.bindBlock h e.number g).modSearch h fun r => { r with map := setFill e.number (.block g) r.map }).leaveIfMet h, []) := by
    rw [placeBlock, queue]
    dsimp only
    rw [hc, hr]
    dsimp only
    rw [first]
  have taken : ((s.bindBlock h e.number g).modSearch h fun r => { r with map := setFill e.number (.block g) r.map }).tapBlock g =
      (s.tapBlock g).boundTo ⟨h, s.slotOf h⟩ e.number := by
    rw [State.modSearch_tapBlock]
    exact State.tapBlock_modBlock_self s g _ inPool
  refine ⟨_, act, own, rfl, rfl, stand, ?_, rfl, ?_, by simp, fun search => ?_, fun j search => ?_, fun e' found' _ => ?_⟩
  · rw [taken]
    rfl
  · have size := (setFill_bound (g := g) nodup found).length_eq
    show (boundIn (setFill e.number (.block g) r.map)).length + r.spare.length = (boundIn r.map).length + r.spare.length + 1
    rw [size, List.length_cons]
    omega
  · rw [hc] at search
    cases search
  · rw [hc] at search
    cases search
  · obtain rfl : e = e' := Option.some.inj (found.symm.trans found')
    refine ⟨rfl, ?_⟩
    rw [taken]
    exact TapBlock.boundTo_boundTo _ _ _

/-- A record with a block in an empty spare hand (R91). -/
def SearchRecord.holding (r : SearchRecord) (g : Nat) : SearchRecord := { r with spare := [g] }

theorem holding_passed {reach j : Nat} {unseen : List Nat} (lowest : r.unexplored reach = j :: unseen) :
    ((r.holding g).passed reach).bound.Perm (r.bound ++ [(j, g)]) ∧ j ∈ ((r.holding g).passed reach).explored := by
  have zipped : ((r.holding g).unexplored reach).zip (r.holding g).spare = [(j, g)] := by
    rw [show (r.holding g).unexplored reach = j :: unseen from lowest]
    exact congrArg (List.cons _) List.zip_nil_right
  constructor
  · have bound := SearchRecord.passed_bound (r.holding g) reach
    rwa [zipped] at bound
  · refine mem_foldl_insertNum.2 (.inl ⟨(j, g), ?_, rfl⟩)
    rw [zipped]
    exact List.mem_singleton.2 rfl

/-- A pass start on one block (R82). -/
theorem passStartTask_one {j : Nat} {unseen : List Nat} (hc : (s.ctx h).callState = .search) (hr : (s.ctx h).search = some (r.holding g))
    (lowest : r.unexplored (s.reachOf h) = j :: unseen) :
    passStartTask h s = ((s.bindAll h [(j, g)]).modSearch h fun _ => (r.holding g).passed (s.reachOf h), []) := by
  have seen : (r.holding g).unexplored (s.reachOf h) = j :: unseen := lowest
  have task := passStartTask_eq hc hr (by rw [seen]; exact List.cons_ne_nil _ _)
  have zipped : (j :: unseen).zip (r.holding g).spare = [(j, g)] := congrArg (List.cons _) List.zip_nil_right
  have gone : (r.holding g).spare.drop (j :: unseen).length = [] := List.drop_nil
  rw [seen, zipped, gone] at task
  exact task

/-- To the lowest unexplored segment of a WAITING search, which begins its pass (R82, R91). -/
theorem placeBlock_pass {j : Nat} {unseen : List Nat} (hr : (s.ctx h).search = some r) (hc : (s.ctx h).callState = .search)
    (waits : r.status = .waiting) (queue : s.pool.shortfall = h :: rest) (inPool : g < s.pool.blocks.length) (spare : r.spare = [])
    (lowest : r.unexplored (s.profileOf h).reach = j :: unseen) :
    ∃ v w, placeBlock g s = (v, [.passStart h, .checkMet h]) ∧ doTask (.passStart h) v = (w, [])
      ∧ s.Delivers h g r w ((r.holding g).passed (s.profileOf h).reach) := by
  have act : placeBlock g s =
      ((s.reserveBlock h g).modSearch h fun r => { r with spare := insertNum g r.spare }, [.passStart h, .checkMet h]) := by
    rw [placeBlock, queue]
    dsimp only
    rw [hc, hr]
    dsimp only
    rw [waits]
  obtain ⟨own, stand⟩ : ((s.reserveBlock h g).modSearch h fun r => { r with spare := insertNum g r.spare }).ctx h =
      (s.ctx h).searching { r with spare := insertNum g r.spare }
      ∧ ∀ b, b ≠ g → ((s.reserveBlock h g).modSearch h fun r => { r with spare := insertNum g r.spare }).tapBlock b = s.tapBlock b :=
    modBlock_modSearch hr _ _
  have out : ((s.reserveBlock h g).modSearch h fun r => { r with spare := insertNum g r.spare }).outside = s.outside := by simp
  have pool : ((s.reserveBlock h g).modSearch h fun r => { r with spare := insertNum g r.spare }).pool = (s.reserveBlock h g).pool :=
    State.modSearch_pool _ _ _
  generalize ((s.reserveBlock h g).modSearch h fun r => { r with spare := insertNum g r.spare }) = v at act own out pool stand
  have slot : v.slotOf h = s.slotOf h := by
    rw [State.slotOf, own]
    rfl
  have record : (v.ctx h).search = some (r.holding g) := by
    rw [own, spare]
    rfl
  have reaches : v.reachOf h = (s.profileOf h).reach := by
    rw [State.reachOf, State.profileOf_congr (State.outside_profile out) (by rw [own]; rfl)]
  have task := passStartTask_one (s := v) (unseen := unseen) (by rw [own]; exact hc) record (by rw [reaches]; exact lowest)
  rw [reaches] at task
  obtain ⟨bound, explored⟩ := holding_passed (g := g) lowest
  have length := bound.length_eq
  rw [List.length_append, List.length_singleton] at length
  obtain ⟨taken, still⟩ := State.bindAll_tapBlock (s := v) (i := h) (pairs := [(j, g)]) (List.nodup_singleton g)
    (fun jb hjb => by rw [List.mem_singleton.1 hjb, State.outside_blocks out]; exact inPool)
  have mine : ((v.bindAll h [(j, g)]).modSearch h fun _ => (r.holding g).passed (s.profileOf h).reach).tapBlock g =
      (v.tapBlock g).boundTo ⟨h, s.slotOf h⟩ j := by
    rw [State.modSearch_tapBlock, taken (j, g) (List.mem_singleton.2 rfl), slot]
  refine ⟨v, _, act, task, ?_, ?_, ?_, fun b hb => ?_, by rw [mine]; rfl, rfl, ?_, ?_, fun _ pass => ?_, fun k _ _ _ head => ?_, fun e _ track => ?_⟩
  · rw [State.ctx_modSearch_self _ _ _ (by rw [State.bindAll_table]; exact lt_of_search record), State.bindAll_ctx, record, own]
    rfl
  · rw [State.modSearch_pool, State.bindAll_fifo, pool]
    rfl
  · rw [State.modSearch_pool, State.bindAll_shortfall, pool]
    rfl
  · rw [State.modSearch_tapBlock, still b fun jb hjb he => hb (by rw [← he, List.mem_singleton.1 hjb]), stand b hb]
  · show ((r.holding g).passed (s.profileOf h).reach).bound.length + 0 = r.bound.length + r.spare.length + 1
    rw [length, spare]
    rfl
  · refine (State.outside_modSearch _ _ _).trans (Eq.trans ?_ out)
    exact State.outside_foldl _ (by simp) _ _
  · rw [waits] at pass
    cases pass
  · rw [lowest] at head
    obtain rfl : j = k := Option.some.inj head
    refine ⟨bound.mem_iff.2 (List.mem_append_right _ (List.mem_singleton.2 rfl)), length, explored, rfl, rfl, rfl, rfl, ?_⟩
    rw [mine]
    exact TapBlock.boundTo_boundTo _ _ _
  · rw [hc] at track
    cases track

end Delivery

end Sys2Proof.Machine

namespace Sys2Proof.Machine

open Sys2Proof

/-! ## The block of a call that ends goes to the head of the shortfall queue (R103, R109, R111) -/

section Served

variable {s t u v w : State} {h g b i : Nat} {r : SearchRecord} {rest : List Nat}

/-- Context h, at the head of the shortfall queue, can take the block g at once (R91). -/
structure State.Awaits (s : State) (h g : Nat) (r : SearchRecord) (rest : List Nat) : Prop where
  search : (s.ctx h).search = some r
  queue : s.pool.shortfall = h :: rest
  inPool : g < s.pool.blocks.length
  fresh : g ∉ r.spare
  distinct : r.Distinct
  ready : ((s.ctx h).callState = .track ∧ ∃ e, r.map.find? (fun e => e.fill == .unfilled) = some e)
    ∨ ((s.ctx h).callState = .search ∧ (r.status = .inPass ∨ r.spare = [] ∧ r.unexplored (s.profileOf h).reach ≠ []))

theorem State.Awaits.of_same (a : s.Awaits h g r rest) (ctx : u.ctx h = s.ctx h) (queue : u.pool.shortfall = s.pool.shortfall)
    (outside : u.outside = s.outside) : u.Awaits h g r rest := by
  have profile : u.profileOf h = s.profileOf h := State.profileOf_congr (State.outside_profile outside) (by rw [ctx])
  exact ⟨ctx ▸ a.search, queue ▸ a.queue, State.outside_blocks outside ▸ a.inPool, a.fresh, a.distinct, by rw [ctx, profile]; exact a.ready⟩

/-- The block is placed, and the context leaves the queue when it has its want (R91, R103). -/
theorem State.Awaits.places (a : s.Awaits h g r rest) : ∃ w r', s.Delivers h g r w r'
    ∧ ∀ fuel, runTasks (fuel + 2) (placeBlock g s).2 (placeBlock g s).1 = w.leaveIfMet h := by
  rcases a.ready with ⟨track, e, found⟩ | ⟨state, ready⟩
  · obtain ⟨w, act, given⟩ := placeBlock_plan a.search track a.queue a.inPool a.distinct found
    exact ⟨w, _, given, fun fuel => by rw [act, runTasks_nil]⟩
  · cases status : r.status with
    | inPass =>
      obtain ⟨w, act, given⟩ := placeBlock_hand a.search state status a.queue a.inPool a.fresh
      exact ⟨w, _, given, fun fuel => by rw [act, runTasks, doTask, List.append_nil, runTasks_nil]⟩
    | waiting =>
      obtain ⟨spare, unseen⟩ := ready.resolve_left (by rw [status]; exact nofun)
      obtain ⟨j, others, lowest⟩ := List.exists_cons_of_ne_nil unseen
      obtain ⟨v, w, act, task, given⟩ := placeBlock_pass a.search state status a.queue a.inPool spare lowest
      exact ⟨w, _, given, fun fuel => by rw [act, runTasks, task, List.nil_append, runTasks, doTask, List.append_nil, runTasks_nil]⟩

/-! ### The release -/

/-- `v` is `u` with block b failed, if it was marked; nothing else is touched but notices (R109). -/
structure State.Retires (u : State) (b : Nat) (v : State) : Prop where
  ctx : ∀ k, v.ctx k = u.ctx k
  fifo : v.pool.fifo = u.pool.fifo
  shortfall : v.pool.shortfall = u.pool.shortfall
  outside : v.outside = u.outside
  failed : (u.tapBlock b).retirePending = true → (v.tapBlock b).state = .failed ∧ (v.tapBlock b).retirePending = false

theorem State.Retires.notify (h : u.Retires b v) (kind : Nat) (fs : List Field) : u.Retires b (v.notify kind fs) := by
  refine ⟨fun k => (State.notify_ctx v kind fs k).trans (h.ctx k), ?_, ?_, (by simp : (v.notify kind fs).outside = v.outside).trans h.outside,
    fun marked => ?_⟩
  · rw [State.notify_pool]
    exact h.fifo
  · rw [State.notify_pool]
    exact h.shortfall
  · rw [State.notify_tapBlock]
    exact h.failed marked

/-- The release of a block places it, or the lowest SPARE block in its stead (R103, R109, R111). -/
theorem releaseTask_retires (inPool : b < u.pool.blocks.length) (inService : (u.tapBlock b).state ≠ .spare)
    (gives : ((u.tapBlock b).retirePending = false ∧ g = b) ∨ ((u.tapBlock b).retirePending = true ∧ u.lowestSpare = [g])) :
    ∃ v, u.Retires b v ∧ releaseTask b u = placeBlock g v := by
  rcases gives with ⟨clear, rfl⟩ | ⟨marked, lowest⟩
  · refine ⟨u, ⟨fun _ => rfl, rfl, rfl, rfl, fun marked => ?_⟩, if_neg (by simp [clear])⟩
    rw [clear] at marked
    cases marked
  · have retires : u.Retires b ((u.failBlock b (u.tapBlock b).corrected).noticeRetired b 2) := by
      refine State.Retires.notify (u := u) (b := b) (v := u.failBlock b (u.tapBlock b).corrected) ⟨fun _ => rfl, rfl, rfl, by simp, fun _ => ?_⟩ 5 _
      rw [State.failBlock, State.tapBlock_modBlock_self u b _ inPool]
      exact ⟨rfl, rfl⟩
    have same : ((u.failBlock b (u.tapBlock b).corrected).noticeRetired b 2).lowestSpare = u.lowestSpare := by
      refine State.lowestSpare_congr (State.outside_blocks retires.outside) fun c => ?_
      by_cases hc : c = b
      · rw [hc, (retires.failed marked).1]
        cases state : (u.tapBlock b).state <;> simp_all
      · rw [State.noticeRetired, State.notify_tapBlock, State.failBlock, State.tapBlock_modBlock_ne u b c _ (Ne.symm hc)]
    have act : releaseTask b u = promoteTask ((u.failBlock b (u.tapBlock b).corrected).noticeRetired b 2) := if_pos marked
    rw [act]
    generalize (u.failBlock b (u.tapBlock b).corrected).noticeRetired b 2 = v at retires same
    rw [lowest, State.lowestSpare, ← State.indicesFrom_blocks] at same
    cases spares : indicesFrom (fun t : TapBlock => t.state == .spare) 0 v.pool.blocks with
    | nil =>
      rw [spares] at same
      cases same
    | cons c others =>
      rw [spares] at same
      obtain rfl : c = g := (List.cons.inj same).1
      refine ⟨if others = [] then v.notify 6 [(9, v.countBlocks .failed)] else v, ?_, ?_⟩
      · split
        · exact retires.notify 6 _
        · exact retires
      · rw [promoteTask, spares]

/-! ### The context afterwards -/

theorem leaveIfMet_pool (w : State) (h : Nat) :
    (w.leaveIfMet h).pool = if w.shortOf h = 0 then { w.pool with shortfall := w.pool.shortfall.erase h } else w.pool := by
  unfold State.leaveIfMet
  split
  · exact State.leaveShortfall_pool w h
  · rfl

theorem leaveIfMet_tapBlock (w : State) (h b : Nat) : (w.leaveIfMet h).tapBlock b = w.tapBlock b := by
  rw [State.tapBlock, leaveIfMet_pool, State.tapBlock]
  split <;> rfl

/-- An open offer is cancelled by leaving the queue (R161). -/
theorem leaveShortfall_cancels (hi : h < w.table.contexts.length) (hm : h ∈ w.pool.shortfall) (role : (w.ctx h).role = .homeOffering)
    (stop : (w.ctx h).stopAt = none) : ((w.leaveShortfall h).ctx h).role = .homeServing ∧ ((w.leaveShortfall h).ctx h).offer = none := by
  have left : w.leaveShortfall h = ({ w with pool := { w.pool with shortfall := w.pool.shortfall.erase h } } : State).cancelOffer h :=
    if_pos (by simpa using hm)
  rw [left]
  generalize same : ({ w with pool := { w.pool with shortfall := w.pool.shortfall.erase h } } : State) = u
  have ctx : u.ctx h = w.ctx h := by rw [← same]; rfl
  have length : h < u.table.contexts.length := by rw [← same]; exact hi
  unfold State.cancelOffer
  dsimp only
  rw [if_pos ⟨by rw [ctx]; exact role, by rw [ctx]; exact stop⟩, State.ctx_modCtx_self _ _ _ (by simpa using length)]
  exact ⟨rfl, rfl⟩

theorem enterPassing_idle (i : Nat) (s : State) : enterPassing i .idle s = clearTone i
    ((releaseHeld i (s.modCtx i fun c => { c with callState := .idle })).modCtx i fun c => { c with toneHold := false }) := by
  unfold enterPassing
  generalize releaseHeld i (s.modCtx i fun c => { c with callState := .idle }) = u
  dsimp only
  rw [if_neg (show ¬ CallState.idle = .disabled from nofun)]

/-- A call end in SEARCH or TRACK writes its own context after the release of its blocks (R25, R28). -/
theorem endCall_beside (hi : i < s.table.contexts.length) (hp : (s.ctx i).callState.processes = true) (hb : s.heldBlocks i = [b])
    (hq : i ∉ s.pool.shortfall) :
    ∃ u, (∀ k, k ≠ i → u.ctx k = s.ctx k) ∧ u.pool = s.pool ∧ u.outside = s.outside
      ∧ (∀ k, k ≠ i → (endCall i s).ctx k = (perform [.release b] u).ctx k) ∧ (endCall i s).pool = (perform [.release b] u).pool := by
  have hung : (s.modServing i Serving.hungUp).ctx i = { s.ctx i with serving := (s.ctx i).serving.map Serving.hungUp } := hungUp_ctx hi
  have ended : endCall i s = callEnded i (s.modServing i Serving.hungUp) := rfl
  have ends : callEnded i (s.modServing i Serving.hungUp) = enterPassing i .idle (s.modServing i Serving.hungUp) :=
    callEnded_of_call (.inl (by rw [hung]; exact hp))
  have others : ∀ k, k ≠ i → ((s.modServing i Serving.hungUp).modCtx i fun c => { c with callState := .idle }).ctx k = s.ctx k := fun k hk => by
    rw [State.ctx_modCtx_ne _ _ _ _ hk.symm, State.ctx_modServing_ne _ _ _ _ hk.symm]
  have search : (((s.modServing i Serving.hungUp).modCtx i fun c => { c with callState := .idle }).ctx i).search = (s.ctx i).search := by
    rw [State.ctx_modCtx_self _ _ _ (by simpa using hi), hung]
  have out : ((s.modServing i Serving.hungUp).modCtx i fun c => { c with callState := .idle }).outside = s.outside := by simp
  have pool : ((s.modServing i Serving.hungUp).modCtx i fun c => { c with callState := .idle }).pool = s.pool := rfl
  rw [ended, ends, enterPassing_idle]
  generalize (s.modServing i Serving.hungUp).modCtx i (fun c => { c with callState := .idle }) = v at others search out pool
  have blocks : (((v.cancelOffer i).leaveShortfall i).ctx i).search.elim [] (·.heldBlocks) = [b] := by
    rw [cancelOffer_search, search]
    unfold State.heldBlocks at hb
    cases hr : (s.ctx i).search with
    | none =>
      rw [hr] at hb
      cases hb
    | some r =>
      rw [hr] at hb
      exact sortNums_eq_of_perm (List.pairwise_singleton _ _) (.of_eq hb.symm)
  have given : releaseHeld i v = perform [.release b] (v.givenUp i) := by
    rw [releaseHeld_eq, blocks]
    rfl
  refine ⟨v.givenUp i, fun k hk => ?_, ?_, ?_, fun k hk => ?_, ?_⟩
  · rw [State.givenUp, State.ctx_modCtx_ne _ _ _ _ hk.symm, State.ctx_leaveShortfall_ne _ _ _ hk.symm, State.ctx_cancelOffer_ne _ _ _ hk.symm,
      others k hk]
  · rw [givenUp_pool, pool, List.erase_of_not_mem hq]
  · exact (by simp [State.givenUp] : (v.givenUp i).outside = v.outside).trans out
  · rw [clearTone, State.ctx_modServing_ne _ _ _ _ hk.symm, State.ctx_modCtx_ne _ _ _ _ hk.symm, given]
  · rw [clearTone, State.modServing_pool, State.modCtx_pool, given]

end Served

end Sys2Proof.Machine

namespace Sys2Proof.Machine

open Sys2Proof

section Head

variable {s : State} {h g b i : Nat} {r : SearchRecord} {rest : List Nat}

/-- In a sound pool the head of the shortfall queue awaits a block that another context gives up, or a SPARE one (R91, R102). -/
theorem poolSound_awaits (pool : s.poolSound) (queue : s.pool.shortfall = h :: rest) (hr : (s.ctx h).search = some r)
    (inPool : g < s.pool.blocks.length) (fresh : g ∉ s.heldBlocks h)
    (ready : (s.ctx h).callState = .track ∨ r.status = .inPass ∨ (r.spare = [] ∧ r.unexplored (s.profileOf h).reach ≠ [])) :
    s.Awaits h g r rest := by
  have sound := poolSound_sound pool hr
  obtain ⟨-, -, -, -, -, -, -, -, -, takes, -⟩ := pool
  refine ⟨hr, queue, inPool, fun hm => fresh ?_, sound.distinct, ?_⟩
  · rw [State.heldBlocks_of_search hr]
    exact List.mem_append_right _ hm
  · rcases takes h (by rw [queue]; exact List.mem_cons_self ..) with ⟨state, -⟩ | ⟨state, r', hr', e, he, unfilled⟩
    · exact .inr ⟨state, ready.resolve_left (by rw [state]; exact nofun)⟩
    · obtain rfl : r = r' := Option.some.inj (hr.symm.trans hr')
      exact .inl ⟨state, Option.isSome_iff_exists.1 (List.find?_isSome.2 ⟨e, he, by simpa using unfilled⟩)⟩

/-- The lowest SPARE block, named. -/
theorem lowestSpare_head (length : s.pool.blocks.length = 264)
    (head : ((List.range 264).filter fun a => (s.tapBlock a).state == .spare).head? = some g) : s.lowestSpare = [g] := by
  rw [State.lowestSpare_of_length length, List.take_one, head]
  rfl

end Head

/-- Settles O31: the block given up, or the promoted spare, goes into the hands of the context at the queue head. -/
theorem releasedBlockGoesToQueueHead : Obligations.ReleasedBlockGoesToQueueHead := by
  intro s slot i h b g sv r rest hs call ending hp pool held outq queue hr gives ready
  have served := hs.onServed (whenDue (fun _ sv => callEndDue sv) endCall)
  have act : exec (.callEnd slot) s = .next (endCall i s) :=
    congrArg Host.Outcome.next (served.trans (whenDue_of_due hs.2.2.2 (by simp [callEndDue, call, ending])))
  have other : h ≠ i := fun same => outq (by rw [queue, same]; exact List.mem_cons_self ..)
  have mem : b ∈ s.heldBlocks i := by rw [held]; exact List.mem_singleton.2 rfl
  have inService := heldBlocks_state pool mem
  have empty : s.pool.fifo = [] := by
    obtain ⟨-, -, -, -, -, -, -, -, stands, -⟩ := pool
    exact stands (by rw [queue]; exact List.cons_ne_nil _ _)
  obtain ⟨u, others, samePool, outside, own, ended⟩ := endCall_beside hs.lt hp held outq
  have read : ∀ c, u.tapBlock c = s.tapBlock c := fun c => by rw [State.tapBlock, samePool, State.tapBlock]
  -- the block that is placed
  have placed : (((s.tapBlock b).retirePending = false ∧ g = b) ∨ ((s.tapBlock b).retirePending = true ∧ s.lowestSpare = [g]))
      ∧ g < s.pool.blocks.length ∧ g ∉ s.heldBlocks h ∧ ((s.tapBlock b).retirePending = true → b ≠ g) := by
    rcases gives with ⟨clear, rfl⟩ | ⟨marked, lowest⟩
    · refine ⟨.inl ⟨clear, rfl⟩, heldBlocks_lt pool mem, fun hm => other ?_, fun marked => ?_⟩
      · exact Option.some.inj ((heldBlocks_owner pool hm).symm.trans (heldBlocks_owner pool mem))
      · rw [clear] at marked
        cases marked
    · have spare := lowestSpare_head pool.2.1 lowest
      obtain ⟨lt, state⟩ := State.mem_lowestSpare (s := s) (by rw [spare]; exact List.mem_singleton.2 rfl)
      refine ⟨.inr ⟨marked, spare⟩, lt, fun hm => ?_, fun _ same => ?_⟩
      · rcases heldBlocks_state pool hm with n | n <;> rw [state] at n <;> cases n
      · rw [same, state] at inService
        rcases inService with n | n <;> cases n
  obtain ⟨gives, inPool, fresh, apart⟩ := placed
  have lowest : u.lowestSpare = s.lowestSpare := State.lowestSpare_congr (State.outside_blocks outside) fun c => by rw [read]
  obtain ⟨v, retires, releases⟩ := releaseTask_retires (u := u) (b := b) (g := g) (by rw [samePool]; exact heldBlocks_lt pool mem)
    (by rw [read]; rcases inService with n | n <;> rw [n] <;> exact nofun) (by rw [read, lowest]; exact gives)
  have ctx : v.ctx h = s.ctx h := (retires.ctx h).trans (others h other)
  have queues : v.pool.shortfall = s.pool.shortfall := retires.shortfall.trans (congrArg (·.shortfall) samePool)
  have awaits := (poolSound_awaits pool queue hr inPool fresh ready).of_same ctx queues (retires.outside.trans outside)
  obtain ⟨w, r', given, run⟩ := awaits.places
  have done : perform [.release b] u = w.leaveIfMet h := by
    rw [perform, runTasks, doTask, releases, List.append_nil]
    exact run 4093
  rw [done] at own ended
  have slot' : v.slotOf h = s.slotOf h := by rw [State.slotOf, ctx, State.slotOf]
  have profile : v.profileOf h = s.profileOf h :=
    State.profileOf_congr (State.outside_profile (retires.outside.trans outside)) (by rw [ctx])
  obtain ⟨mine, fifo, shortfall, stand, owner, want, size, out, hand, pass, plan⟩ := given
  rw [ctx] at mine hand pass plan
  rw [slot'] at owner pass plan
  rw [profile] at pass
  have table : h < w.table.contexts.length := lt_of_search (r := r') (by rw [mine]; rfl)
  have search : ((w.leaveIfMet h).ctx h).search = some r' := by
    rw [Context.unoffered_search (State.unoffered_leaveIfMet w h h), mine]
    rfl
  have tapBlock : ∀ c, (endCall i s).tapBlock c = w.tapBlock c := fun c => by
    rw [State.tapBlock, ended]
    exact leaveIfMet_tapBlock w h c
  have short : w.shortOf h = r.want - (r.held + 1) := by
    rw [State.shortOf, mine, ← want, ← size]
    rfl
  have waiting : w.pool.shortfall = h :: rest := shortfall.trans (queues.trans queue)
  refine ⟨_, r', act, (congrArg Context.search (own h other)).trans search, fun marked => ?_, by rw [tapBlock]; exact owner, ?_, want,
    fun state status => by rw [tapBlock]; exact hand state status, fun j state waits spare head => ?_, fun e found track => ?_,
    fun met => ?_, fun unmet => ?_⟩
  · rw [tapBlock, stand b (apart marked)]
    exact retires.failed (by rw [read]; exact marked)
  · rw [ended, leaveIfMet_pool]
    have none : w.pool.fifo = [] := by rw [fifo, retires.fifo, samePool, empty]
    split <;> exact none
  · obtain ⟨bound, length, explored, spare, pass, status, dwell, state, -, segment, entries⟩ := pass j state waits spare head
    rw [tapBlock]
    exact ⟨bound, length, explored, spare, pass, status, dwell, state, segment, entries⟩
  · obtain ⟨map, state, -, segment, entries⟩ := plan e found track
    rw [tapBlock, own h other, callState_leaveIfMet, mine]
    exact ⟨map, track, state, segment, entries⟩
  · have leaves : w.leaveIfMet h = w.leaveShortfall h := if_pos (by rw [short]; omega)
    rw [ended, own h other, leaves]
    refine ⟨?_, fun role stop => leaveShortfall_cancels table (by rw [waiting]; exact List.mem_cons_self ..) (by rw [mine]; exact role)
      (by rw [mine]; exact stop)⟩
    rw [State.leaveShortfall_shortfall, waiting, List.erase_cons_head]
  · have stays : w.leaveIfMet h = w := if_neg (by rw [short]; omega)
    rw [ended, own h other, stays, mine]
    exact ⟨waiting, rfl, rfl⟩

end Sys2Proof.Machine

namespace Sys2Proof.Machine

open Sys2Proof

/-! ## The acts of a call end and what they never read of the highway -/

section OnLine

variable (s : State) (H : Highway) (k : Nat)

/-- The station with another state of its highway interface. -/
def State.onLine (s : State) (H : Highway) : State := { s with highway := H }

@[simp] theorem onLine_ctx : (s.onLine H).ctx k = s.ctx k := rfl
@[simp] theorem onLine_pool : (s.onLine H).pool = s.pool := rfl
@[simp] theorem onLine_lane : (s.onLine H).lane = s.lane := rfl
@[simp] theorem onLine_profile : (s.onLine H).profile = s.profile := rfl
@[simp] theorem onLine_slotOf : (s.onLine H).slotOf k = s.slotOf k := rfl
@[simp] theorem onLine_shortOf : (s.onLine H).shortOf k = s.shortOf k := rfl
@[simp] theorem onLine_profileOf : (s.onLine H).profileOf k = s.profileOf k := rfl
@[simp] theorem onLine_tapBlock : (s.onLine H).tapBlock k = s.tapBlock k := rfl
@[simp] theorem onLine_modCtx (f : Context → Context) : (s.onLine H).modCtx k f = (s.modCtx k f).onLine H := rfl
@[simp] theorem onLine_modSearch (f : SearchRecord → SearchRecord) : (s.onLine H).modSearch k f = (s.modSearch k f).onLine H := rfl
@[simp] theorem onLine_modServing (f : Serving → Serving) : (s.onLine H).modServing k f = (s.modServing k f).onLine H := rfl
@[simp] theorem onLine_toTrack : (s.onLine H).toTrack k = (s.toTrack k).onLine H := rfl
@[simp] theorem onLine_reserveBlock (b : Nat) : (s.onLine H).reserveBlock k b = (s.reserveBlock k b).onLine H := rfl
@[simp] theorem onLine_bindBlock (j b : Nat) : (s.onLine H).bindBlock k j b = (s.bindBlock k j b).onLine H := rfl
@[simp] theorem onLine_freeBlock : (s.onLine H).freeBlock k = (s.freeBlock k).onLine H := rfl
@[simp] theorem onLine_failBlock (n : Nat) : (s.onLine H).failBlock k n = (s.failBlock k n).onLine H := rfl
@[simp] theorem onLine_takeBlocks : (s.onLine H).takeBlocks k = ((s.takeBlocks k).1, (s.takeBlocks k).2.onLine H) := rfl

theorem onLine_setPool (p : Pool) : ({ s.onLine H with pool := p } : State) = State.onLine { s with pool := p } H := rfl

@[simp] theorem onLine_notify (kind : Nat) (fs : List Field) : (s.onLine H).notify kind fs = (s.notify kind fs).onLine H := by
  unfold State.notify
  rw [onLine_profile]
  split <;> rfl

@[simp] theorem onLine_noticeRetired (b n : Nat) : (s.onLine H).noticeRetired b n = (s.noticeRetired b n).onLine H := by
  simp [State.noticeRetired]

@[simp] theorem onLine_recall (p : Entry → Bool) : (s.onLine H).recall p = (s.recall p).onLine H := by
  unfold State.recall
  rw [onLine_lane]
  split <;> rfl

@[simp] theorem onLine_cancelOffer : (s.onLine H).cancelOffer k = (s.cancelOffer k).onLine H := by
  unfold State.cancelOffer
  simp only [onLine_ctx, onLine_slotOf, onLine_recall, onLine_modCtx]
  split <;> rfl

@[simp] theorem onLine_leaveShortfall : (s.onLine H).leaveShortfall k = (s.leaveShortfall k).onLine H := by
  unfold State.leaveShortfall
  rw [onLine_pool, onLine_setPool, onLine_cancelOffer]
  split <;> rfl

@[simp] theorem onLine_leaveIfMet : (s.onLine H).leaveIfMet k = (s.leaveIfMet k).onLine H := by
  unfold State.leaveIfMet
  rw [onLine_shortOf, onLine_leaveShortfall]
  split <;> rfl

@[simp] theorem onLine_joinShortfall : (s.onLine H).joinShortfall k = (s.joinShortfall k).onLine H := by
  unfold State.joinShortfall
  rw [onLine_shortOf, onLine_slotOf, onLine_pool, onLine_setPool, onLine_notify]
  split <;> rfl

theorem onLine_bindAll (l : List (Nat × Nat)) : l.foldl (fun s jb => s.bindBlock k jb.1 jb.2) (s.onLine H) =
    (l.foldl (fun s jb => s.bindBlock k jb.1 jb.2) s).onLine H := by
  induction l generalizing s with
  | nil => rfl
  | cons jb l ih => exact ih (s.bindBlock k jb.1 jb.2)

/-! ### Tasks -/

/-- An answer of a task on another highway. -/
def onLine (H : Highway) (r : State × List Task) : State × List Task := (r.1.onLine H, r.2)

theorem onLine_placeBlock (b : Nat) : placeBlock b (s.onLine H) = onLine H (placeBlock b s) := by
  unfold placeBlock
  rw [onLine_pool]
  split
  · rfl
  · simp only [onLine_ctx, onLine_reserveBlock, onLine_modSearch, onLine_bindBlock, onLine_leaveIfMet, onLine_freeBlock]
    split
    · rfl
    · split <;> rfl
    · rfl

theorem onLine_promoteTask : promoteTask (s.onLine H) = onLine H (promoteTask s) := by
  unfold promoteTask
  rw [onLine_pool]
  split
  · rfl
  · rw [show (s.onLine H).countBlocks .failed = s.countBlocks .failed from rfl, onLine_notify, ← onLine_placeBlock]
    split <;> rfl

theorem onLine_releaseTask (b : Nat) : releaseTask b (s.onLine H) = onLine H (releaseTask b s) := by
  unfold releaseTask
  rw [onLine_tapBlock, onLine_failBlock, onLine_noticeRetired, onLine_promoteTask, onLine_placeBlock]
  split <;> rfl

theorem onLine_passStartTask : passStartTask k (s.onLine H) = onLine H (passStartTask k s) := by
  unfold passStartTask State.reachOf
  simp only [onLine_ctx, onLine_profileOf, onLine_bindAll, onLine_modSearch, onLine_leaveShortfall]
  split
  · split
    · rfl
    · split <;> rfl
  · rfl

theorem onLine_fillMap (map : List Segment) (bs : List Nat) : (s.onLine H).fillMap k map bs =
    ((s.fillMap k map bs).1.onLine H, (s.fillMap k map bs).2) := by
  unfold State.fillMap
  simp only [onLine_bindAll, onLine_modSearch]

theorem onLine_searchEndTask : searchEndTask k (s.onLine H) = onLine H (searchEndTask k s) := by
  unfold searchEndTask State.reachOf
  simp only [onLine_ctx, onLine_profileOf, onLine_modSearch, onLine_leaveShortfall, onLine_toTrack, onLine_fillMap]
  split
  · rfl
  · split
    · rfl
    · split <;> rfl

theorem onLine_requestForPlan : requestForPlan k (s.onLine H) = (requestForPlan k s).onLine H := by
  unfold requestForPlan
  simp only [onLine_shortOf, onLine_ctx, onLine_pool, onLine_joinShortfall, onLine_takeBlocks, onLine_fillMap]
  split
  · rfl
  · split
    · rfl
    · exact (apply_ite (fun u : State => u.onLine H) _ _ _).symm

theorem onLine_finishSearchTask : finishSearchTask k (s.onLine H) = onLine H (finishSearchTask k s) := by
  unfold finishSearchTask
  simp only [onLine_requestForPlan, onLine_modSearch, onLine_modServing, onLine_ctx, onLine_slotOf, onLine_notify]
  rfl

/-- A task may be taken before or after a change of the highway. -/
theorem onLine_doTask (t : Task) : doTask t (s.onLine H) = onLine H (doTask t s) := by
  cases t with
  | release b => exact onLine_releaseTask s H b
  | promote => exact onLine_promoteTask s H
  | passStart k => exact onLine_passStartTask s H k
  | checkMet k => exact congrArg (fun u => (u, [])) (onLine_leaveIfMet s H k)
  | searchEnd k => exact onLine_searchEndTask s H k
  | finishSearch k => exact onLine_finishSearchTask s H k

theorem onLine_perform (ts : List Task) : perform ts (s.onLine H) = (perform ts s).onLine H := by
  unfold perform
  generalize 4096 = fuel
  induction fuel generalizing ts s with
  | zero => rfl
  | succ n ih =>
    cases ts with
    | nil => rfl
    | cons t ts =>
      rw [runTasks, onLine_doTask, runTasks]
      exact ih (doTask t s).1 ((doTask t s).2 ++ ts)

/-! ### Call ends -/

theorem onLine_releaseHeld : releaseHeld k (s.onLine H) = (releaseHeld k s).onLine H := by
  unfold releaseHeld
  simp only [onLine_cancelOffer, onLine_leaveShortfall, onLine_ctx, onLine_modCtx]
  exact onLine_perform _ H _

theorem onLine_enterPassing (st : CallState) : enterPassing k st (s.onLine H) = (enterPassing k st s).onLine H := by
  unfold enterPassing
  rw [onLine_modCtx, onLine_releaseHeld]
  generalize releaseHeld k (s.modCtx k fun c => { c with callState := st }) = u
  dsimp only
  split <;> rfl

/-- A call end never reads the highway (R13, R28). -/
theorem onLine_endCall : endCall k (s.onLine H) = (endCall k s).onLine H := by
  unfold endCall
  rw [onLine_modServing]
  generalize s.modServing k (fun sv => { sv with callPresent := false, idleRun := 0, ending := false }) = u
  unfold callEnded
  rw [onLine_ctx, onLine_enterPassing]
  split <;> rfl

end OnLine

end Sys2Proof.Machine

namespace Sys2Proof.Machine

open Sys2Proof

/-! ## Events in the command that brings them about (R13 to R16, R45, R169, R174, R177) -/

section Events

variable {s : State} {i : Nat} {sv : Serving} {slot : BitVec 7} {rin sin : Byte} {others : BitVec 128}

/-! ### The block end of a sample -/

/-- A sample with sound tap reads is its stages and, when its block is over, the block end (R45). -/
theorem exec_sample_sound {slot : Nat} (h : s.soundSample slot i sv rin sin) :
    sampleSlot slot rin sin [] s = blockEndIfDue i (plainSampled s slot i rin sin sv) := by
  obtain ⟨serves, locked, proc, call, run, clean⟩ := h
  have hears : recognise i rin sin (driveSlot slot true s) = hear i rin sin sv (driveSlot slot true s) :=
    Serving.goesOn.recognise (s := driveSlot slot true s) ⟨call, run⟩ serves.2.2.2
  have self := hear_ctx (slot := slot) (rin := rin) (sin := sin) (sv := sv) serves.lt
  have bound := hear_boundOf (slot := slot) (rin := rin) (sin := sin) (sv := sv) serves.lt
  have proc' := processByState_of_processes (s := hear i rin sin sv (driveSlot slot true s)) (rin := rin) (sin := sin)
    (upsets := []) (by rw [self]; exact proc)
  have noFail : failedSegments (strike [] (hear i rin sin sv (driveSlot slot true s))) (s.boundOf i) = [] :=
    failedSegments_clean _ _ clean
  have sound : ∀ jb ∈ (hear i rin sin sv (driveSlot slot true s)).boundOf i,
      ((hear i rin sin sv (driveSlot slot true s)).tapBlock jb.2).wrong = [] := by
    rw [bound]
    exact clean
  have reads : readBlocks i ((hear i rin sin sv (driveSlot slot true s)).boundOf i) (strike [] (hear i rin sin sv (driveSlot slot true s))) =
      hear i rin sin sv (driveSlot slot true s) := readBlocks_clean i _ _ sound
  rw [exec_sample serves locked, hears, proc', processSample_eq i rin sin [] reads (congrArg Context.serving self), bound, noFail]
  rfl

theorem plainSampled_lane (hsv : (s.ctx i).serving = some sv) {slot : Nat} : (plainSampled s slot i rin sin sv).lane = s.lane := by
  rw [plainSampled, stagesOf_plain hsv]
  exact (gatherIf_lane _ _ _ _ (hear i rin sin sv (driveSlot slot true s))).trans rfl

theorem plainSampled_lookup (hsv : (s.ctx i).serving = some sv) {slot : Nat} (n : Nat) :
    (plainSampled s slot i rin sin sv).lookup n = s.lookup n := by
  have table := gatherIf_table (sampleContributes s i rin sv (plainParts s i rin sin sv).1) (s.boundOf i)
    (s.errorOver (s.boundOf i) sv rin sin) (sv.windowAt rin) (hear i rin sin sv (driveSlot slot true s))
  have directory := congrArg ContextTable.directory table
  rw [plainSampled, stagesOf_plain hsv]
  exact congrArg (fun d : List (Option Nat) => d.getD n none) directory

theorem sample_goes_on_as_blockEnd (h : s.soundSample slot.toNat i sv rin sin) (phase : sv.phase = 31) :
    ∃ u v, exec (.sample slot rin sin []) s = exec (.blockEnd slot) u ∧ (u.ctx i).serving = some v
      ∧ u.servesWith slot.toNat i v ∧ v.phase = 32 ∧ v.history = sv.windowAt rin
      ∧ v.power = sv.power + (referenceOf sv.receive.gain rin).natAbs ^ 2 - (sv.history.getD 255 0).natAbs ^ 2
      ∧ v.block.sumY = sv.block.sumY + (expand sin).natAbs ^ 2
      ∧ v.block.sumE = sv.block.sumE + (s.errorOver (s.boundOf i) sv rin sin).natAbs ^ 2
      ∧ v.block.leadIn = sv.block.leadIn ∧ v.hold = sv.hold ∧ v.pathRun = sv.pathRun ∧ v.noise = sv.noise
      ∧ v.receive.gain = sv.receive.gain ∧ v.send.gain = sv.send.gain ∧ v.failed = []
      ∧ (u.ctx i).callState = (s.ctx i).callState ∧ (u.ctx i).search = (s.ctx i).search
      ∧ (u.ctx i).toneHold = (s.ctx i).toneHold ∧ u.pool.fifo = s.pool.fifo ∧ u.pool.shortfall = s.pool.shortfall
      ∧ u.lane = s.lane ∧ u.profile = s.profile ∧ ∀ k, k ≠ i → u.ctx k = s.ctx k := by
  have hsv := h.1.2.2.2
  have self := plainSampled_ctx (slot := slot.toNat) (rin := rin) (sin := sin) hsv
  obtain ⟨fifo, shortfall⟩ := plainSampled_queues (slot := slot.toNat) (rin := rin) (sin := sin) hsv
  obtain ⟨-, profile, -⟩ := plainSampled_outside (slot := slot.toNat) (rin := rin) (sin := sin) hsv
  have serves : (plainSampled s slot.toNat i rin sin sv).servesWith slot.toNat i
      { (plainParts s i rin sin sv).1 with failed := [], phase := sv.phase + 1 } := by
    obtain ⟨⟨station, held, role, -⟩, -⟩ := h
    exact ⟨by rw [profile]; exact station, by rw [plainSampled_lookup hsv]; exact held, by rw [self]; exact role, by rw [self]⟩
  have act : exec (.sample slot rin sin []) s = exec (.blockEnd slot) (plainSampled s slot.toNat i rin sin sv) :=
    congrArg Host.Outcome.next
      (((unlessHeld_of_ne h.1.ne_held).trans (exec_sample_sound h)).trans (serves.onServed blockEndIfDue).symm)
  refine ⟨_, _, act, congrArg Context.serving self, serves, congrArg (· + 1) phase, rfl, rfl, rfl, rfl, rfl, rfl, rfl, rfl, rfl, rfl, rfl,
    ?_, ?_, ?_, fifo, shortfall, plainSampled_lane hsv, profile, fun k hk => plainSampled_ctx_ne hk⟩ <;> rw [self]

/-! ### The call end of a sample -/

/-- Serving parts whose idle run ends the call (R13). -/
def Serving.ended (sv : Serving) : Serving := { sv with idleRun := min 4095 (sv.idleRun + 1), ending := true }

theorem recognise_ends (hsv : (s.ctx i).serving = some sv) (call : sv.callPresent = true)
    (quiet : silent s.highway.idleCodes rin sin = true) (run : s.highway.idleCount ≤ min 4095 (sv.idleRun + 1)) :
    recognise i rin sin s = endCall i (s.setCtx i { s.ctx i with serving := some sv.ended }) := by
  have heard : heard s rin sin sv = sv.ended := by
    simp [Machine.heard, Serving.ended, quiet, call, countUp, run]
  have due : callEndDue sv.ended = true := by simp [callEndDue, Serving.ended, call]
  rw [recognise_eq hsv, quiet, hear, heard, due]
  rfl

theorem Context.callOver_idles (c : Context) : ¬(c.callOver.callState.processes = true ∨ c.callOver.callState = .disabled) := by
  unfold Context.callOver
  dsimp only
  split
  · exact nofun
  · next h => exact h

theorem processByState_idles {upsets : List TapUpset} (h : ¬((s.ctx i).callState.processes = true ∨ (s.ctx i).callState = .disabled)) :
    processByState i rin sin upsets s = (s, ⟨rin, sin⟩) := by
  unfold processByState
  split
  iterate 3 next hc => rw [hc] at h; simp [CallState.processes] at h
  all_goals rfl

theorem sample_ends_call (h : s.servesWith slot.toNat i sv) (locked : s.highway.sync = .locked) (call : sv.callPresent = true)
    (quiet : silent s.highway.idleCodes rin sin = true) (run : s.highway.idleCount ≤ min 4095 (sv.idleRun + 1)) :
    ∃ t sv', exec (.sample slot rin sin []) s = .next t ∧ (t.ctx i).serving = some sv'
      ∧ ∃ v, exec (.callEnd slot) (s.setCtx i { s.ctx i with serving := some sv.ended }) = .next v
        ∧ sv'.callPresent = false ∧ sv'.idleRun = 0 ∧ t.pool = v.pool ∧ t.lane = v.lane
        ∧ (t.ctx i).callState = (v.ctx i).callState ∧ (t.ctx i).search = (v.ctx i).search
        ∧ (t.ctx i).toneHold = (v.ctx i).toneHold ∧ (t.ctx i).role = (v.ctx i).role
        ∧ ∀ k, k ≠ i → t.ctx k = v.ctx k := by
  have line : (driveSlot slot.toNat true s).setCtx i { s.ctx i with serving := some sv.ended } =
      (s.setCtx i { s.ctx i with serving := some sv.ended }).onLine (driveSlot slot.toNat true s).highway := rfl
  have recognised : recognise i rin sin (driveSlot slot.toNat true s) =
      (endCall i (s.setCtx i { s.ctx i with serving := some sv.ended })).onLine (driveSlot slot.toNat true s).highway :=
    (recognise_ends (s := driveSlot slot.toNat true s) h.2.2.2 call quiet run).trans ((congrArg (endCall i) line).trans (onLine_endCall _ _ _))
  have set : (s.setCtx i { s.ctx i with serving := some sv.ended }).ctx i = { s.ctx i with serving := some sv.ended } :=
    State.ctx_setCtx_self _ _ _ h.lt
  have serves : (s.setCtx i { s.ctx i with serving := some sv.ended }).servesWith slot.toNat i sv.ended := by
    obtain ⟨station, held, role, -⟩ := h
    exact ⟨station, held, by rw [set]; exact role, by rw [set]⟩
  have ended := endCall_ctx serves.lt
  have acts : exec (.callEnd slot) (s.setCtx i { s.ctx i with serving := some sv.ended }) =
      .next (endCall i (s.setCtx i { s.ctx i with serving := some sv.ended })) := by
    have served := serves.onServed (whenDue (fun _ sv => callEndDue sv) endCall)
    exact congrArg Host.Outcome.next (served.trans (whenDue_of_due serves.2.2.2 (by simp [callEndDue, Serving.ended, call])))
  generalize s.setCtx i { s.ctx i with serving := some sv.ended } = w at recognised ended acts serves
  have parts := (Context.unoffered_serving ended).trans (Context.callOver_serving serves.2.2.2)
  have idles : ¬(((endCall i w).ctx i).callState.processes = true ∨ ((endCall i w).ctx i).callState = .disabled) := by
    rw [Context.unoffered_callState ended]
    exact Context.callOver_idles _
  generalize endCall i w = v at recognised acts parts idles
  obtain ⟨x, hx, hung⟩ : ∃ x, (v.ctx i).serving = some x ∧ x.callPresent = false ∧ x.idleRun = 0 :=
    ⟨_, parts, by split <;> exact ⟨rfl, rfl⟩⟩
  have sampled : sampleSlot slot.toNat rin sin [] s =
      blockEndIfDue i (endSample slot.toNat i (v.onLine (driveSlot slot.toNat true s).highway, ⟨rin, sin⟩)) := by
    rw [exec_sample h locked, recognised, processByState_idles (s := v.onLine (driveSlot slot.toNat true s).highway) idles]
  have own : (endSample slot.toNat i (v.onLine (driveSlot slot.toNat true s).highway, ⟨rin, sin⟩)).ctx i =
      { v.ctx i with serving := some { x with phase := x.phase + 1 } } :=
    endSample_ctx (out := (v.onLine (driveSlot slot.toNat true s).highway, ⟨rin, sin⟩)) hx
  have others : ∀ k, k ≠ i → (endSample slot.toNat i (v.onLine (driveSlot slot.toNat true s).highway, ⟨rin, sin⟩)).ctx k = v.ctx k :=
    fun k hk => endSample_ctx_ne hk
  have act : exec (.sample slot rin sin []) s =
      .next (blockEndIfDue i (endSample slot.toNat i (v.onLine (driveSlot slot.toNat true s).highway, ⟨rin, sin⟩))) :=
    congrArg Host.Outcome.next ((unlessHeld_of_ne h.ne_held).trans sampled)
  have pool : (endSample slot.toNat i (v.onLine (driveSlot slot.toNat true s).highway, ⟨rin, sin⟩)).pool = v.pool := rfl
  have lane : (endSample slot.toNat i (v.onLine (driveSlot slot.toNat true s).highway, ⟨rin, sin⟩)).lane = v.lane := rfl
  generalize endSample slot.toNat i (v.onLine (driveSlot slot.toNat true s).highway, ⟨rin, sin⟩) = u at own others act pool lane
  rcases blockEndIfDue_of_idle (s := u) (i := i) (by rw [own]; exact idles) with same | next <;> refine ⟨_, ?_, act, ?_, v, acts, ?_⟩
  · exact { x with phase := x.phase + 1 }
  · rw [same, own]
  · rw [same, own]
    exact ⟨hung.1, hung.2, pool, lane, rfl, rfl, rfl, rfl, others⟩
  · exact Serving.nextBlock { x with phase := x.phase + 1 }
  · rw [next, State.ctx_modServing_some (congrArg Context.serving own)]
  · rw [next, State.ctx_modServing_some (congrArg Context.serving own), own]
    exact ⟨hung.1, hung.2, pool, lane, rfl, rfl, rfl, rfl, fun k hk => (State.ctx_modServing_ne _ _ _ _ hk.symm).trans (others k hk)⟩

/-! ### The station's events -/

theorem secondMiss_loses (station : s.profile.station ≠ .held) (locked : s.highway.sync = .locked) (miss : 1 ≤ s.highway.miss) :
    exec (.expectedPositionCheck false) s = exec .syncLoss { s with highway := { s.highway with miss := 2 } } := by
  have count : countUp 2 s.highway.miss = 2 := by
    unfold countUp
    omega
  have loses : checkPosition false s = ifDue syncLossDue loseSync { s with highway := { s.highway with miss := countUp 2 s.highway.miss } } :=
    if_pos locked
  rw [count] at loses
  exact congrArg Host.Outcome.next (((unlessHeld_of_ne station).trans loses).trans
    (unlessHeld_of_ne (s := { s with highway := { s.highway with miss := 2 } }) station).symm)

theorem eighthPulse_locks {clock : Nat} (station : s.profile.station ≠ .held) (hunt : s.highway.sync = .hunt) (spacing : 7 ≤ s.highway.spacing)
    (last : s.highway.lastPulse = some clock) :
    exec (.frameSyncPulse (clock + 1024)) s =
      exec (if s.highway.framesLost ≠ 0 ∧ s.profile.station = .unsynced then .syncRegain else .syncLock)
        { s with highway := { s.highway with spacing := 8, lastPulse := some (clock + 1024) } } := by
  have count : countUp Config.lockAt s.highway.spacing = 8 := by
    unfold countUp Config.lockAt
    omega
  have pulse : syncPulse (clock + 1024) s =
      (let u := { s with highway := { s.highway with spacing := 8, lastPulse := some (clock + 1024) } }
       if lockIsRegain u then ifDue regainDue regain u else ifDue lockDue lockFirst u) := by
    rw [syncPulse, if_pos hunt, last]
    simp only [Option.elim, Config.frameClocks, decide_true, if_true, count]
  have regains : lockIsRegain { s with highway := { s.highway with spacing := 8, lastPulse := some (clock + 1024) } } = true ↔
      s.highway.framesLost ≠ 0 ∧ s.profile.station = .unsynced := by simp [lockIsRegain]
  have free := fun act => unlessHeld_of_ne (act := act) (s := { s with highway := { s.highway with spacing := 8, lastPulse := some (clock + 1024) } }) station
  refine (congrArg Host.Outcome.next ((unlessHeld_of_ne station).trans pulse)).trans ?_
  dsimp only
  by_cases again : s.highway.framesLost ≠ 0 ∧ s.profile.station = .unsynced
  · rw [if_pos (regains.2 again), if_pos again]
    exact (congrArg Host.Outcome.next (free _)).symm
  · rw [if_neg (mt regains.1 again), if_neg again]
    exact (congrArg Host.Outcome.next (free _)).symm

theorem countTestFrame_last (station : s.profile.station = .test) (frames : 31 ≤ s.profile.testFrames) :
    countTestFrame s = ifDue testEndDue endTest { s with profile := { s.profile with testFrames := 32 } } := by
  have count : countUp 32 s.profile.testFrames = 32 := by
    unfold countUp
    omega
  rw [countTestFrame, if_pos station, count]

theorem lastTestFrame_ends (locked : s.highway.sync = .locked) (station : s.profile.station = .test) (frames : 31 ≤ s.profile.testFrames)
    (settled : s.lane.recalled = []) : exec (.frameBoundary others) s =
      exec .testEnd { s with frame := s.frame + 1, profile := { s.profile with testFrames := 32 } } := by
  have ends : endFrame others s = countTestFrame { s with frame := s.frame + 1 } := by
    unfold endFrame
    rw [if_pos locked, settleRecalled_of_none settled]
    dsimp only
    rw [station]
  exact congrArg Host.Outcome.next (ends.trans (countTestFrame_last (s := { s with frame := s.frame + 1 }) station frames))

theorem lastTestPeriod_ends (hunt : s.highway.sync = .hunt) (lost : s.highway.framesLost = 0) (station : s.profile.station = .test)
    (frames : 31 ≤ s.profile.testFrames) :
    exec .huntPeriod s = exec .testEnd { s with profile := { s.profile with testFrames := 32 } } := by
  have ends : huntPeriodEnds s = countTestFrame s := by rw [huntPeriodEnds, if_pos hunt, if_pos lost]
  exact congrArg Host.Outcome.next ((unlessHeld_of_ne (by rw [station]; exact nofun)).trans (ends.trans (countTestFrame_last station frames)))

theorem lastListenFrame_ends (locked : s.highway.sync = .locked) (station : s.profile.station = .listen) (frames : 15 ≤ s.profile.listenFrames)
    (settled : s.lane.recalled = []) : exec (.frameBoundary others) s = exec .listenEnd { s with
      frame := s.frame + 1
      profile := { s.profile with listenFrames := 16 }
      lane := { s.lane with markRecord := others ||| s.marks, ownRecord := s.marks }
      share := { s.share with listenMarks := others ||| s.marks, listenMarks' := s.share.listenMarks } } := by
  have count : countUp 16 s.profile.listenFrames = 16 := by
    unfold countUp
    omega
  rw [endFrame_listen locked station, marked_eq settled]
  unfold boundaryListen
  dsimp only
  rw [count]
  refine congrArg Host.Outcome.next ?_
  have due : ∀ u : State, u.profile.station = .listen → u.profile.listenFrames = 16 → listenEndDue u = true := fun u hs hf => by
    simp [listenEndDue, hs, hf, Config.listenFrames]
  have both : ∀ u v : State, listenEndDue u = true → (if listenEndDue u then endListen u else v) = ifDue listenEndDue endListen u :=
    fun u v h => (if_pos h).trans (if_pos h).symm
  exact both _ _ (due _ station rfl)

/-- RUN entry at the boundary that ends CONFIG (R174, R177). -/
theorem lastConfigFrame_ends (locked : s.highway.sync = .locked) (station : s.profile.station = .config)
    (due : (∃ f, s.profile.runAccepted = some f ∧ f ≤ s.frame) ∨ (s.profile.runAccepted = none ∧ 7999 ≤ s.profile.configFrames)) :
    ∃ t, exec (.frameBoundary others) s = .next t ∧ t.profile.station = .run ∧ t.profile.runReached = true := by
  have homes := (State.Judges.boundaryHomes (s.marked others).configCounted).turn
  have counted : (s.marked others).configCounted.profile = { s.profile with configFrames := countUp 8000 s.profile.configFrames } := rfl
  have enters : boundaryConfig (s.marked others) = enterRun (boundaryHomes (s.marked others).configCounted) := by
    have profile := homes.profile.trans counted
    have frame : (boundaryHomes (s.marked others).configCounted).frame = s.frame + 1 := homes.frame
    have split : boundaryConfig (s.marked others) = if runEntryDue (boundaryHomes (s.marked others).configCounted) then
        enterRun (boundaryHomes (s.marked others).configCounted)
        else ifDue configTimeoutDue enterRun (boundaryHomes (s.marked others).configCounted) := rfl
    rw [split]
    generalize boundaryHomes (s.marked others).configCounted = u at profile frame
    rcases due with ⟨f, accepted, passed⟩ | ⟨none, frames⟩
    · refine if_pos ?_
      rw [runEntryDue, profile, frame]
      simp [station, accepted]
      omega
    · have time : configTimeoutDue u = true := by
        rw [configTimeoutDue, profile]
        simp [station, none, Config.configFrames, countUp]
        omega
      rw [ifDue, if_pos time, ite_self]
  have entered := outside_rejudges (List.range 64) (boundaryHomes (s.marked others).configCounted).enteredRun
  rw [← enterRun_eq, ← enters] at entered
  have after : (eachContext handOver (boundaryConfig (s.marked others))).profile = (boundaryConfig (s.marked others)).profile :=
    (State.Judges.eachContext State.Judges.handOver _).turn.profile
  refine ⟨_, endFrame_config locked station, ?_, ?_⟩ <;> rw [after, State.outside_profile entered] <;> rfl

end Events

/-- Settles O22: each event is the end of the command that brings it about. -/
theorem eventsInTheirCommand : Obligations.EventsInTheirCommand :=
  ⟨fun _ _ _ _ _ _ h phase => sample_goes_on_as_blockEnd h phase,
    fun _ _ _ _ _ _ h _ locked call quiet run => sample_ends_call h locked call quiet run,
    fun _ station locked miss => secondMiss_loses station locked miss,
    fun _ _ station hunt spacing last => eighthPulse_locks station hunt spacing last,
    fun _ _ locked station frames settled => lastTestFrame_ends locked station frames settled,
    fun _ hunt lost station frames => lastTestPeriod_ends hunt lost station frames,
    fun _ _ locked station frames settled => lastListenFrame_ends locked station frames settled,
    fun _ _ locked station due => lastConfigFrame_ends locked station due⟩

end Sys2Proof.Machine

namespace Sys2Proof.Machine

open Sys2Proof

/-! ## What deliveries leave of a search, also of one that waits (R82, R91, R103) -/

section Minds

variable {s u v : State} {i k c j : Nat} {X : List Nat} {K : List Segment} {st : CallState} {q : SearchRecord}

/-- A search record that holds the segments `K` as they are, in SEARCH with every segment of its map explored (R78). -/
structure SearchRecord.Keeps (K : List Segment) (st : CallState) (q : SearchRecord) : Prop where
  distinct : q.Distinct
  explored : st = .search → ∀ e ∈ q.map, e.number ∈ q.explored
  kept : ∀ e ∈ K, e ∈ q.map

/-- A member of the map is known by its number. -/
theorem SearchRecord.Distinct.eq_of_number (h : q.Distinct) {d e : Segment} (hd : d ∈ q.map) (he : e ∈ q.map) (same : d.number = e.number) :
    d = e := List.inj_on_of_nodup_map h hd he same

theorem setFill_numbers (j : Nat) (f : Fill) (map : List Segment) : (setFill j f map).map (·.number) = map.map (·.number) := by
  rw [setFill, List.map_map]
  refine List.map_congr_left fun e _ => ?_
  simp only [Function.comp_apply]
  split <;> rfl

theorem mem_setFill_of_ne {j : Nat} {f : Fill} {map : List Segment} {e : Segment} (he : e ∈ map) (hj : e.number ≠ j) : e ∈ setFill j f map :=
  List.mem_map.2 ⟨e, he, if_neg hj⟩

/-- Filling a segment outside `K` (R91). -/
theorem SearchRecord.Keeps.setFill (h : q.Keeps K st) {f : Fill} (out : ∀ e ∈ K, e.number ≠ j) :
    SearchRecord.Keeps K st { q with map := setFill j f q.map } := by
  refine ⟨?_, fun hs e he => ?_, fun e he => mem_setFill_of_ne (h.kept e he) (out e he)⟩
  · show ((Machine.setFill j f q.map).map (·.number)).Nodup
    rw [setFill_numbers]
    exact h.distinct
  · have numbered : e.number ∈ q.map.map (·.number) := setFill_numbers j f q.map ▸ List.mem_map_of_mem he
    obtain ⟨d, hd, same⟩ := List.mem_map.1 numbered
    rw [← same]
    exact h.explored hs d hd

/-- A pass start binds unexplored segments alone (R82). -/
theorem SearchRecord.Keeps.passed (h : q.Keeps K .search) (reach : Nat) : (q.passed reach).Keeps K .search := by
  have perm : (q.passed reach).map.Perm (q.map ++ ((q.unexplored reach).zip q.spare).map boundSegment) := foldl_insertSegment_perm _ _
  have fresh : ∀ n ∈ q.unexplored reach, n ∉ q.explored := fun n hn => by
    have := (List.mem_filter.1 hn).2
    simpa using this
  have numbers : (((q.unexplored reach).zip q.spare).map boundSegment).map (·.number) = (q.unexplored reach).take q.spare.length := by
    rw [List.map_map]
    exact zip_map_fst _ _
  have unseen : (q.unexplored reach).Nodup := List.nodup_range.filter _
  refine ⟨(perm.map _).nodup_iff.2 ?_, fun _ e he => ?_, fun e he => perm.mem_iff.2 (List.mem_append_left _ (h.kept e he))⟩
  · rw [List.map_append, numbers]
    refine List.nodup_append.2 ⟨h.distinct, unseen.sublist (List.take_sublist _ _), fun n hn m hm same => ?_⟩
    obtain ⟨e, he, rfl⟩ := List.mem_map.1 hn
    exact fresh m ((List.take_sublist _ _).mem hm) (same ▸ h.explored rfl e he)
  · refine mem_foldl_insertNum.2 ?_
    rcases List.mem_append.1 (perm.mem_iff.1 he) with he | he
    · exact .inr (h.explored rfl e he)
    · obtain ⟨jb, hjb, rfl⟩ := List.mem_map.1 he
      exact .inl ⟨jb, hjb, rfl⟩

/-- `u` is `s` with the blocks `X` as they were, FREE for nobody and in nobody's spare hand, and with context i's search still on the
segments `K`, none of them unfilled. -/
structure State.Minds (i : Nat) (X : List Nat) (K : List Segment) (s u : State) : Prop where
  blocks : ∀ b ∈ X, u.tapBlock b = s.tapBlock b
  spare : ∀ b ∈ X, (s.tapBlock b).state ≠ .spare
  fifo : ∀ b ∈ X, b ∉ u.pool.fifo
  hands : ∀ k q, (u.ctx k).search = some q → ∀ b ∈ X, b ∉ q.spare
  callState : (u.ctx i).callState = (s.ctx i).callState
  serving : (u.ctx i).serving = (s.ctx i).serving
  filled : ∀ e ∈ K, e.fill ≠ .unfilled
  search : ∃ q, (u.ctx i).search = some q ∧ q.Keeps K (s.ctx i).callState

/-- Releases of other blocks, and checks of wants. -/
def Task.Clear (X : List Nat) (ts : List Task) : Prop := ∀ t ∈ ts, (∃ c, c ∉ X ∧ t = .release c) ∨ ∃ k, t = .checkMet k

theorem Task.Clear.append {ts us : List Task} (ht : Task.Clear X ts) (hu : Task.Clear X us) : Task.Clear X (ts ++ us) :=
  fun t h => (List.mem_append.1 h).elim (ht t) (hu t)

theorem Task.clear_releases {bs : List Nat} (h : ∀ c ∈ bs, c ∉ X) : Task.Clear X (bs.map .release) := fun t ht => by
  obtain ⟨c, hc, rfl⟩ := List.mem_map.1 ht
  exact .inl ⟨c, h c hc, rfl⟩

theorem Task.clear_nil : Task.Clear X [] := nofun

theorem Task.clear_check (k : Nat) : Task.Clear X [.checkMet k] := fun _ ht => .inr ⟨k, List.mem_singleton.1 ht⟩

namespace State.Minds

/-- A step that leaves of the contexts their offers at most, and the blocks and the FIFO. -/
theorem of_same (h : s.Minds i X K u) (ctx : ∀ k, (v.ctx k).unoffered = (u.ctx k).unoffered) (blocks : ∀ b, v.tapBlock b = u.tapBlock b)
    (fifo : v.pool.fifo = u.pool.fifo) : s.Minds i X K v :=
  ⟨fun b hb => (blocks b).trans (h.blocks b hb), h.spare, fun b hb => fifo ▸ h.fifo b hb,
    fun k q hq => h.hands k q ((Context.unoffered_search (ctx k)).symm.trans hq), (Context.unoffered_callState (ctx i)).trans h.callState,
    (Context.unoffered_serving (ctx i)).trans h.serving, h.filled, by rw [Context.unoffered_search (ctx i)]; exact h.search⟩

theorem notify (h : s.Minds i X K u) (kind : Nat) (fs : List Field) : s.Minds i X K (u.notify kind fs) :=
  h.of_same (fun k => by rw [State.notify_ctx]) (fun b => State.notify_tapBlock _ _ _ _) (by rw [State.notify_pool])

theorem modBlock (h : s.Minds i X K u) (hc : c ∉ X) (f : TapBlock → TapBlock) : s.Minds i X K (u.modBlock c f) :=
  ⟨fun b hb => (State.tapBlock_modBlock_ne u c b f fun he => hc (he ▸ hb)).trans (h.blocks b hb), h.spare, h.fifo, h.hands, h.callState,
    h.serving, h.filled, h.search⟩

theorem freeBlock (h : s.Minds i X K u) (hc : c ∉ X) : s.Minds i X K (u.freeBlock c) := by
  obtain ⟨blocks, spare, fifo, hands, callState, serving, filled, search⟩ := h.modBlock hc fun t =>
    { t with state := .free, owner := none, segment := none, lastSegment := none }
  exact ⟨blocks, spare, fun b hb hm => (List.mem_append.1 hm).elim (fifo b hb) fun hm => hc (List.mem_singleton.1 hm ▸ hb), hands, callState,
    serving, filled, search⟩

/-- A change of a search record that takes none of the blocks and keeps the segments. -/
theorem modSearch (h : s.Minds i X K u) (k : Nat) {f : SearchRecord → SearchRecord}
    (hands : ∀ q, (u.ctx k).search = some q → ∀ b ∈ X, b ∉ q.spare → b ∉ (f q).spare)
    (keeps : k = i → ∀ q, (u.ctx i).search = some q → q.Keeps K (s.ctx i).callState → (f q).Keeps K (s.ctx i).callState) :
    s.Minds i X K (u.modSearch k f) := by
  have other : ∀ m, m ≠ k → (u.modSearch k f).ctx m = u.ctx m := fun m hm => State.ctx_modSearch_ne _ _ _ _ hm.symm
  have own : k < u.table.contexts.length → (u.modSearch k f).ctx k = { u.ctx k with search := (u.ctx k).search.map f } :=
    State.ctx_modSearch_self u k f
  have lt_of : ∀ q, ((u.modSearch k f).ctx k).search = some q → k < u.table.contexts.length := fun q hq => by
    have := lt_of_search hq
    rwa [State.modSearch_contexts_length] at this
  refine ⟨fun b hb => (State.modSearch_tapBlock _ _ _ _).trans (h.blocks b hb), h.spare, h.fifo, fun m q hq b hb => ?_, ?_, ?_, h.filled, ?_⟩
  · by_cases hm : m = k
    · rw [hm] at hq
      rw [own (lt_of q hq)] at hq
      obtain ⟨p, hp, rfl⟩ := Option.map_eq_some_iff.1 hq
      exact hands p hp b hb (h.hands k p hp b hb)
    · exact h.hands m q (other m hm ▸ hq) b hb
  · rw [callState_modSearch]
    exact h.callState
  · exact (State.ctx_modCtx_proj Context.serving u k i (fun c => { c with search := c.search.map f }) fun _ => rfl).trans h.serving
  · obtain ⟨q, hq, keep⟩ := h.search
    by_cases hk : k = i
    · rw [hk] at own ⊢
      rw [own (lt_of_search hq), hq]
      exact ⟨f q, rfl, keeps hk q hq keep⟩
    · rw [other i (Ne.symm hk)]
      exact ⟨q, hq, keep⟩

theorem leaveShortfall (h : s.Minds i X K u) (k : Nat) : s.Minds i X K (u.leaveShortfall k) :=
  h.of_same (State.unoffered_leaveShortfall u k) (State.leaveShortfall_tapBlock u k) (State.leaveShortfall_fifo u k)

theorem leaveIfMet (h : s.Minds i X K u) (k : Nat) : s.Minds i X K (u.leaveIfMet k) := by
  unfold State.leaveIfMet
  split
  · exact h.leaveShortfall k
  · exact h

theorem bindAll (h : s.Minds i X K u) (k : Nat) {pairs : List (Nat × Nat)} (hp : ∀ jb ∈ pairs, jb.2 ∉ X) : s.Minds i X K (u.bindAll k pairs) := by
  induction pairs generalizing u with
  | nil => exact h
  | cons jb pairs ih => exact ih (h.modBlock (hp jb (List.mem_cons_self ..)) _) fun x hx => hp x (List.mem_cons_of_mem _ hx)

end State.Minds

/-! ### Deliveries -/

theorem placeBlock_minds (h : s.Minds i X K u) (hc : c ∉ X) : s.Minds i X K (placeBlock c u).1 := by
  unfold placeBlock
  split
  · exact h.freeBlock hc
  · next k _ _ =>
    split
    · exact (h.modBlock hc _).modSearch k
        (fun q _ b hb hn hm => ((Laws.mem_insertNum _ _ _).1 hm).elim (fun he => hc (he ▸ hb)) hn)
        fun _ q _ keep => ⟨keep.distinct, keep.explored, keep.kept⟩
    · next r _ hr =>
      split
      · next j first =>
        obtain ⟨e, found, number⟩ := Option.map_eq_some_iff.1 first
        refine ((h.modBlock hc _).modSearch k (f := fun q => { q with map := setFill j (.block c) q.map })
          (fun q _ b _ hn => hn) fun hk q hq keep => keep.setFill fun d hd same => ?_).leaveIfMet k
        have record : r = q := Option.some.inj (hr.symm.trans (hk ▸ hq))
        have mine : d = e := keep.distinct.eq_of_number (keep.kept d hd) (record ▸ List.mem_of_find?_eq_some found) (same.trans number.symm)
        refine h.filled d hd ?_
        rw [mine]
        simpa using List.find?_some found
      · exact h.freeBlock hc
    · exact h.freeBlock hc

theorem promoteTask_minds (h : s.Minds i X K u) : s.Minds i X K (promoteTask u).1 := by
  unfold promoteTask
  split
  · exact h
  · next c rest spares =>
    have hc : c ∉ X := fun hc => by
      obtain ⟨-, t, ht, state⟩ := (Laws.mem_indicesFrom _ 0 c _).1 (by rw [spares]; exact List.mem_cons_self ..)
      refine h.spare c hc ?_
      rw [← h.blocks c hc, State.tapBlock, List.getD_eq_getElem?_getD, show u.pool.blocks[c]? = some t from ht]
      simpa using state
    refine placeBlock_minds ?_ hc
    split
    · exact h.notify 6 _
    · exact h

theorem promoteTask_placed (s : State) : s.Placed (promoteTask s) := by
  unfold promoteTask
  split
  · exact .quiet (fun k => .refl _) (.inl rfl)
  · refine (placeBlock_placed _ _).of_same fun k => ?_
    split
    · exact State.notify_ctx _ _ _ _
    · rfl

theorem releaseTask_minds (h : s.Minds i X K u) (hc : c ∉ X) : s.Minds i X K (releaseTask c u).1 := by
  unfold releaseTask
  split
  · exact promoteTask_minds ((h.modBlock hc _).notify 5 _)
  · exact placeBlock_minds h hc

/-- A pass start with a segment to explore takes none of the blocks. -/
theorem passStartTask_minds (h : s.Minds i X K u) (hc : (u.ctx k).callState = .search) (hq : (u.ctx k).search = some q)
    (unseen : q.unexplored (u.reachOf k) ≠ []) : s.Minds i X K (passStartTask k u).1 ∧ Task.Clear X (passStartTask k u).2 := by
  have away : ∀ b ∈ q.spare, b ∉ X := fun b hb hX => h.hands k q hq b hX hb
  have bound := h.bindAll k (pairs := (q.unexplored (u.reachOf k)).zip q.spare) fun jb hjb => away _ (List.of_mem_zip (a := jb.1) hjb).2
  have keeps : k = i → q.Keeps K (s.ctx i).callState → (q.passed (u.reachOf k)).Keeps K (s.ctx i).callState := fun hk keep => by
    have search : (s.ctx i).callState = .search := h.callState.symm.trans (hk ▸ hc)
    rw [search] at keep ⊢
    exact keep.passed _
  have same : ∀ p, ((u.bindAll k ((q.unexplored (u.reachOf k)).zip q.spare)).ctx i).search = some p → k = i → p = q := fun p hp hk => by
    rw [State.bindAll_ctx, ← hk] at hp
    exact Option.some.inj (hp.symm.trans hq)
  rw [passStartTask_eq hc hq unseen]
  dsimp only
  split
  · exact ⟨bound.modSearch k (fun p _ b _ _ => List.not_mem_nil) fun hk p hp keep => keeps hk (same p hp hk ▸ keep), Task.clear_nil⟩
  · refine ⟨(bound.modSearch k (fun p _ b _ _ => List.not_mem_nil) fun hk p hp keep => ?_).leaveShortfall k,
      Task.clear_releases fun c hc => away c ((List.drop_sublist _ _).mem hc)⟩
    obtain ⟨distinct, explored, kept⟩ := keeps hk (same p hp hk ▸ keep)
    exact ⟨distinct, explored, kept⟩

/-! ### Tasks -/

/-- The tasks behind a delivery: a pass start it sets off, and then releases. -/
theorem runTasks_placed {fuel : Nat} {ts : List Task} {out : State × List Task}
    (later : ∀ m ≤ fuel, ∀ {w : State} {us : List Task}, s.Minds i X K w → w.Explores → Task.Clear X us →
      s.Minds i X K (runTasks m us w) ∧ (runTasks m us w).Explores)
    (placed : u.Placed out) (explores : u.Explores) (h : s.Minds i X K out.1) (reach : ∀ j, out.1.reachOf j = u.reachOf j)
    (contexts : out.1.table.contexts.length = u.table.contexts.length) (clear : Task.Clear X ts) :
    s.Minds i X K (runTasks fuel (out.2 ++ ts) out.1) ∧ (runTasks fuel (out.2 ++ ts) out.1).Explores := by
  cases placed with
  | quiet patient tasks =>
    refine later fuel (Nat.le_refl _) h (fun j r => Explores_of_patient (reach j) (patient j) explores r) ?_
    rcases tasks with none | ⟨k, one⟩
    · rw [none]
      exact clear
    · rw [one]
      exact (Task.clear_check k).append clear
  | starts k c r state search waits own others tasks =>
    have unseen : ({ r with spare := insertNum c r.spare } : SearchRecord).unexplored (out.1.reachOf k) ≠ [] := by
      rw [reach]
      exact explores k r state search waits
    rw [tasks]
    cases fuel with
    | zero =>
      refine ⟨h, fun j p hj hp hw => ?_⟩
      by_cases same : j = k
      · rw [same] at hp ⊢
        have record : ({ r with spare := insertNum c r.spare } : SearchRecord) = p := by
          change (out.1.ctx k).search = some p at hp
          rw [own] at hp
          exact Option.some.inj hp
        rw [← record]
        exact unseen
      · exact Explores_of_patient (reach j) (by rw [others j same]; exact .refl _) explores p hj hp hw
    | succ m =>
      obtain ⟨rest, -, explores', -⟩ := passStart_delivered state search waits explores reach contexts own others
      obtain ⟨h', off⟩ := passStartTask_minds (k := k) h (by rw [own]; exact state) (by rw [own]; rfl) unseen
      exact later m (Nat.le_succ _) h' explores' (off.append ((Task.clear_check k).append clear))

theorem runTasks_minds (fuel : Nat) : ∀ {u : State} {ts : List Task}, s.Minds i X K u → u.Explores → Task.Clear X ts →
    s.Minds i X K (runTasks fuel ts u) ∧ (runTasks fuel ts u).Explores := by
  induction fuel using Nat.strong_induction_on with
  | _ fuel ih =>
    intro u ts h explores clear
    cases fuel with
    | zero => exact ⟨h, explores⟩
    | succ n =>
      cases ts with
      | nil => exact ⟨h, explores⟩
      | cons t ts =>
        have rest : Task.Clear X ts := fun t ht => clear t (List.mem_cons_of_mem _ ht)
        have later : ∀ m ≤ n, ∀ {w : State} {us : List Task}, s.Minds i X K w → w.Explores → Task.Clear X us →
            s.Minds i X K (runTasks m us w) ∧ (runTasks m us w).Explores := fun m hm => ih m (Nat.lt_succ_of_le hm)
        rcases clear t (List.mem_cons_self ..) with ⟨c, hc, rfl⟩ | ⟨k, rfl⟩
        · exact runTasks_placed later (releaseTask_placed c u) explores (releaseTask_minds h hc) (reachOf_doTask (.release c) u)
            (contexts_doTask (.release c) u) rest
        · have left := State.unoffered_leaveIfMet u k
          exact later n (Nat.le_refl _) (h.leaveIfMet k) (fun j r => Explores_of_patient (reachOf_doTask (.checkMet k) u j)
            (.of_eq (Context.unoffered_callState (left j)) (Context.unoffered_search (left j))) explores r) rest

/-- A promotion delivers a spare block and what follows from it (R111). -/
theorem perform_promote_minds (h : s.Minds i X K u) (explores : u.Explores) :
    s.Minds i X K (perform [.promote] u) ∧ (perform [.promote] u).Explores :=
  runTasks_placed (fuel := 4095) (ts := []) (out := promoteTask u) (fun m _ => runTasks_minds m) (promoteTask_placed u) explores
    (promoteTask_minds h) (reachOf_doTask .promote u) (contexts_doTask .promote u) Task.clear_nil

/-- After a pass start the search no longer waits. -/
theorem passStartTask_explores (hc : (u.ctx k).callState = .search) (hq : (u.ctx k).search = some q)
    (unseen : q.unexplored (u.reachOf k) ≠ []) (explores : u.Explores) : (passStartTask k u).1.Explores := by
  obtain ⟨-, -, -, r', record, inPass⟩ := doTask_started hc hq unseen
  rw [doTask] at record
  intro j r hj hr waits
  by_cases same : j = k
  · rw [same, record] at hr
    obtain rfl := Option.some.inj hr
    exact absurd (inPass.symm.trans waits) nofun
  · have others : (passStartTask k u).1.ctx j = u.ctx j := doTask_ctx_ne (t := .passStart k) rfl (Ne.symm same)
    exact Explores_of_patient (reachOf_doTask (.passStart k) u j) (by rw [doTask, others]; exact .refl _) explores r hj hr waits

theorem perform_passStart_minds (h : s.Minds i X K u) (explores : u.Explores) (hc : (u.ctx k).callState = .search)
    (hq : (u.ctx k).search = some q) (unseen : q.unexplored (u.reachOf k) ≠ []) : s.Minds i X K (perform [.passStart k] u) := by
  obtain ⟨h', off⟩ := passStartTask_minds h hc hq unseen
  exact (runTasks_minds 4095 h' (passStartTask_explores hc hq unseen explores) (off.append Task.clear_nil)).1

end Minds

end Sys2Proof.Machine

namespace Sys2Proof.Machine

open Sys2Proof

/-! ## The reads of a sample that finds wrong bits in one block (R44, R106, R107, R110) -/

section OneBlock

variable {s u w : State} {i j b c : Nat} {bound : List (Nat × Nat)} {f g : TapBlock → TapBlock}

/-! ### Changes of one block -/

theorem State.modBlock_congr (h : f (s.tapBlock b) = g (s.tapBlock b)) : s.modBlock b f = s.modBlock b g :=
  congrArg (s.setBlock b) h

theorem State.modBlock_fixed (h : f (s.tapBlock b) = s.tapBlock b) : s.modBlock b f = s := by
  have same : s.pool.blocks.set b (s.tapBlock b) = s.pool.blocks := by
    by_cases hb : b < s.pool.blocks.length
    · simp [State.tapBlock, List.getD_eq_getElem?_getD, hb]
    · exact List.set_eq_of_length_le (Nat.not_lt.1 hb)
  rw [State.modBlock, h, State.setBlock, same]

theorem State.modBlock_modBlock (s : State) (b : Nat) (f g : TapBlock → TapBlock) :
    (s.modBlock b f).modBlock b g = s.modBlock b fun t => g (f t) := by
  by_cases hb : b < s.pool.blocks.length
  · have read := State.tapBlock_modBlock_self s b f hb
    unfold State.modBlock at read ⊢
    rw [read]
    simp [State.setBlock]
  · have fixed : ∀ h : TapBlock → TapBlock, s.modBlock b h = s := fun h => by
      rw [State.modBlock, State.setBlock, List.set_eq_of_length_le (Nat.not_lt.1 hb)]
    rw [fixed, fixed, fixed]

theorem State.modBlock_comm (s : State) (hne : c ≠ b) (f g : TapBlock → TapBlock) :
    (s.modBlock b f).modBlock c g = (s.modBlock c g).modBlock b f := by
  have one := State.tapBlock_modBlock_ne s b c f (Ne.symm hne)
  have two := State.tapBlock_modBlock_ne s c b g hne
  unfold State.modBlock at one two ⊢
  rw [one, two]
  simp [State.setBlock, List.set_comm _ _ hne]

/-! ### Reads -/

/-- One block's read among the reads of a sample (R44). -/
def readOf (i : Nat) (s : State) (b : Nat) : State :=
  match (s.boundOf i).find? fun jb => jb.2 == b with
  | some jb => readBlock i s jb
  | none => s

theorem readOf_clean (h : (s.tapBlock b).wrong = []) : readOf i s b = s := by
  unfold readOf
  split
  · next jb found =>
    have same : jb.2 = b := by simpa using List.find?_some found
    exact readBlock_clean i s jb (same ▸ h)
  · rfl

theorem foldl_readOf_clean {bs : List Nat} (h : ∀ b ∈ bs, (s.tapBlock b).wrong = []) : bs.foldl (readOf i) s = s := by
  induction bs with
  | nil => rfl
  | cons b bs ih => rw [List.foldl_cons, readOf_clean (h b (List.mem_cons_self ..)), ih fun c hc => h c (List.mem_cons_of_mem _ hc)]

/-- A block is found by its number. -/
theorem find_block (nodup : (bound.map (·.2)).Nodup) (mem : (j, b) ∈ bound) : bound.find? (fun jb => jb.2 == b) = some (j, b) := by
  cases found : bound.find? fun jb => jb.2 == b with
  | none => exact absurd (List.find?_eq_none.1 found (j, b) mem) (by simp)
  | some jb =>
    have same : jb.2 = b := by simpa using List.find?_some found
    exact congrArg some (List.inj_on_of_nodup_map nodup (List.mem_of_find?_eq_some found) mem same)

/-- With one block that holds wrong bits before the reads, and no other one after, the reads are that block's (R44). -/
theorem readBlocks_one (nodup : ((w.boundOf i).map (·.2)).Nodup) (mem : (j, b) ∈ w.boundOf i)
    (before : ∀ jb ∈ w.boundOf i, jb.2 ≠ b → (w.tapBlock jb.2).wrong = [])
    (after : ∀ jb ∈ w.boundOf i, jb.2 ≠ b → ((readBlock i w (j, b)).tapBlock jb.2).wrong = []) :
    readBlocks i (w.boundOf i) w = readBlock i w (j, b) := by
  have reads : readBlocks i (w.boundOf i) w = (sortNums ((w.boundOf i).map (·.2))).foldl (readOf i) w := rfl
  have perm := sortNums_perm nodup
  obtain ⟨xs, ys, split⟩ := List.append_of_mem (perm.mem_iff.2 (List.mem_map_of_mem (f := (·.2)) mem) : b ∈ _)
  have distinct := perm.nodup_iff.2 nodup
  have other : ∀ c, c ∈ xs ∨ c ∈ ys → c ≠ b ∧ ∃ jb ∈ w.boundOf i, jb.2 = c := fun c hc => by
    rw [split] at distinct
    obtain ⟨-, tail, apart⟩ := List.nodup_append.1 distinct
    obtain ⟨fresh, -⟩ := List.nodup_cons.1 tail
    have member : c ∈ sortNums ((w.boundOf i).map (·.2)) := by
      rw [split]
      simp only [List.mem_append, List.mem_cons]
      exact hc.imp_right .inr
    obtain ⟨jb, hjb, rfl⟩ := List.mem_map.1 (perm.mem_iff.1 member)
    exact ⟨fun he => hc.elim (fun hx => apart _ hx b (List.mem_cons_self ..) he) fun hy => fresh (he ▸ hy), jb, hjb, rfl⟩
  rw [reads, split, List.foldl_append, List.foldl_cons]
  have first : xs.foldl (readOf i) w = w := foldl_readOf_clean fun c hc => by
    obtain ⟨hne, jb, hjb, rfl⟩ := other c (.inl hc)
    exact before jb hjb hne
  have here : readOf i w b = readBlock i w (j, b) := by
    rw [readOf, find_block nodup mem]
  rw [first, here]
  exact foldl_readOf_clean fun c hc => by
    obtain ⟨hne, jb, hjb, rfl⟩ := other c (.inr hc)
    exact after jb hjb hne

/-- The one segment that fails. -/
theorem failedSegments_one (nodup : (bound.map (·.2)).Nodup) (mem : (j, b) ∈ bound) (fails : (s.tapBlock b).fails = true)
    (clean : ∀ jb ∈ bound, jb.2 ≠ b → (s.tapBlock jb.2).wrong = []) : failedSegments s bound = [j] := by
  have only : bound.filter (fun jb => (s.tapBlock jb.2).fails) = bound.filter (· == (j, b)) := List.filter_congr fun jb hjb => by
    by_cases same : jb.2 = b
    · have mine : jb = (j, b) := List.inj_on_of_nodup_map nodup hjb mem same
      rw [mine, fails]
      simp
    · rw [TapBlock.fails_clean (clean jb hjb same)]
      exact (beq_eq_false_iff_ne.2 fun he => same (congrArg Prod.snd he)).symm
  rw [failedSegments, only, List.filter_beq, List.count_eq_one_of_mem nodup.of_map mem]
  rfl

/-! ### The block that is struck -/

/-- A block with wrong bits in an entry (R106). -/
def TapBlock.struck (entry : BitVec 6) (n : Nat) (t : TapBlock) : TapBlock := { t with wrong := addWrong entry.toNat n t.wrong }

theorem strike_one (s : State) (hb : b < 512) (entry : BitVec 6) (n : Nat) :
    strike [⟨BitVec.ofNat 9 b, entry, n⟩] s = s.modBlock b (TapBlock.struck entry n) := by
  have number : (BitVec.ofNat 9 b).toNat = b := by
    rw [BitVec.toNat_ofNat]
    exact Nat.mod_eq_of_lt hb
  rw [strike, List.foldl_cons, List.foldl_nil, number]
  rfl

variable {t : TapBlock} {entry : BitVec 6}

/-- One wrong bit is corrected, and the block is as it was (R107). -/
theorem TapBlock.struck_one (clean : t.wrong = []) : (t.struck entry 1).fails = false ∧ (t.struck entry 1).corrections = 1
    ∧ (t.struck entry 1).wrong ≠ [] ∧ (t.struck entry 1).rewritten = t := by
  have wrong : (t.struck entry 1).wrong = [(entry.toNat, 1)] := by
    rw [TapBlock.struck, clean]
    rfl
  have ones := TapBlock.corrections_of_ones (t := t.struck entry 1) (by rw [wrong]; simp)
  refine ⟨ones.1, by rw [ones.2, wrong]; rfl, by rw [wrong]; exact List.cons_ne_nil _ _, ?_⟩
  rw [TapBlock.rewritten_of_one wrong]
  show ({ t with wrong := [] } : TapBlock) = t
  rw [← clean]

/-- Two wrong bits in an entry fail the block (R110). -/
theorem TapBlock.struck_two (clean : t.wrong = []) : (t.struck entry 2).fails = true := by
  refine TapBlock.fails_of_two (k := entry.toNat) ?_
  rw [TapBlock.struck, clean]
  exact List.mem_singleton.2 rfl

/-- The reads of one wrong bit count one correction and no more (R107). -/
theorem readBlock_one (clean : (s.tapBlock b).wrong = []) (inPool : b < s.pool.blocks.length) :
    readBlock i (s.modBlock b (TapBlock.struck entry 1)) (j, b) = correctedReads b 1 s := by
  obtain ⟨fails, corrections, wrong, rewritten⟩ := TapBlock.struck_one (entry := entry) clean
  have read := State.tapBlock_modBlock_self s b (TapBlock.struck entry 1) inPool
  rw [readBlock]
  simp only [read, fails, corrections, if_neg wrong, Bool.false_eq_true, if_false]
  rw [State.modBlock_modBlock, State.modBlock_fixed rewritten]

end OneBlock

end Sys2Proof.Machine

namespace Sys2Proof.Machine

open Sys2Proof

/-! ## A sample whose reads correct one wrong bit (R106 to R108) -/

section Corrected

variable {s t u : State} {slot i j b n : Nat} {sv v : Serving} {rin sin : Byte} {r : SearchRecord} {entry : BitVec 6} {f : TapBlock → TapBlock}

/-- The state at the tap reads of a sample: its slot driven, its codes heard (R3, R12). -/
def State.atReads (s : State) (slot i : Nat) (rin sin : Byte) (sv : Serving) : State := hear i rin sin sv (driveSlot slot true s)

theorem atReads_ctx (h : s.plainSample slot i sv rin sin) :
    (s.atReads slot i rin sin sv).ctx i = { s.ctx i with serving := some (heard s rin sin sv) } := hear_ctx h.1.1.lt

theorem atReads_ctx_ne {k : Nat} (hk : k ≠ i) : (s.atReads slot i rin sin sv).ctx k = s.ctx k := State.ctx_setCtx_ne _ _ _ _ hk.symm

theorem atReads_boundOf (h : s.plainSample slot i sv rin sin) : (s.atReads slot i rin sin sv).boundOf i = s.boundOf i := hear_boundOf h.1.1.lt

theorem atReads_tapBlock (c : Nat) : (s.atReads slot i rin sin sv).tapBlock c = s.tapBlock c := rfl

/-! ### Acts beside the stages -/

theorem State.errorOver_congr {parts : List (Nat × Nat)} (h : ∀ jb ∈ parts, (t.tapBlock jb.2).entries = (s.tapBlock jb.2).entries) :
    t.errorOver parts sv rin sin = s.errorOver parts sv rin sin := by
  rw [State.errorOver, State.errorOver, State.estimateOver, State.estimateOver]
  have sums : parts.map (fun jb => ((List.range 64).map fun k =>
        ((t.tapBlock jb.2).entries.getD k ⟨0, 0, 0⟩).h * (sv.windowAt rin).getD (64 * jb.1 + k) 0).sum) =
      parts.map fun jb => ((List.range 64).map fun k =>
        ((s.tapBlock jb.2).entries.getD k ⟨0, 0, 0⟩).h * (sv.windowAt rin).getD (64 * jb.1 + k) 0).sum :=
    List.map_congr_left fun jb hjb => by rw [h jb hjb]
  rw [sums]

/-- Gathering stands beside a change of what it does not touch. -/
theorem gatherGradients_modBlock (gathers : ∀ e window j t, f (TapBlock.gathering e window j t) = TapBlock.gathering e window j (f t))
    (parts : List (Nat × Nat)) (e : Int) (window : List Int) (s : State) :
    gatherGradients parts e window (s.modBlock b f) = (gatherGradients parts e window s).modBlock b f := by
  induction parts generalizing s with
  | nil => rfl
  | cons jb parts ih =>
    have step : (s.modBlock b f).modBlock jb.2 (TapBlock.gathering e window jb.1) =
        (s.modBlock jb.2 (TapBlock.gathering e window jb.1)).modBlock b f := by
      by_cases same : jb.2 = b
      · rw [same, State.modBlock_modBlock, State.modBlock_modBlock]
        exact State.modBlock_congr (gathers e window jb.1 _).symm
      · exact State.modBlock_comm s same f _
    show gatherGradients parts e window ((s.modBlock b f).modBlock jb.2 (TapBlock.gathering e window jb.1)) = _
    rw [step]
    exact ih _

/-- So do all the stages of a sample. -/
theorem endSample_modBlock (entries : ∀ t, (f t).entries = t.entries)
    (gathers : ∀ e window j t, f (TapBlock.gathering e window j t) = TapBlock.gathering e window j (f t)) (atStart : List (Nat × Nat))
    (failed : List Nat) (u : State) : endSample slot i (stagesOf i rin sin atStart failed v (u.modBlock b f)) =
      (endSample slot i (stagesOf i rin sin atStart failed v u)).modBlock b f := by
  have read : ∀ c, ((u.modBlock b f).tapBlock c).entries = (u.tapBlock c).entries := fun c => by
    by_cases same : b = c
    · by_cases hc : c < u.pool.blocks.length
      · rw [same, State.tapBlock_modBlock_self _ _ _ hc, entries]
      · rw [same, State.tapBlock, State.modBlock, State.setBlock, List.set_eq_of_length_le (Nat.not_lt.1 hc), State.tapBlock]
    · rw [State.tapBlock_modBlock_ne _ _ _ _ same]
  have errors : ∀ parts, (u.modBlock b f).errorOver parts v rin sin = u.errorOver parts v rin sin := fun parts =>
    State.errorOver_congr fun jb _ => read jb.2
  have parts : ∀ bound parts, sampleParts (u.modBlock b f) i rin sin bound parts v = sampleParts u i rin sin bound parts v :=
    fun bound parts => by
      rw [sampleParts, errors]
      rfl
  have gather : ∀ p parts e window, gatherIf p parts e window (u.modBlock b f) = (gatherIf p parts e window u).modBlock b f :=
    fun p parts e window => by
      cases p with
      | false => rfl
      | true => exact gatherGradients_modBlock gathers parts e window u
  have bound : (u.modBlock b f).boundOf i = u.boundOf i := rfl
  have contributes : ∀ sv', sampleContributes (u.modBlock b f) i rin v sv' = sampleContributes u i rin v sv' := fun _ => rfl
  rw [stagesOf, bound]
  dsimp only
  rw [parts, errors, gather, contributes]
  rfl

/-! ### The sample and its reads -/

/-- A sample that meets wrong bits in one block is that block's read and the stages behind it (R44, R45). -/
theorem exec_struck {slot : BitVec 7} {failed : List Nat} (h : s.plainSample slot.toNat i sv rin sin) (distinct : s.boundDistinct i)
    (few : s.pool.blocks.length = 264) (mem : (j, b) ∈ s.boundOf i)
    (act : readBlock i ((s.atReads slot.toNat i rin sin sv).modBlock b (TapBlock.struck entry n)) (j, b) = u)
    (after : ∀ jb ∈ s.boundOf i, jb.2 ≠ b → (u.tapBlock jb.2).wrong = [])
    (fails : failedSegments ((s.atReads slot.toNat i rin sin sv).modBlock b (TapBlock.struck entry n)) (s.boundOf i) = failed)
    (hsv : (u.ctx i).serving = some v) (hv : v.phase = sv.phase) :
    exec (.sample slot rin sin [⟨BitVec.ofNat 9 b, entry, n⟩]) s =
      .next (endSample slot.toNat i (stagesOf i rin sin (s.boundOf i) failed v u)) := by
  obtain ⟨nodup, inPool⟩ := distinct
  have hb : b < 512 := lt_of_lt_of_le (inPool _ mem) (by rw [few]; decide)
  have struck := strike_one (s.atReads slot.toNat i rin sin sv) hb entry n
  have bound : ((s.atReads slot.toNat i rin sin sv).modBlock b (TapBlock.struck entry n)).boundOf i = s.boundOf i := atReads_boundOf h
  have clean := h.1.2.2.2.2.2
  have reads : readBlocks i (s.boundOf i) (strike [⟨BitVec.ofNat 9 b, entry, n⟩] (s.atReads slot.toNat i rin sin sv)) = u := by
    rw [struck, ← act, ← bound]
    refine readBlocks_one (by rw [bound]; exact nodup) (by rw [bound]; exact mem) (fun jb hjb hne => ?_) fun jb hjb hne => ?_
    · rw [State.tapBlock_modBlock_ne _ _ _ _ hne.symm]
      exact clean jb (bound ▸ hjb)
    · rw [act]
      exact after jb (bound ▸ hjb) hne
  have staged := exec_sample_stages (upsets := [⟨BitVec.ofNat 9 b, entry, n⟩]) h.1.1 h.1.2.1 h.1.2.2.1 ⟨h.1.2.2.2.1, h.1.2.2.2.2.1⟩ h.2 reads
    hsv hv
  refine congrArg Host.Outcome.next ((unlessHeld_of_ne h.1.1.ne_held).trans (staged.trans ?_))
  rw [← fails, ← struck]
  rfl

/-- The correction counted (R107). -/
def TapBlock.counted (c : Nat) (t : TapBlock) : TapBlock := { t with corrected := c }

/-- The state behind the reads that correct one wrong bit. -/
def State.countedAt (s : State) (slot i : Nat) (rin sin : Byte) (sv : Serving) (b : Nat) : State :=
  (s.atReads slot i rin sin sv).modBlock b (TapBlock.counted (min 255 ((s.tapBlock b).corrected + 1)))

theorem correctedReads_counts : correctedReads b 1 (s.atReads slot i rin sin sv) = retireIfDue b (s.countedAt slot i rin sin sv b) := by
  have counted : (s.atReads slot i rin sin sv).modBlock b (fun t => { t with corrected := min 255 (t.corrected + 1) }) =
      s.countedAt slot i rin sin sv b := State.modBlock_congr rfl
  rw [correctedReads, counted]

theorem countedAt_tapBlock (inPool : b < s.pool.blocks.length) :
    (s.countedAt slot i rin sin sv b).tapBlock b = (s.tapBlock b).counted (min 255 ((s.tapBlock b).corrected + 1)) :=
  State.tapBlock_modBlock_self _ _ _ inPool

theorem countedAt_tapBlock_ne {c : Nat} (hc : c ≠ b) : (s.countedAt slot i rin sin sv b).tapBlock c = s.tapBlock c :=
  State.tapBlock_modBlock_ne _ _ _ _ hc.symm

/-- The retirement of a block that is counted (R108). -/
theorem countedAt_due (inPool : b < s.pool.blocks.length) (few : s.pool.blocks.length = 264) (assigned : (s.tapBlock b).state = .assigned) :
    retireIfDue b (s.countedAt slot i rin sin sv b) =
      if 16 ≤ (s.tapBlock b).corrected + 1 ∧ (s.tapBlock b).retirePending = false then retire b (s.countedAt slot i rin sin sv b)
      else s.countedAt slot i rin sin sv b := by
  have read := countedAt_tapBlock (slot := slot) (i := i) (rin := rin) (sin := sin) (sv := sv) inPool
  have due : (b < Config.tapBlocks ∧ retireDue ((s.countedAt slot i rin sin sv b).tapBlock b) = true) ↔
      (16 ≤ (s.tapBlock b).corrected + 1 ∧ (s.tapBlock b).retirePending = false) := by
    have worn : (16 ≤ min 255 ((s.tapBlock b).corrected + 1)) ↔ 16 ≤ (s.tapBlock b).corrected + 1 := by omega
    rw [read, retireDue]
    simp [TapBlock.counted, assigned, Config.tapBlocks, Config.retireAt, few ▸ inPool, worn]
  rw [retireIfDue, if_congr due rfl rfl]

end Corrected

end Sys2Proof.Machine

namespace Sys2Proof.Machine

open Sys2Proof

/-! ## One wrong bit: the count, the mark and the migration (R107, R108) -/

/-! ### A bound block of a sound pool -/

/-- The block b is bound to segment j of context i, whose record is r. -/
structure State.BoundAt (s : State) (i : Nat) (r : SearchRecord) (j b : Nat) : Prop where
  search : (s.ctx i).search = some r
  mem : (j, b) ∈ r.bound
  sound : s.Sound i r
  few : s.pool.blocks.length = 264
  assigned : (s.tapBlock b).state = .assigned
  segment : (s.tapBlock b).segment = some j
  owner : ∃ o, (s.tapBlock b).owner = some o ∧ o.context = i

theorem poolSound_boundAt {s : State} {i j b : Nat} {r : SearchRecord} (sound : s.poolSound) (hr : (s.ctx i).search = some r)
    (mem : (j, b) ∈ r.bound) : s.BoundAt i r j b := by
  have whole := poolSound_sound sound hr
  obtain ⟨-, few, -, -, -, -, holds, -⟩ := sound
  obtain ⟨-, -, bound, -⟩ := holds i r hr
  obtain ⟨assigned, segment, owner⟩ := bound (j, b) mem
  exact ⟨hr, mem, whole, few, assigned, segment, Option.map_eq_some_iff.1 owner⟩

section BoundAt

variable {s : State} {i j b : Nat} {r : SearchRecord}

theorem State.BoundAt.boundOf (h : s.BoundAt i r j b) : s.boundOf i = r.bound := by
  rw [State.boundOf, h.search]
  rfl

theorem SearchRecord.bound_blocks {jb : Nat × Nat} (hjb : jb ∈ r.bound) : jb.2 ∈ r.blocks :=
  List.mem_append_left _ (List.mem_map_of_mem hjb)

theorem State.BoundAt.distinct (h : s.BoundAt i r j b) : s.boundDistinct i := by
  have nodup : (r.bound.map (·.2)).Nodup := h.sound.nodup.sublist (List.sublist_append_left _ _)
  exact ⟨h.boundOf ▸ nodup, fun jb hjb => h.sound.inPool _ (SearchRecord.bound_blocks (h.boundOf ▸ hjb))⟩

theorem State.BoundAt.inPool (h : s.BoundAt i r j b) : b < s.pool.blocks.length := h.sound.inPool _ (SearchRecord.bound_blocks h.mem)

theorem State.BoundAt.of_block (h : s.BoundAt i r j b) {jb : Nat × Nat} (hjb : jb ∈ r.bound) (same : jb.2 = b) : jb = (j, b) :=
  List.inj_on_of_nodup_map (h.boundOf ▸ h.distinct.1) hjb h.mem same

theorem State.BoundAt.of_segment (h : s.BoundAt i r j b) {jb : Nat × Nat} (hjb : jb ∈ r.bound) (same : jb.1 = j) : jb = (j, b) :=
  SearchRecord.bound_unique h.sound.distinct hjb h.mem same

end BoundAt

/-! ### A block in another's place -/

/-- The bound segments with block h in the place of (j, b). -/
def swapped (j b h : Nat) (jb : Nat × Nat) : Nat × Nat := if jb = (j, b) then (j, h) else jb

theorem swapped_fst (j b h : Nat) (jb : Nat × Nat) : (swapped j b h jb).1 = jb.1 := by
  unfold swapped
  split
  · next same => rw [same]
  · rfl

/-- Filling a bound segment with another block changes that block alone. -/
theorem boundIn_setFill {j h : Nat} {map : List Segment} (filled : ∀ e ∈ map, e.number = j → e.block?.isSome = true) :
    boundIn (setFill j (.block h) map) = (boundIn map).map fun jb => if jb.1 = j then (j, h) else jb := by
  induction map with
  | nil => rfl
  | cons e map ih =>
    have step : setFill j (.block h) (e :: map) = (if e.number = j then { e with fill := .block h } else e) :: setFill j (.block h) map := rfl
    rw [step, boundIn_cons, boundIn_cons, ih fun x hx => filled x (List.mem_cons_of_mem _ hx), List.map_append]
    congr 1
    by_cases same : e.number = j
    · obtain ⟨c, hc⟩ := Option.isSome_iff_exists.1 (filled e (List.mem_cons_self ..) same)
      rw [if_pos same, hc]
      simp [Segment.block?, same]
    · rw [if_neg same]
      cases e.block? with
      | none => rfl
      | some c => simp [same]

section Swap

variable {s : State} {i j b h : Nat} {r : SearchRecord}

theorem mem_boundIn {map : List Segment} {jb : Nat × Nat} : jb ∈ boundIn map ↔ (⟨jb.1, .block jb.2⟩ : Segment) ∈ map := by
  refine List.mem_filterMap.trans ⟨fun ⟨e, he, found⟩ => ?_, fun he => ⟨_, he, rfl⟩⟩
  obtain ⟨number, fill⟩ := e
  cases fill with
  | block c =>
    obtain rfl := Option.some.inj found
    exact he
  | unfilled => cases found
  | lost => cases found

theorem State.BoundAt.swaps (at' : s.BoundAt i r j b) : (r.refilled j h).bound = r.bound.map (swapped j b h) := by
  have here : (⟨j, .block b⟩ : Segment) ∈ r.map := mem_boundIn.1 at'.mem
  refine (boundIn_setFill fun e he same => ?_).trans (List.map_congr_left fun jb hjb => ?_)
  · rw [at'.sound.distinct.eq_of_number he here same]
    rfl
  · unfold swapped
    refine if_congr ⟨at'.of_segment hjb, fun he => by rw [he]⟩ rfl rfl

/-- With a block from outside the search the blocks stay distinct. -/
theorem State.BoundAt.swapped_nodup (at' : s.BoundAt i r j b) (fresh : ∀ jb ∈ r.bound, jb.2 ≠ h) : ((r.bound.map (swapped j b h)).map (·.2)).Nodup := by
  rw [List.map_map]
  have nodup : (r.bound.map (·.2)).Nodup := at'.boundOf ▸ at'.distinct.1
  refine List.Nodup.map_on (fun x hx y hy same => ?_) nodup.of_map
  simp only [Function.comp_apply, swapped] at same
  split at same <;> split at same
  · next hx' hy' => rw [hx', hy']
  · exact absurd same.symm (fresh y hy)
  · exact absurd same (fresh x hx)
  · exact List.inj_on_of_nodup_map nodup hx hy same

end Swap

/-! ### The stages over the blocks of another state -/

section Stages

variable {s t u : State} {slot i b : Nat} {sv v : Serving} {rin sin : Byte}

theorem takingPart_full {atStart now : List (Nat × Nat)} (h : ∀ jb ∈ now, ∃ e ∈ atStart, e.1 = jb.1) : takingPart atStart now [] = now :=
  List.filter_eq_self.2 fun jb hjb => by
    obtain ⟨e, he, same⟩ := h jb hjb
    simp only [List.contains_nil, Bool.not_false, Bool.and_true, List.any_eq_true]
    exact ⟨e, he, by simpa using same⟩

theorem State.errorOver_map {parts : List (Nat × Nat)} {φ : Nat × Nat → Nat × Nat} (number : ∀ jb, (φ jb).1 = jb.1)
    (h : ∀ jb ∈ parts, (t.tapBlock (φ jb).2).entries = (s.tapBlock jb.2).entries) :
    t.errorOver (parts.map φ) sv rin sin = s.errorOver parts sv rin sin := by
  rw [State.errorOver, State.errorOver, State.estimateOver, State.estimateOver, List.map_map]
  have sums : parts.map ((fun jb => ((List.range 64).map fun k =>
        ((t.tapBlock jb.2).entries.getD k ⟨0, 0, 0⟩).h * (sv.windowAt rin).getD (64 * jb.1 + k) 0).sum) ∘ φ) =
      parts.map fun jb => ((List.range 64).map fun k =>
        ((s.tapBlock jb.2).entries.getD k ⟨0, 0, 0⟩).h * (sv.windowAt rin).getD (64 * jb.1 + k) 0).sum :=
    List.map_congr_left fun jb hjb => by rw [Function.comp_apply, h jb hjb, number]
  rw [sums]

/-- The blocks behind the gradients of a sample, each bound once (R47). -/
theorem gatherIf_tapBlock {parts : List (Nat × Nat)} (nodup : (parts.map (·.2)).Nodup) (inPool : ∀ jb ∈ parts, jb.2 < u.pool.blocks.length)
    (p : Bool) (e : Int) (window : List Int) :
    (∀ jb ∈ parts, (gatherIf p parts e window u).tapBlock jb.2 =
        if p = true then (u.tapBlock jb.2).gathering e window jb.1 else u.tapBlock jb.2)
      ∧ ∀ c, (∀ jb ∈ parts, jb.2 ≠ c) → (gatherIf p parts e window u).tapBlock c = u.tapBlock c := by
  cases p with
  | false => exact ⟨fun _ _ => rfl, fun _ _ => rfl⟩
  | true => exact State.foldl_modBlock (fun jb => TapBlock.gathering e window jb.1) parts u nodup inPool

/-- The end of a sample leaves the blocks as its stages do. -/
theorem endSample_tapBlock (out : State × CodePair) (c : Nat) : (endSample slot i out).tapBlock c = out.1.tapBlock c := rfl

theorem endSample_queues (out : State × CodePair) : (endSample slot i out).pool = out.1.pool ∧ (endSample slot i out).lane = out.1.lane :=
  ⟨rfl, rfl⟩

theorem endSample_highway {out out' : State × CodePair} (highway : out'.1.highway = out.1.highway) (frame : out'.1.frame = out.1.frame)
    (codes : out'.2 = out.2) : (endSample slot i out').highway = (endSample slot i out).highway := by
  show (placeCodes slot out'.2 out'.1).highway = (placeCodes slot out.2 out.1).highway
  simp only [placeCodes, highway, frame, codes]

theorem gatherIf_queues (p : Bool) (parts : List (Nat × Nat)) (e : Int) (window : List Int) (u : State) :
    (gatherIf p parts e window u).pool.fifo = u.pool.fifo ∧ (gatherIf p parts e window u).pool.shortfall = u.pool.shortfall
      ∧ (gatherIf p parts e window u).lane = u.lane := by
  cases p with
  | false => exact ⟨rfl, rfl, rfl⟩
  | true => exact gatherGradients_queues parts e window u

end Stages

end Sys2Proof.Machine

namespace Sys2Proof.Machine

open Sys2Proof

/-! ## The sample that corrects a wrong bit -/

section OneBit

variable {s u : State} {slot : BitVec 7} {i j b h : Nat} {sv : Serving} {rin sin : Byte} {r : SearchRecord} {entry : BitVec 6}
  {rest : List Nat} {o : Owner}

/-- The state after the sample without the wrong bit. -/
theorem exec_plain_stages (plain : s.plainSample slot.toNat i sv rin sin) :
    exec (.sample slot rin sin []) s = .next (endSample slot.toNat i (stagesOf i rin sin (s.boundOf i) [] (heard s rin sin sv)
      (s.atReads slot.toNat i rin sin sv))) := exec_plain plain

/-- The sample that corrects one wrong bit is the retirement of its block, if due, and the stages behind it (R107). -/
theorem exec_one (plain : s.plainSample slot.toNat i sv rin sin) (here : s.BoundAt i r j b)
    (act : retireIfDue b (s.countedAt slot.toNat i rin sin sv b) = u)
    (after : ∀ jb ∈ s.boundOf i, jb.2 ≠ b → (u.tapBlock jb.2).wrong = []) (hsv : (u.ctx i).serving = some (heard s rin sin sv)) :
    exec (.sample slot rin sin [⟨BitVec.ofNat 9 b, entry, 1⟩]) s =
      .next (endSample slot.toNat i (stagesOf i rin sin (s.boundOf i) [] (heard s rin sin sv) u)) := by
  have mem : (j, b) ∈ s.boundOf i := here.boundOf ▸ here.mem
  have clean : ∀ jb ∈ s.boundOf i, ((s.atReads slot.toNat i rin sin sv).tapBlock jb.2).wrong = [] := plain.1.2.2.2.2.2
  have inPool : b < (s.atReads slot.toNat i rin sin sv).pool.blocks.length := here.inPool
  have read : readBlock i ((s.atReads slot.toNat i rin sin sv).modBlock b (TapBlock.struck entry 1)) (j, b) = u := by
    rw [readBlock_one (clean (j, b) mem) inPool, correctedReads_counts]
    exact act
  have phase : (heard s rin sin sv).phase = sv.phase := rfl
  refine exec_struck (failed := []) plain here.distinct here.few mem read after ?_ hsv phase
  rw [failedSegments, List.map_eq_nil_iff, List.filter_eq_nil_iff]
  intro jb hjb
  by_cases same : jb.2 = b
  · rw [same, State.tapBlock_modBlock_self _ _ _ inPool, (TapBlock.struck_one (clean (j, b) mem)).1]
    exact Bool.false_ne_true
  · rw [State.tapBlock_modBlock_ne _ _ _ _ (Ne.symm same), TapBlock.fails_clean (clean jb hjb)]
    exact Bool.false_ne_true

/-- The sample whose block is changed beside its entries alone. -/
theorem exec_one_beside {f : TapBlock → TapBlock} (plain : s.plainSample slot.toNat i sv rin sin) (here : s.BoundAt i r j b)
    (act : retireIfDue b (s.countedAt slot.toNat i rin sin sv b) = (s.atReads slot.toNat i rin sin sv).modBlock b f)
    (entries : ∀ t, (f t).entries = t.entries)
    (gathers : ∀ e window j t, f (TapBlock.gathering e window j t) = TapBlock.gathering e window j (f t)) :
    exec (.sample slot rin sin [⟨BitVec.ofNat 9 b, entry, 1⟩]) s =
      .next ((endSample slot.toNat i (stagesOf i rin sin (s.boundOf i) [] (heard s rin sin sv)
        (s.atReads slot.toNat i rin sin sv))).modBlock b f) := by
  have served : (((s.atReads slot.toNat i rin sin sv).modBlock b f).ctx i).serving = some (heard s rin sin sv) :=
    congrArg Context.serving (atReads_ctx plain)
  rw [exec_one plain here act (fun jb hjb hne => ?_) served, endSample_modBlock entries gathers]
  · rw [State.tapBlock_modBlock_ne _ _ _ _ hne.symm]
    exact plain.1.2.2.2.2.2 jb hjb

/-! ### Migration within a sample -/

/-- What a block that retires on the sample leaves at the tap reads (R108). -/
theorem countedAt_migrates (pool : s.poolSound) (here : s.BoundAt i r j b) (fifo : s.pool.fifo = h :: rest)
    (owner : (s.tapBlock b).owner = some o) :
    (s.countedAt slot.toNat i rin sin sv b).Migrates b h rest o j (retire b (s.countedAt slot.toNat i rin sin sv b)) := by
  have free : h < 264 ∧ (s.tapBlock h).state = .free := (pool.2.2.2.1 h).1 (by rw [fifo]; exact List.mem_cons_self ..)
  have queue : s.pool.shortfall = [] := by
    by_contra waits
    obtain ⟨-, -, -, -, -, -, -, -, empty, -⟩ := pool
    rw [empty waits] at fifo
    cases fifo
  have read := countedAt_tapBlock (slot := slot.toNat) (i := i) (rin := rin) (sin := sin) (sv := sv) here.inPool
  have length : (s.countedAt slot.toNat i rin sin sv b).pool.blocks.length = s.pool.blocks.length := State.modBlock_length _ _ _
  have apart : h ≠ b := fun he => by
    rw [he, here.assigned] at free
    exact absurd free.2 nofun
  refine retire_sound fifo (by rw [read]; exact owner) (by rw [read]; exact here.segment) (by rw [read]; exact here.assigned)
    ?_ (by rw [length]; exact here.inPool) (by rw [length, here.few]; exact free.1) queue
  rw [countedAt_tapBlock_ne apart]
  exact free.2

/-- The blocks of the sample as it finds them (R108). -/
structure State.Replaces (s : State) (slot i : Nat) (rin sin : Byte) (sv : Serving) (r : SearchRecord) (j b h : Nat) (u : State) : Prop where
  ctx : u.ctx i = { s.ctx i with serving := some (heard s rin sin sv), search := some (r.refilled j h) }
  others : ∀ k, k ≠ i → u.ctx k = s.ctx k
  entries : ∀ jb ∈ r.bound, (u.tapBlock (swapped j b h jb).2).entries = (s.tapBlock jb.2).entries
  fresh : ∀ jb ∈ r.bound, jb.2 ≠ h
  inPool : ∀ jb ∈ r.bound, (swapped j b h jb).2 < u.pool.blocks.length
  outside : u.outside = (s.atReads slot i rin sin sv).outside

theorem retire_replaces (pool : s.poolSound) (plain : s.plainSample slot.toNat i sv rin sin) (here : s.BoundAt i r j b)
    (fifo : s.pool.fifo = h :: rest) (owner : (s.tapBlock b).owner = some o) (mine : o.context = i) :
    s.Replaces slot.toNat i rin sin sv r j b h (retire b (s.countedAt slot.toNat i rin sin sv b)) := by
  have migrates := countedAt_migrates (slot := slot) (rin := rin) (sin := sin) (sv := sv) pool here fifo owner
  have free : h ∈ s.pool.fifo := by rw [fifo]; exact List.mem_cons_self ..
  have fresh : ∀ jb ∈ r.bound, jb.2 ≠ h := fun jb hjb he => here.sound.owns.fifo _ (SearchRecord.bound_blocks hjb) (he ▸ free)
  have length : (retire b (s.countedAt slot.toNat i rin sin sv b)).pool.blocks.length = s.pool.blocks.length :=
    (State.outside_blocks migrates.outside).trans (State.modBlock_length _ _ _)
  have counted := countedAt_tapBlock (slot := slot.toNat) (i := i) (rin := rin) (sin := sin) (sv := sv) here.inPool
  have self : (s.countedAt slot.toNat i rin sin sv b).ctx i = { s.ctx i with serving := some (heard s rin sin sv) } := atReads_ctx plain
  have lt : i < (s.countedAt slot.toNat i rin sin sv b).table.contexts.length := State.lt_of_serving (congrArg Context.serving self)
  have lowest : ∀ jb ∈ r.bound, jb.2 ≠ b → jb.2 ∉ (s.countedAt slot.toNat i rin sin sv b).lowestSpare := fun jb hjb hne hm => by
    have spare := (State.mem_lowestSpare hm).2
    rw [countedAt_tapBlock_ne hne] at spare
    exact here.sound.owns.spare _ (SearchRecord.bound_blocks hjb) spare
  refine ⟨?_, fun k hk => ?_, fun jb hjb => ?_, fresh, fun jb hjb => ?_, migrates.outside.trans (State.outside_modBlock _ _ _)⟩
  · rw [migrates.ctx, mine, State.ctx_modSearch_self _ _ _ lt, self]
    show ({ s.ctx i with serving := some (heard s rin sin sv), search := (s.ctx i).search.map (SearchRecord.refilled j h) } : Context) = _
    rw [here.search]
    rfl
  · rw [migrates.ctx, mine, State.ctx_modSearch_ne _ _ _ _ hk.symm]
    exact atReads_ctx_ne hk
  · unfold swapped
    split
    · next same =>
      rw [migrates.head, counted, same]
      rfl
    · next other =>
      have hne : jb.2 ≠ b := fun he => other (here.of_block hjb he)
      rw [migrates.stand jb.2 (fresh jb hjb) hne (lowest jb hjb hne), countedAt_tapBlock_ne hne]
  · rw [length]
    unfold swapped
    split
    · exact here.few ▸ ((pool.2.2.2.1 h).1 free).1
    · exact here.sound.inPool _ (SearchRecord.bound_blocks hjb)

variable {u : State}

theorem State.Replaces.boundOf (re : s.Replaces slot.toNat i rin sin sv r j b h u) (here : s.BoundAt i r j b) :
    u.boundOf i = r.bound.map (swapped j b h) := by
  rw [State.boundOf, re.ctx]
  exact here.swaps

/-- The blocks that take part are the same segments (R44). -/
theorem State.Replaces.parts (re : s.Replaces slot.toNat i rin sin sv r j b h u) (here : s.BoundAt i r j b) :
    takingPart (s.boundOf i) (u.boundOf i) [] = r.bound.map (swapped j b h) := by
  rw [re.boundOf here, here.boundOf]
  refine takingPart_full fun jb hjb => ?_
  obtain ⟨x, hx, rfl⟩ := List.mem_map.1 hjb
  exact ⟨x, hx, (swapped_fst j b h x).symm⟩

theorem State.Replaces.error (re : s.Replaces slot.toNat i rin sin sv r j b h u) :
    u.errorOver (r.bound.map (swapped j b h)) (heard s rin sin sv) rin sin = s.errorOver r.bound sv rin sin :=
  State.errorOver_map (sv := heard s rin sin sv) (swapped_fst j b h) re.entries

theorem State.Replaces.profileOf (re : s.Replaces slot.toNat i rin sin sv r j b h u) (plain : s.plainSample slot.toNat i sv rin sin) :
    u.profileOf i = s.profileOf i :=
  State.profileOf_congr ((State.outside_profile re.outside).trans rfl) (by rw [re.ctx, plain.1.1.2.2.2]; rfl)

/-- The stages of the sample are those without the wrong bit, but for the blocks they gather on. -/
theorem State.Replaces.stages (re : s.Replaces slot.toNat i rin sin sv r j b h u) (plain : s.plainSample slot.toNat i sv rin sin)
    (here : s.BoundAt i r j b) :
    stagesOf i rin sin (s.boundOf i) [] (heard s rin sin sv) u =
      ((gatherIf (sampleContributes s i rin sv (plainParts s i rin sin sv).1) (r.bound.map (swapped j b h))
          (s.errorOver r.bound sv rin sin) (sv.windowAt rin) u).setCtx i
        { u.ctx i with serving := some { (plainParts s i rin sin sv).1 with failed := [] } },
       ⟨(receivePath sv rin).rout, (plainParts s i rin sin sv).2⟩) := by
  have parts : sampleParts u i rin sin ((s.boundOf i).map (·.1)) (r.bound.map (swapped j b h)) (heard s rin sin sv) =
      plainParts s i rin sin sv := by
    rw [sampleParts, re.error, re.profileOf plain, re.ctx, plainParts, sampleParts, here.boundOf]
    rfl
  have contributes : ∀ sv', sampleContributes u i rin (heard s rin sin sv) sv' = sampleContributes s i rin sv sv' := fun sv' => by
    rw [sampleContributes, re.ctx]
    rfl
  rw [stagesOf, re.parts here]
  dsimp only
  rw [parts, re.error, contributes]
  rfl

end OneBit

end Sys2Proof.Machine

namespace Sys2Proof.Machine

open Sys2Proof

/-! ## What one wrong bit leaves (R107, R108) -/

section OneBit

variable {s u : State} {slot : BitVec 7} {i j b h : Nat} {sv : Serving} {rin sin : Byte} {r : SearchRecord} {entry : BitVec 6}
  {rest : List Nat} {o : Owner}

/-- The serving parts behind a plain sample. -/
def servedAfter (s : State) (i : Nat) (rin sin : Byte) (sv : Serving) : Serving :=
  { (plainParts s i rin sin sv).1 with failed := [], phase := sv.phase + 1 }

/-- `t` is the state after a sample on which block b, bound to segment j of context i, migrated to the FIFO head h, where `t0` is the
state after the sample without the wrong bit (R108). -/
structure State.MigratedOn (s t0 : State) (i : Nat) (r : SearchRecord) (j b h : Nat) (sv0 : Serving) (t : State) : Prop where
  fifo : t.pool.fifo = s.pool.fifo.drop 1 ++ s.lowestSpare
  failed : (t.tapBlock b).state = .failed
  corrected : (t.tapBlock b).corrected = min 255 ((s.tapBlock b).corrected + 1)
  assigned : (t.tapBlock h).state = .assigned
  owner : (t.tapBlock h).owner = (s.tapBlock b).owner
  segment : (t.tapBlock h).segment = some j
  entries : (t.tapBlock h).entries = (t0.tapBlock b).entries
  bound : t.boundOf i = r.bound.map (swapped j b h)
  serving : (t.ctx i).serving = some sv0
  highway : t.highway = t0.highway
  others : ∀ k, k ≠ i → t.ctx k = s.ctx k

/-- A record of the gathered block is what it was but for the entries. -/
theorem gathered_fields (p : Bool) (e : Int) (window : List Int) (j : Nat) (t : TapBlock) :
    (if p = true then t.gathering e window j else t).state = t.state ∧ (if p = true then t.gathering e window j else t).owner = t.owner
      ∧ (if p = true then t.gathering e window j else t).segment = t.segment
      ∧ (if p = true then t.gathering e window j else t).entries =
        if p = true then addGradient e t.entries (windowOf window j) else t.entries := by
  cases p <;> exact ⟨rfl, rfl, rfl, rfl⟩

theorem sample_migrates (pool : s.poolSound) (plain : s.plainSample slot.toNat i sv rin sin) (here : s.BoundAt i r j b)
    (fifo : s.pool.fifo = h :: rest) :
    s.MigratedOn (plainSampled s slot.toNat i rin sin sv) i r j b h (servedAfter s i rin sin sv)
      (endSample slot.toNat i (stagesOf i rin sin (s.boundOf i) [] (heard s rin sin sv) (retire b (s.countedAt slot.toNat i rin sin sv b)))) := by
  obtain ⟨o, owner, mine⟩ := here.owner
  have hsv := plain.1.1.2.2.2
  have migrates := countedAt_migrates (slot := slot) (rin := rin) (sin := sin) (sv := sv) pool here fifo owner
  have re := retire_replaces (rin := rin) (sin := sin) (slot := slot) pool plain here fifo owner mine
  have counted := countedAt_tapBlock (slot := slot.toNat) (i := i) (rin := rin) (sin := sin) (sv := sv) here.inPool
  have plainBlocks := plainSampled_pool (slot := slot.toNat) (rin := rin) (sin := sin) hsv
  have lowest : (s.countedAt slot.toNat i rin sin sv b).lowestSpare = s.lowestSpare :=
    State.lowestSpare_congr (State.modBlock_length _ _ _) fun c => by
      by_cases hc : c = b
      · rw [hc, counted]
        rfl
      · rw [countedAt_tapBlock_ne hc]
  generalize retire b (s.countedAt slot.toNat i rin sin sv b) = u at migrates re
  have parts : ∀ jb ∈ r.bound.map (swapped j b h), jb.2 < u.pool.blocks.length := fun jb hjb => by
    obtain ⟨x, hx, rfl⟩ := List.mem_map.1 hjb
    exact re.inPool x hx
  obtain ⟨gathered, stand⟩ := gatherIf_tapBlock (here.swapped_nodup re.fresh) parts
    (sampleContributes s i rin sv (plainParts s i rin sin sv).1) (s.errorOver r.bound sv rin sin) (sv.windowAt rin)
  obtain ⟨before, -⟩ := gatherIf_tapBlock (u := s) (parts := r.bound) (here.boundOf ▸ here.distinct.1)
    (fun jb hjb => here.sound.inPool _ (SearchRecord.bound_blocks hjb))
    (sampleContributes s i rin sv (plainParts s i rin sin sv).1) (s.errorOver r.bound sv rin sin) (sv.windowAt rin)
  obtain ⟨queue, -, -⟩ := gatherIf_queues (sampleContributes s i rin sv (plainParts s i rin sin sv).1) (r.bound.map (swapped j b h))
    (s.errorOver r.bound sv rin sin) (sv.windowAt rin) u
  have atHead := gathered (j, h) (List.mem_map.2 ⟨(j, b), here.mem, if_pos rfl⟩)
  have headNe : h ≠ b := fun he => re.fresh (j, b) here.mem he.symm
  have atBlock := stand b fun jb hjb he => by
    obtain ⟨x, hx, rfl⟩ := List.mem_map.1 hjb
    unfold swapped at he
    split at he
    · exact headNe he
    · next other => exact other (here.of_block hx he)
  have old : ((plainSampled s slot.toNat i rin sin sv).tapBlock b).entries =
      ((gatherIf (sampleContributes s i rin sv (plainParts s i rin sin sv).1) r.bound (s.errorOver r.bound sv rin sin) (sv.windowAt rin)
        s).tapBlock b).entries := by
    rw [here.boundOf] at plainBlocks
    exact congrArg (fun p : Pool => (p.blocks.getD b (idleBlock .failed)).entries) plainBlocks
  rw [before (j, b) here.mem] at old
  have stages := re.stages plain here
  have lt : i < u.table.contexts.length := State.lt_of_serving (congrArg Context.serving re.ctx)
  have self := stagesOf_ctx (rin := rin) (sin := sin) (atStart := s.boundOf i) (failed := []) (v := heard s rin sin sv) lt
  have out := gatherIf_outside (sampleContributes s i rin sv (plainParts s i rin sin sv).1) (r.bound.map (swapped j b h))
    (s.errorOver r.bound sv rin sin) (sv.windowAt rin) u
  have plainOut := gatherIf_outside (sampleContributes s i rin sv (plainParts s i rin sin sv).1) (s.boundOf i)
    (s.errorOver (s.boundOf i) sv rin sin) (sv.windowAt rin) (s.atReads slot.toNat i rin sin sv)
  have headBlock : ∀ c, (endSample slot.toNat i (stagesOf i rin sin (s.boundOf i) [] (heard s rin sin sv) u)).tapBlock c =
      (gatherIf (sampleContributes s i rin sv (plainParts s i rin sin sv).1) (r.bound.map (swapped j b h)) (s.errorOver r.bound sv rin sin)
        (sv.windowAt rin) u).tapBlock c := fun c => by
    rw [endSample_tapBlock, stages]
    rfl
  obtain ⟨state, owned, segment, entries⟩ := gathered_fields (sampleContributes s i rin sv (plainParts s i rin sin sv).1)
    (s.errorOver r.bound sv rin sin) (sv.windowAt rin) j (u.tapBlock h)
  have migrated : u.tapBlock h = ((s.tapBlock b).counted (min 255 ((s.tapBlock b).corrected + 1))).migratedFrom o j
      ((s.countedAt slot.toNat i rin sin sv b).tapBlock h) := by
    rw [migrates.head, counted]
  refine ⟨?_, ?_, ?_, ?_, ?_, ?_, ?_, ?_, ?_, ?_, fun k hk => ?_⟩
  · rw [(endSample_queues _).1, stages, fifo]
    refine queue.trans ?_
    rw [migrates.fifo, lowest]
    rfl
  · rw [headBlock, atBlock, migrates.failed]
    rfl
  · rw [headBlock, atBlock, migrates.failed, counted]
    rfl
  · rw [headBlock, atHead, state, migrated]
    rfl
  · rw [headBlock, atHead, owned, migrated, owner]
    rfl
  · rw [headBlock, atHead, segment, migrated]
    rfl
  · rw [headBlock, atHead, entries, migrated, old, (gathered_fields _ _ _ _ _).2.2.2]
    rfl
  · rw [State.boundOf, endSample_ctx (congrArg Context.serving self), self]
    exact re.boundOf here
  · rw [stages] at self ⊢
    rw [endSample_ctx (v := { (plainParts s i rin sin sv).1 with failed := [] })]
    · rfl
    · exact congrArg Context.serving (State.ctx_setCtx_self _ _ _ (by rw [gatherIf_table]; exact lt))
  · rw [plainSampled, stagesOf_plain hsv, stages]
    refine endSample_highway (?_ : _ = _) (?_ : _ = _) rfl
    · exact (State.outside_highway out).trans ((State.outside_highway re.outside).trans (State.outside_highway plainOut).symm)
    · exact (State.outside_frame out).trans ((State.outside_frame re.outside).trans (State.outside_frame plainOut).symm)
  · rw [endSample_ctx_ne hk, stagesOf_ctx_ne hk]
    exact re.others k hk

end OneBit

end Sys2Proof.Machine

namespace Sys2Proof.Machine

open Sys2Proof

/-! ## An uncorrectable error, whoever waits for blocks (R92, R93, R110) -/

section Loss

variable {s u : State} {i j b h : Nat} {rest : List Nat} {X : List Nat} {K : List Segment} {q : SearchRecord}

/-- The station as block b has failed and segment j stands lost, before the promotion (R110, R112). -/
def State.losing (s : State) (i j b : Nat) : State :=
  ((s.failBlock b 0).noticeRetired b 3).modSearch i fun r => { r with map := setFill j .lost r.map }

/-- A search record without the segment j (R92). -/
def SearchRecord.without (j : Nat) (r : SearchRecord) : SearchRecord :=
  { r with map := r.map.filter (·.number != j), explored := r.explored.filter (· != j), retained := r.retained.filter (· != j) }

/-- A search that waits for blocks (R84, R92). -/
def SearchRecord.resting (r : SearchRecord) : SearchRecord := { r with status := .waiting, dwell := 0 }

/-- The record of a plan with the segment j unfilled (R93). -/
def SearchRecord.unfilled (j : Nat) (r : SearchRecord) : SearchRecord := { r with map := setFill j .unfilled r.map }

/-- The station as the FIFO head h takes over the segment j (R92, R93). -/
def State.refilled (s : State) (i j h : Nat) (rest : List Nat) : State :=
  (({ s with pool := { s.pool with fifo := rest } } : State).bindBlock i j h).modSearch i (SearchRecord.refilled j h)

theorem uncorrectable_refills (act : perform [.promote] (s.losing i j b) = u) (fifo : u.pool.fifo = h :: rest) :
    uncorrectable i j b s = u.refilled i j h rest := by
  subst act
  unfold uncorrectable
  dsimp only
  rw [← State.losing, fifo]
  rfl

theorem uncorrectable_loses (act : perform [.promote] (s.losing i j b) = u) (fifo : u.pool.fifo = [])
    (hc : (u.ctx i).callState = .search) : uncorrectable i j b s = loseSegment i j u := by
  subst act
  unfold uncorrectable
  dsimp only
  rw [← State.losing, fifo, hc]

theorem uncorrectable_unfills (act : perform [.promote] (s.losing i j b) = u) (fifo : u.pool.fifo = [])
    (hc : (u.ctx i).callState = .track) :
    uncorrectable i j b s = (restIfUnbound i (u.modSearch i (SearchRecord.unfilled j))).joinShortfall i := by
  subst act
  unfold uncorrectable
  dsimp only
  rw [← State.losing, fifo, hc]
  rfl

/-! ### The loss of a segment in SEARCH -/

theorem without_ctx (hq : (u.ctx i).search = some q) :
    (u.modSearch i (SearchRecord.without j)).ctx i = (u.ctx i).searching (q.without j) := by
  rw [State.ctx_modSearch_self _ _ _ (lt_of_search hq), hq]
  rfl

theorem loseSegment_eq (hq : (u.ctx i).search = some q) : loseSegment i j u =
    (let v := u.modSearch i (SearchRecord.without j)
     if (q.without j).bound ≠ [] then v
     else if (q.without j).spare ≠ [] then perform [.passStart i] v
     else
      let w := v.modSearch i SearchRecord.resting
      if w.pool.shortfall.contains i then w
      else if 0 < (requestToSpare i w).2 then perform [.passStart i] (requestToSpare i w).1 else (requestToSpare i w).1) := by
  have record : ((u.modSearch i (SearchRecord.without j)).ctx i).search = some (q.without j) := by
    rw [without_ctx hq]
    rfl
  have lost : u.modSearch i (fun r => { r with
      map := r.map.filter (·.number != j), explored := r.explored.filter (· != j), retained := r.retained.filter (· != j) }) =
      u.modSearch i (SearchRecord.without j) := rfl
  unfold loseSegment
  dsimp only
  rw [lost, record]
  rfl

theorem State.modSearch_fixed {f : SearchRecord → SearchRecord} (hq : (u.ctx i).search = some q) (fixed : f q = q) : u.modSearch i f = u := by
  have same : u.table.contexts.set i { u.ctx i with search := (u.ctx i).search.map f } = u.table.contexts := by
    have lt := lt_of_search hq
    have kept : ({ u.ctx i with search := (u.ctx i).search.map f } : Context) = u.ctx i := by
      rw [hq, Option.map_some, fixed, ← hq]
    rw [kept, State.ctx, List.getD_eq_getElem?_getD, List.getElem?_eq_getElem lt]
    exact List.set_getElem_self lt
  exact congrArg (fun cs => { u with table := { u.table with contexts := cs } }) same

/-- A request finds no FREE block (R101, R102). -/
theorem requestToSpare_none (hq : (u.ctx i).search = some q) (spare : q.spare = []) (fifo : u.pool.fifo = []) :
    requestToSpare i u = (u.joinShortfall i, 0) := by
  by_cases short : u.shortOf i = 0
  · rw [requestToSpare, State.joinShortfall]
    simp only [short, if_true, or_true]
  · by_cases queue : u.pool.shortfall = []
    · have taken : (u.takeBlocks 0).2 = u := by
        show ({ u with pool := { u.pool with fifo := u.pool.fifo.drop 0 } } : State) = u
        rfl
      have hand : u.inHand i 0 = u := by
        refine State.modSearch_fixed (u := (u.takeBlocks 0).2) hq ?_
        show ({ q with spare := sortNums (q.spare ++ u.pool.fifo.take 0) } : SearchRecord) = q
        rw [spare, List.take_zero]
        show ({ q with spare := [] } : SearchRecord) = q
        rw [← spare]
      rw [requestToSpare_free short queue, fifo]
      simp only [List.length_nil, Nat.min_zero, hand, if_pos (Nat.pos_of_ne_zero short)]
    · exact requestToSpare_wait short queue

theorem joinShortfall_of_mem (h : i ∈ u.pool.shortfall) : u.joinShortfall i = u := if_pos (.inl (by simpa using h))

/-- With no block left the search waits for one (R92). -/
theorem loseSegment_waits (hq : (u.ctx i).search = some q) (fifo : u.pool.fifo = []) (bound : (q.without j).bound = []) (spare : q.spare = []) :
    loseSegment i j u = ((u.modSearch i (SearchRecord.without j)).modSearch i SearchRecord.resting).joinShortfall i := by
  have record : (((u.modSearch i (SearchRecord.without j)).modSearch i SearchRecord.resting).ctx i).search = some (q.without j).resting := by
    rw [State.ctx_modSearch_self _ _ _ (by rw [State.modSearch_contexts_length]; exact lt_of_search hq), without_ctx hq]
    rfl
  have kept : (q.without j).spare = [] := spare
  rw [loseSegment_eq hq]
  simp only [bound, kept, ne_eq, not_true, if_false, requestToSpare_none record spare fifo, Nat.lt_irrefl]
  split
  · next mem => rw [joinShortfall_of_mem (by simpa using mem)]
  · rfl

end Loss

end Sys2Proof.Machine

namespace Sys2Proof.Machine

open Sys2Proof

/-! ## What an uncorrectable error leaves of the search, whoever waits (R92, R93, R110) -/

section Outlives

variable {s t u : State} {i j b h : Nat} {rest : List Nat} {X : List Nat} {K : List Segment} {st : CallState} {q : SearchRecord}

/-- `u` is `s` with the blocks `X` as they were and context i's search still on the segments `K`; of its serving parts only the
path-change run count may differ. -/
structure State.Outlives (i : Nat) (X : List Nat) (K : List Segment) (s u : State) : Prop where
  blocks : ∀ b ∈ X, u.tapBlock b = s.tapBlock b
  callState : (u.ctx i).callState = (s.ctx i).callState
  serving : ∀ sv, (s.ctx i).serving = some sv → ∃ p, (u.ctx i).serving = some { sv with pathRun := p }
  search : ∃ q, (u.ctx i).search = some q ∧ q.Keeps K (s.ctx i).callState

theorem State.Minds.outlives (h : s.Minds i X K u) : s.Outlives i X K u :=
  ⟨h.blocks, h.callState, fun sv hsv => ⟨sv.pathRun, h.serving.trans hsv⟩, h.search⟩

theorem State.Minds.setFifo (h : s.Minds i X K u) {fifo : List Nat} (sub : ∀ b ∈ fifo, b ∈ u.pool.fifo) :
    s.Minds i X K { u with pool := { u.pool with fifo } } :=
  ⟨h.blocks, h.spare, fun b hb hm => h.fifo b hb (sub b hm), h.hands, h.callState, h.serving, h.filled, h.search⟩

theorem joinShortfall_ctx (u : State) (i k : Nat) : (u.joinShortfall i).ctx k = u.ctx k := by
  unfold State.joinShortfall
  split
  · rfl
  · exact State.notify_ctx _ _ _ _

theorem joinShortfall_tapBlock (u : State) (i b : Nat) : (u.joinShortfall i).tapBlock b = u.tapBlock b := by
  unfold State.joinShortfall
  split
  · rfl
  · exact State.notify_tapBlock _ _ _ _

theorem joinShortfall_fifo (u : State) (i : Nat) : (u.joinShortfall i).pool.fifo = u.pool.fifo := by
  unfold State.joinShortfall
  split
  · rfl
  · rw [State.notify_pool]

theorem State.Minds.joinShortfall (h : s.Minds i X K u) (k : Nat) : s.Minds i X K (u.joinShortfall k) :=
  h.of_same (fun m => by rw [joinShortfall_ctx]) (joinShortfall_tapBlock u k) (joinShortfall_fifo u k)

/-- A search gives up a segment outside `K`. -/
theorem SearchRecord.Keeps.without (h : q.Keeps K st) (out : ∀ e ∈ K, e.number ≠ j) : (q.without j).Keeps K st := by
  refine ⟨List.Nodup.sublist (List.filter_sublist.map _) h.distinct, fun hs e he => ?_, fun e he => ?_⟩
  · obtain ⟨mem, other⟩ := List.mem_filter.1 he
    exact List.mem_filter.2 ⟨h.explored hs e mem, other⟩
  · exact List.mem_filter.2 ⟨h.kept e he, by simpa using out e he⟩

theorem State.Minds.without (h : s.Minds i X K u) (out : ∀ e ∈ K, e.number ≠ j) : s.Minds i X K (u.modSearch i (SearchRecord.without j)) :=
  h.modSearch i (fun _ _ _ _ hn => hn) fun _ _ _ keep => keep.without out

/-- The segment given up is there to explore (R77, R92). -/
theorem without_unexplored {reach : Nat} (hj : j < reach) : (q.without j).unexplored reach ≠ [] := by
  have mem : j ∈ (q.without j).unexplored reach := List.mem_filter.2 ⟨List.mem_range.2 hj, by simp [SearchRecord.without]⟩
  exact List.ne_nil_of_mem mem

theorem reachOf_modSearch (u : State) (i k : Nat) (f : SearchRecord → SearchRecord) : (u.modSearch i f).reachOf k = u.reachOf k := by
  have serving := State.ctx_modCtx_proj Context.serving u i k (fun c => { c with search := c.search.map f }) fun _ => rfl
  have profile : (u.modSearch i f).profileOf k = u.profileOf k := State.profileOf_congr rfl (congrArg (Option.map (·.profile)) serving)
  rw [State.reachOf, profile, State.reachOf]

theorem without_explores (hq : (u.ctx i).search = some q) (hj : j < u.reachOf i) (explores : u.Explores) :
    (u.modSearch i (SearchRecord.without j)).Explores := by
  intro k r hk hr waits
  rw [reachOf_modSearch]
  by_cases same : k = i
  · rw [same, without_ctx hq] at hr
    obtain rfl := Option.some.inj hr
    rw [same]
    exact without_unexplored hj
  · rw [State.ctx_modSearch_ne _ _ _ _ (Ne.symm same)] at hk hr
    exact explores k r hk hr waits

/-- The loss of a segment in SEARCH takes none of the others (R92). -/
theorem loseSegment_minds (h : s.Minds i X K u) (explores : u.Explores) (hc : (u.ctx i).callState = .search) (fifo : u.pool.fifo = [])
    (out : ∀ e ∈ K, e.number ≠ j) (hj : j < u.reachOf i) : s.Minds i X K (loseSegment i j u) := by
  obtain ⟨q, hq, -⟩ := h.search
  have lost := h.without out
  have record : ((u.modSearch i (SearchRecord.without j)).ctx i).search = some (q.without j) := by
    rw [without_ctx hq]
    rfl
  by_cases bound : (q.without j).bound = []
  · by_cases spare : q.spare = []
    · rw [loseSegment_waits hq fifo bound spare]
      exact (lost.modSearch i (f := SearchRecord.resting) (fun _ _ _ _ hn => hn)
        fun _ _ _ keep => ⟨keep.distinct, keep.explored, keep.kept⟩).joinShortfall i
    · have kept : (q.without j).spare ≠ [] := spare
      rw [loseSegment_eq hq]
      simp only [bound, ne_eq, not_true, if_false, kept, not_false_iff, if_true]
      refine perform_passStart_minds lost (without_explores hq hj explores) (by rw [callState_modSearch]; exact hc) record ?_
      rw [reachOf_modSearch]
      exact without_unexplored hj
  · rw [loseSegment_eq hq]
    simp only [ne_eq, bound, not_false_iff, if_true]
    exact lost

theorem State.Minds.refilled (h : s.Minds i X K u) {c : Nat} (fifo : u.pool.fifo = c :: rest) (out : ∀ e ∈ K, e.number ≠ j) :
    s.Minds i X K (u.refilled i j c rest) := by
  have hc : c ∉ X := fun hm => h.fifo c hm (by rw [fifo]; exact List.mem_cons_self ..)
  exact ((h.setFifo fun b hb => by rw [fifo]; exact List.mem_cons_of_mem _ hb).modBlock hc _).modSearch i (f := SearchRecord.refilled j c)
    (fun _ _ _ _ hn => hn) fun _ _ _ keep => keep.setFill out

theorem joinShortfall_outlives (h : s.Outlives i X K u) (k : Nat) : s.Outlives i X K (u.joinShortfall k) := by
  obtain ⟨blocks, callState, serving, search⟩ := h
  refine ⟨fun b hb => (joinShortfall_tapBlock u k b).trans (blocks b hb), ?_, ?_, ?_⟩
  all_goals rw [joinShortfall_ctx]
  · exact callState
  · exact serving
  · exact search

theorem State.Minds.rested (h : s.Minds i X K u) : s.Outlives i X K (restIfUnbound i u) := by
  unfold restIfUnbound
  split
  · obtain ⟨q, hq, keep⟩ := h.search
    have own : ∀ sv, (s.ctx i).serving = some sv → (u.modServing i fun sv => { sv with pathRun := 0 }).ctx i =
        { u.ctx i with serving := some { sv with pathRun := 0 } } := fun sv hsv => State.ctx_modServing_some (h.serving.trans hsv) _
    have search := State.ctx_modCtx_proj Context.search u i i (fun c => { c with serving := c.serving.map fun sv => { sv with pathRun := 0 } })
      fun _ => rfl
    refine ⟨h.blocks, ?_, fun sv hsv => ⟨0, congrArg Context.serving (own sv hsv)⟩, q, search.trans hq, keep⟩
    rw [callState_modServing]
    exact h.callState
  · exact h.outlives

/-- An uncorrectable error takes of the search its segment alone (R92, R93, R110). -/
theorem uncorrectable_outlives (h : (s.losing i j b).Minds i X K (s.losing i j b)) (explores : (s.losing i j b).Explores)
    (out : ∀ e ∈ K, e.number ≠ j) (hj : j < (s.losing i j b).reachOf i) (proc : ((s.losing i j b).ctx i).callState.processes = true) :
    (s.losing i j b).Outlives i X K (uncorrectable i j b s) := by
  obtain ⟨minds, explores'⟩ := perform_promote_minds h explores
  have reach : (perform [.promote] (s.losing i j b)).reachOf i = (s.losing i j b).reachOf i := by
    have outside := outside_perform [.promote] (s.losing i j b)
    rw [State.reachOf, profileOf_of_steady (State.outside_profile outside) (steady_perform _ _ _), State.reachOf]
  generalize act : perform [.promote] (s.losing i j b) = u at minds explores' reach
  have state := minds.callState
  cases fifo : u.pool.fifo with
  | cons c rest =>
    rw [uncorrectable_refills act fifo]
    exact (minds.refilled fifo out).outlives
  | nil =>
    rcases CallState.processes_iff.1 (state ▸ proc) with hc | hc
    · rw [uncorrectable_loses act fifo hc]
      exact (loseSegment_minds minds explores' hc fifo out (reach ▸ hj)).outlives
    · rw [uncorrectable_unfills act fifo hc]
      exact joinShortfall_outlives (State.Minds.rested (minds.modSearch i (f := SearchRecord.unfilled j) (fun _ _ _ _ hn => hn)
        fun _ _ _ keep => keep.setFill out)) i

end Outlives

end Sys2Proof.Machine

namespace Sys2Proof.Machine

open Sys2Proof

/-! ## The state in which an uncorrectable error strikes (R106, R110) -/

section Losing

variable {s w : State} {slot i j b c k : Nat} {sv : Serving} {rin sin : Byte} {r q : SearchRecord} {entry : BitVec 6}

/-! ### The failed block -/

/-- A search record with segment j lost. -/
def SearchRecord.lost (j : Nat) (r : SearchRecord) : SearchRecord := { r with map := setFill j .lost r.map }

theorem losing_pool (w : State) (i j b : Nat) : (w.losing i j b).pool = (w.failBlock b 0).pool := by
  rw [State.losing, State.modSearch_pool, State.noticeRetired, State.notify_pool]

theorem losing_tapBlock (hb : b < w.pool.blocks.length) : (w.losing i j b).tapBlock b = (w.tapBlock b).failedWith 0 := by
  rw [State.tapBlock, losing_pool]
  exact State.tapBlock_modBlock_self w b _ hb

theorem losing_tapBlock_ne (hc : c ≠ b) : (w.losing i j b).tapBlock c = w.tapBlock c := by
  rw [State.tapBlock, losing_pool]
  exact State.tapBlock_modBlock_ne w b c _ hc.symm

theorem losing_fifo (w : State) (i j b : Nat) : (w.losing i j b).pool.fifo = w.pool.fifo := by
  rw [losing_pool]
  rfl

theorem losing_shortfall (w : State) (i j b : Nat) : (w.losing i j b).pool.shortfall = w.pool.shortfall := by
  rw [losing_pool]
  rfl

theorem losing_length (w : State) (i j b : Nat) : (w.losing i j b).pool.blocks.length = w.pool.blocks.length := by
  rw [losing_pool]
  exact State.modBlock_length w b _

theorem noticed_ctx (w : State) (b k : Nat) : ((w.failBlock b 0).noticeRetired b 3).ctx k = w.ctx k := by
  rw [State.noticeRetired_ctx]
  rfl

theorem losing_ctx (hq : (w.ctx i).search = some q) : (w.losing i j b).ctx i = (w.ctx i).searching (q.lost j) := by
  have record := (congrArg Context.search (noticed_ctx w b i)).trans hq
  rw [State.losing, State.ctx_modSearch_self _ _ _ (lt_of_search record), noticed_ctx, hq]
  rfl

theorem losing_ctx_ne (hk : k ≠ i) : (w.losing i j b).ctx k = w.ctx k := by
  rw [State.losing, State.ctx_modSearch_ne _ _ _ _ hk.symm, noticed_ctx]

theorem losing_outside (w : State) (i j b : Nat) : (w.losing i j b).outside = w.outside := by simp [State.losing]

/-! ### The struck state of a sample -/

/-- The state at the tap reads of a sample that meets two wrong bits in an entry of block b. -/
def State.struckAt (s : State) (slot i : Nat) (rin sin : Byte) (sv : Serving) (b : Nat) (entry : BitVec 6) : State :=
  (s.atReads slot i rin sin sv).modBlock b (TapBlock.struck entry 2)

theorem struckAt_tapBlock (hb : b < s.pool.blocks.length) :
    (s.struckAt slot i rin sin sv b entry).tapBlock b = (s.tapBlock b).struck entry 2 := State.tapBlock_modBlock_self _ _ _ hb

theorem struckAt_tapBlock_ne (hc : c ≠ b) : (s.struckAt slot i rin sin sv b entry).tapBlock c = s.tapBlock c :=
  State.tapBlock_modBlock_ne _ _ _ _ hc.symm

theorem struckAt_ctx (plain : s.plainSample slot i sv rin sin) :
    (s.struckAt slot i rin sin sv b entry).ctx i = { s.ctx i with serving := some (heard s rin sin sv) } := atReads_ctx plain

theorem struckAt_ctx_ne (hk : k ≠ i) : (s.struckAt slot i rin sin sv b entry).ctx k = s.ctx k := atReads_ctx_ne hk

theorem struckAt_search (plain : s.plainSample slot i sv rin sin) (here : s.BoundAt i r j b) :
    ((s.struckAt slot i rin sin sv b entry).ctx i).search = some r := by
  rw [struckAt_ctx plain]
  exact here.search

/-- The state behind the failure, before the promotion (R110, R111). -/
def State.lostAt (s : State) (slot i : Nat) (rin sin : Byte) (sv : Serving) (j b : Nat) (entry : BitVec 6) : State :=
  (s.struckAt slot i rin sin sv b entry).losing i j b

theorem lostAt_ctx (plain : s.plainSample slot i sv rin sin) (here : s.BoundAt i r j b) :
    (s.lostAt slot i rin sin sv j b entry).ctx i =
      { s.ctx i with serving := some (heard s rin sin sv), search := some (r.lost j) } := by
  rw [State.lostAt, losing_ctx (struckAt_search plain here), struckAt_ctx plain]
  rfl

theorem lostAt_ctx_ne (hk : k ≠ i) : (s.lostAt slot i rin sin sv j b entry).ctx k = s.ctx k := by
  rw [State.lostAt, losing_ctx_ne hk, struckAt_ctx_ne hk]

theorem lostAt_tapBlock (here : s.BoundAt i r j b) :
    (s.lostAt slot i rin sin sv j b entry).tapBlock b = ((s.tapBlock b).struck entry 2).failedWith 0 := by
  have hb : b < (s.struckAt slot i rin sin sv b entry).pool.blocks.length := (State.modBlock_length _ _ _).symm ▸ here.inPool
  rw [State.lostAt, losing_tapBlock hb, struckAt_tapBlock here.inPool]

theorem lostAt_tapBlock_ne (hc : c ≠ b) : (s.lostAt slot i rin sin sv j b entry).tapBlock c = s.tapBlock c := by
  rw [State.lostAt, losing_tapBlock_ne hc, struckAt_tapBlock_ne hc]

theorem lostAt_fifo : (s.lostAt slot i rin sin sv j b entry).pool.fifo = s.pool.fifo := losing_fifo _ _ _ _

theorem lostAt_shortfall : (s.lostAt slot i rin sin sv j b entry).pool.shortfall = s.pool.shortfall := losing_shortfall _ _ _ _

theorem lostAt_length : (s.lostAt slot i rin sin sv j b entry).pool.blocks.length = s.pool.blocks.length :=
  (losing_length _ _ _ _).trans (State.modBlock_length _ _ _)

theorem lostAt_profile : (s.lostAt slot i rin sin sv j b entry).profile = s.profile :=
  (State.outside_profile (losing_outside _ _ _ _)).trans rfl

theorem lostAt_reachOf (plain : s.plainSample slot i sv rin sin) (here : s.BoundAt i r j b) (k : Nat) :
    (s.lostAt slot i rin sin sv j b entry).reachOf k = s.reachOf k := by
  have profile : (s.lostAt slot i rin sin sv j b entry).profileOf k = s.profileOf k := by
    refine State.profileOf_congr lostAt_profile ?_
    by_cases hk : k = i
    · rw [hk, lostAt_ctx plain here, plain.1.1.2.2.2]
      rfl
    · rw [lostAt_ctx_ne hk]
  rw [State.reachOf, profile, State.reachOf]

/-! ### What the failure leaves of the search -/

/-- The segments of a search that an error on segment j leaves alone. -/
def SearchRecord.spared (j : Nat) (r : SearchRecord) : List Segment := r.map.filter fun e => decide (e.fill ≠ .unfilled) && decide (e.number ≠ j)

theorem mem_spared {e : Segment} : e ∈ r.spared j ↔ e ∈ r.map ∧ e.fill ≠ .unfilled ∧ e.number ≠ j := by
  simp [SearchRecord.spared]

/-- The blocks of the search are minded through the deliveries. -/
theorem lostAt_minds (pool : s.poolSound) (plain : s.plainSample slot i sv rin sin) (here : s.BoundAt i r j b) :
    (s.lostAt slot i rin sin sv j b entry).Minds i (r.bound.map (·.2)) (r.spared j) (s.lostAt slot i rin sin sv j b entry) := by
  have inBlocks : ∀ c ∈ r.bound.map (·.2), c ∈ r.blocks := fun c hc => List.mem_append_left _ hc
  refine ⟨fun _ _ => rfl, fun c hc => ?_, fun c hc => ?_, fun k q hq c hc => ?_, rfl, rfl, fun e he => (mem_spared.1 he).2.1, r.lost j, ?_, ?_⟩
  · by_cases hb : c = b
    · rw [hb, lostAt_tapBlock here]
      exact nofun
    · rw [lostAt_tapBlock_ne hb]
      exact here.sound.owns.spare c (inBlocks c hc)
  · rw [lostAt_fifo]
    exact here.sound.owns.fifo c (inBlocks c hc)
  · by_cases hk : k = i
    · rw [hk, lostAt_ctx plain here] at hq
      obtain rfl := Option.some.inj hq
      exact fun hm => (List.nodup_append.1 here.sound.nodup).2.2 c hc c hm rfl
    · rw [lostAt_ctx_ne hk] at hq
      have apart := here.sound.owns.held k hk c (inBlocks c hc)
      rw [State.heldBlocks_of_search hq] at apart
      exact fun hm => apart (List.mem_append_right _ hm)
  · rw [lostAt_ctx plain here]
  · rw [lostAt_ctx plain here]
    obtain ⟨-, -, -, -, -, -, holds, -⟩ := pool
    obtain ⟨⟨-, -, -, search, -⟩, -⟩ := holds i r here.search
    have keeps : SearchRecord.Keeps (r.spared j) (s.ctx i).callState r :=
      ⟨here.sound.distinct, fun hs e he => ((search hs).1 e he).1, fun e he => (mem_spared.1 he).1⟩
    exact keeps.setFill fun e he => (mem_spared.1 he).2.2

theorem lostAt_explores (pool : s.poolSound) (plain : s.plainSample slot i sv rin sin) (here : s.BoundAt i r j b) :
    (s.lostAt slot i rin sin sv j b entry).Explores := by
  intro k q hk hq waits
  refine Explores_of_patient (lostAt_reachOf plain here k) ?_ (explores_of_sound pool) q hk hq waits
  by_cases same : k = i
  · rw [same, lostAt_ctx plain here]
    intro p hp hr wait
    obtain rfl := Option.some.inj hr
    exact ⟨hp, r, here.search, wait, rfl, Nat.le_refl _⟩
  · rw [lostAt_ctx_ne same]
    exact .refl _

/-- The failed segment lies below the reach (R77). -/
theorem State.BoundAt.reach (here : s.BoundAt i r j b) (pool : s.poolSound) : j < s.reachOf i := by
  obtain ⟨-, -, -, -, -, -, holds, -⟩ := pool
  obtain ⟨⟨⟨-, below⟩, -⟩, -⟩ := holds i r here.search
  exact below ⟨j, .block b⟩ (mem_boundIn.1 here.mem)

/-- The read of the struck block is the uncorrectable error (R110). -/
theorem readBlock_two (here : s.BoundAt i r j b) (clean : (s.tapBlock b).wrong = []) :
    readBlock i (s.struckAt slot i rin sin sv b entry) (j, b) = uncorrectable i j b (s.struckAt slot i rin sin sv b entry) := by
  rw [readBlock]
  simp only [struckAt_tapBlock here.inPool, TapBlock.struck_two clean, if_true]

theorem struckAt_outlives (pool : s.poolSound) (plain : s.plainSample slot i sv rin sin) (here : s.BoundAt i r j b) :
    (s.lostAt slot i rin sin sv j b entry).Outlives i (r.bound.map (·.2)) (r.spared j)
      (uncorrectable i j b (s.struckAt slot i rin sin sv b entry)) := by
  refine uncorrectable_outlives (lostAt_minds pool plain here) (lostAt_explores pool plain here) (fun e he => (mem_spared.1 he).2.2) ?_ ?_
  · rw [show ((s.struckAt slot i rin sin sv b entry).losing i j b).reachOf i = s.reachOf i from lostAt_reachOf plain here i]
    exact here.reach pool
  · rw [show ((s.struckAt slot i rin sin sv b entry).losing i j b).ctx i = _ from lostAt_ctx plain here]
    exact plain.1.2.2.1

theorem losing_onlyNotices (w : State) (i j b : Nat) : (w.losing i j b).OnlyNotices (uncorrectable i j b w) := by
  have promoted : (w.losing i j b).OnlyNotices (perform [.promote] (w.losing i j b)) := perform_onlyNotices _ _
  unfold uncorrectable
  dsimp only
  rw [← State.losing]
  split
  · refine State.OnlyNotices.modSearch ?_ i _
    exact promoted.same rfl
  · split
    · exact promoted.loseSegment i j
    · exact ((promoted.modSearch i _).restIfUnbound i).joinShortfall i
    all_goals exact promoted

end Losing

end Sys2Proof.Machine

namespace Sys2Proof.Machine

open Sys2Proof

/-! ## The sample that an uncorrectable error takes a segment from (R44, R110) -/

section Fails

variable {s t u : State} {slot : BitVec 7} {i j b p : Nat} {sv v : Serving} {rin sin : Byte} {r q : SearchRecord} {entry : BitVec 6}

/-- The bound segments that the error leaves in the sample (R44). -/
def SearchRecord.rest (r : SearchRecord) (j : Nat) : List (Nat × Nat) := r.bound.filter fun jb => decide (jb.1 ≠ j)

theorem SearchRecord.Distinct.bound_nodup (h : q.Distinct) : q.bound.Nodup := (h.sublist q.bound_fst_sublist).of_map

/-- The segments that take part in the sample are those bound at its start but the failed one (R44). -/
theorem takingPart_rest (distinct : r.Distinct) {st : CallState} (keep : q.Keeps (r.spared j) st) :
    (takingPart r.bound q.bound [j]).Perm (r.rest j) := by
  have stays : ∀ jb ∈ r.bound, jb.1 ≠ j → jb ∈ q.bound := fun jb hjb hj =>
    mem_boundIn.2 (keep.kept _ (mem_spared.2 ⟨mem_boundIn.1 hjb, nofun, hj⟩))
  refine (List.perm_ext_iff_of_nodup (keep.distinct.bound_nodup.filter _) (distinct.bound_nodup.filter _)).2 fun jb => ?_
  simp only [List.mem_filter, Bool.and_eq_true, List.any_eq_true, beq_iff_eq, Bool.not_eq_true',
    List.contains_eq_mem, List.mem_singleton, decide_eq_false_iff_not, decide_eq_true_eq]
  constructor
  · rintro ⟨now, ⟨e, he, same⟩, hj⟩
    have mine := SearchRecord.bound_unique keep.distinct (stays e he (same ▸ hj)) now same
    exact ⟨mine ▸ he, hj⟩
  · rintro ⟨before, hj⟩
    exact ⟨stays jb before hj, ⟨jb, before, rfl⟩, hj⟩

theorem State.errorOver_perm {xs ys : List (Nat × Nat)} (h : xs.Perm ys) : t.errorOver xs sv rin sin = t.errorOver ys sv rin sin := by
  rw [State.errorOver, State.errorOver, State.estimateOver, State.estimateOver, (h.map _).sum_eq]

theorem contributes_congr {c d : Context} (proc : d.callState = c.callState) (frozen : d.frozen = c.frozen) (tone : d.toneHold = c.toneHold)
    (active dt : Bool) : contributes d active dt = contributes c active dt := by
  rw [contributes, proc, frozen, tone, contributes]

/-- What the stages behind the error make of the state `u` that it leaves: the segment failed, the error over the other segments, and no
block gathered on but theirs (R43, R44, R47). -/
structure State.FailsOn (s : State) (i : Nat) (rin sin : Byte) (sv : Serving) (r : SearchRecord) (j : Nat) (u t : State) (sv' : Serving) :
    Prop where
  ctx : t.ctx i = { u.ctx i with serving := some sv' }
  failed : sv'.failed = [j]
  sumE : sv'.block.sumE = sv.block.sumE + (s.errorOver (r.rest j) sv rin sin).natAbs ^ 2
  history : sv'.history = (servedAfter s i rin sin sv).history
  hangover : sv'.hangover = (servedAfter s i rin sin sv).hangover
  count : sv'.block.count = (servedAfter s i rin sin sv).block.count
  pathRun : ∀ v, (u.ctx i).serving = some v → sv'.pathRun = v.pathRun
  stand : ∀ c, c ∉ (r.rest j).map (·.2) → t.tapBlock c = u.tapBlock c
  fifo : t.pool.fifo = u.pool.fifo
  shortfall : t.pool.shortfall = u.pool.shortfall
  lane : t.lane = u.lane

theorem rest_block (here : s.BoundAt i r j b) {jb : Nat × Nat} (hjb : jb ∈ r.rest j) : jb.2 ∈ r.bound.map (·.2) ∧ jb.2 ≠ b := by
  obtain ⟨mem, hj⟩ := List.mem_filter.1 hjb
  refine ⟨List.mem_map_of_mem mem, fun he => ?_⟩
  rw [here.of_block mem he] at hj
  simp at hj

theorem rest_nodup (here : s.BoundAt i r j b) : ((r.rest j).map (·.2)).Nodup :=
  (here.boundOf ▸ here.distinct.1).sublist (List.filter_sublist.map _)

theorem sample_fails (pool : s.poolSound) (plain : s.plainSample slot.toNat i sv rin sin) (here : s.BoundAt i r j b)
    (act : uncorrectable i j b (s.struckAt slot.toNat i rin sin sv b entry) = u) :
    ∃ t sv', exec (.sample slot rin sin [⟨BitVec.ofNat 9 b, entry, 2⟩]) s = .next t ∧ s.FailsOn i rin sin sv r j u t sv' := by
  have clean : ∀ jb ∈ s.boundOf i, (s.tapBlock jb.2).wrong = [] := plain.1.2.2.2.2.2
  have mem : (j, b) ∈ s.boundOf i := here.boundOf ▸ here.mem
  have outlives := struckAt_outlives (entry := entry) pool plain here
  have steady := steady_uncorrectable i j b i (s.struckAt slot.toNat i rin sin sv b entry)
  have outside := outside_uncorrectable i j b (s.struckAt slot.toNat i rin sin sv b entry)
  rw [act] at outlives steady outside
  obtain ⟨blocks, callState, serving, q, hq, keep⟩ := outlives
  rw [lostAt_ctx plain here] at callState serving
  obtain ⟨n, hsv⟩ := serving _ rfl
  have kept : ∀ jb ∈ s.boundOf i, jb.2 ≠ b → u.tapBlock jb.2 = s.tapBlock jb.2 := fun jb hjb hne => by
    rw [blocks jb.2 (List.mem_map_of_mem (here.boundOf ▸ hjb)), lostAt_tapBlock_ne hne]
  have fails : failedSegments (s.struckAt slot.toNat i rin sin sv b entry) (s.boundOf i) = [j] :=
    failedSegments_one here.distinct.1 mem (by rw [struckAt_tapBlock here.inPool]; exact TapBlock.struck_two (clean (j, b) mem))
      fun jb hjb hne => by rw [struckAt_tapBlock_ne hne]; exact clean jb hjb
  have run := exec_struck (failed := [j]) plain here.distinct here.few mem ((readBlock_two here (clean (j, b) mem)).trans act)
    (fun jb hjb hne => by rw [kept jb hjb hne]; exact clean jb hjb) fails hsv rfl
  have now : u.boundOf i = q.bound := by
    rw [State.boundOf, hq]
    rfl
  have parts : (takingPart (s.boundOf i) (u.boundOf i) [j]).Perm (r.rest j) := by
    rw [here.boundOf, now]
    exact takingPart_rest here.sound.distinct keep
  have error : ∀ w : Serving, w.history = sv.history → w.receive = sv.receive →
      u.errorOver (takingPart (s.boundOf i) (u.boundOf i) [j]) w rin sin = s.errorOver (r.rest j) sv rin sin := fun w history receive => by
    have window : w.windowAt rin = sv.windowAt rin := by rw [Serving.windowAt, history, receive, Serving.windowAt]
    rw [State.errorOver_perm parts, State.errorOver, window]
    refine State.errorOver_congr (sv := sv) fun jb hjb => ?_
    rw [kept jb (here.boundOf ▸ (List.filter_sublist (l := r.bound)).mem hjb) (rest_block here hjb).2]
  have struck := struckAt_ctx (entry := entry) (b := b) plain
  have gathers := contributes_congr (c := s.ctx i) callState ((Context.steady_frozen steady).trans (by rw [struck]))
    ((Context.steady_toneHold steady).trans (by rw [struck]))
  have lt : i < u.table.contexts.length := lt_of_search hq
  have self := stagesOf_ctx (rin := rin) (sin := sin) (atStart := s.boundOf i) (failed := [j])
    (v := { heard s rin sin sv with pathRun := n }) lt
  have ended := endSample_ctx (slot := slot.toNat) (out := stagesOf i rin sin (s.boundOf i) [j] { heard s rin sin sv with pathRun := n } u)
    (congrArg Context.serving self)
  have nodup : ((takingPart (s.boundOf i) (u.boundOf i) [j]).map (·.2)).Nodup := (parts.map _).nodup_iff.2 (rest_nodup here)
  have length : u.pool.blocks.length = s.pool.blocks.length := (State.outside_blocks outside).trans (State.modBlock_length _ _ _)
  have inPool : ∀ jb ∈ takingPart (s.boundOf i) (u.boundOf i) [j], jb.2 < u.pool.blocks.length := fun jb hjb => by
    rw [length]
    obtain ⟨x, hx, same⟩ := List.mem_map.1 (rest_block here (parts.mem_iff.1 hjb)).1
    exact same ▸ here.sound.inPool _ (SearchRecord.bound_blocks hx)
  have stand := fun p e => (gatherIf_tapBlock nodup inPool p e (Serving.windowAt { heard s rin sin sv with pathRun := n } rin)).2
  have queues := fun p e => gatherIf_queues p (takingPart (s.boundOf i) (u.boundOf i) [j]) e
    (Serving.windowAt { heard s rin sin sv with pathRun := n } rin) u
  refine ⟨_, { (sampleParts u i rin sin ((s.boundOf i).map (·.1)) (takingPart (s.boundOf i) (u.boundOf i) [j])
    { heard s rin sin sv with pathRun := n }).1 with failed := [j], phase := sv.phase + 1 }, run, ?_, rfl, ?_, rfl, rfl, ?_, fun v hv => ?_, fun c hc => ?_, (queues _ _).1, (queues _ _).2.1, (queues _ _).2.2⟩
  · rw [ended, self]
    rfl
  · show sv.block.sumE + (u.errorOver (takingPart (s.boundOf i) (u.boundOf i) [j]) { heard s rin sin sv with pathRun := n } rin sin).natAbs ^ 2 = _
    rw [error { heard s rin sin sv with pathRun := n } rfl rfl]
  · show sv.block.count + (contributes (u.ctx i) _ _).toNat = sv.block.count + (contributes (s.ctx i) _ _).toNat
    rw [gathers]
    rfl
  · obtain rfl := Option.some.inj (hsv.symm.trans hv)
    rfl
  · exact stand _ _ c fun jb hjb he => hc (List.mem_map.2 ⟨jb, parts.mem_iff.1 hjb, he⟩)

end Fails

end Sys2Proof.Machine

namespace Sys2Proof.Machine

open Sys2Proof

/-! ## Where the lost segment goes while no context waits, and with no block to take (R92, R93, R111) -/

section Maps

variable {j h : Nat} {f g : Fill} {map : List Segment}

theorem setFill_setFill (j : Nat) (f g : Fill) (map : List Segment) : setFill j g (setFill j f map) = setFill j g map := by
  rw [setFill, setFill, List.map_map]
  refine List.map_congr_left fun e _ => ?_
  by_cases same : e.number = j <;> simp [same]

theorem filter_setFill (j : Nat) (f : Fill) (map : List Segment) :
    (setFill j f map).filter (·.number != j) = map.filter (·.number != j) := by
  induction map with
  | nil => rfl
  | cons e map ih =>
    have step : setFill j f (e :: map) = (if e.number = j then { e with fill := f } else e) :: setFill j f map := rfl
    rw [step, List.filter_cons, List.filter_cons, ih]
    by_cases same : e.number = j <;> simp [same]

/-- A segment that loses its block. -/
theorem boundIn_unfilled (j : Nat) (map : List Segment) :
    boundIn (setFill j .unfilled map) = (boundIn map).filter fun jb => decide (jb.1 ≠ j) := by
  induction map with
  | nil => rfl
  | cons e map ih =>
    have step : setFill j .unfilled (e :: map) = (if e.number = j then { e with fill := .unfilled } else e) :: setFill j .unfilled map := rfl
    rw [step, boundIn_cons, boundIn_cons, ih, List.filter_append]
    by_cases same : e.number = j
    · rw [if_pos same]
      cases e.block? with
      | none => rfl
      | some c => simp [Segment.block?, same]
    · rw [if_neg same]
      cases e.block? with
      | none => rfl
      | some c => simp [same]

theorem lost_without (r : SearchRecord) (j : Nat) : (r.lost j).without j = r.without j := by
  rw [SearchRecord.without, SearchRecord.without, SearchRecord.lost, filter_setFill]

theorem lost_refilled (r : SearchRecord) (j h : Nat) : (r.lost j).refilled j h = r.refilled j h := by
  rw [SearchRecord.refilled, SearchRecord.refilled, SearchRecord.lost, setFill_setFill]

theorem lost_unfilled (r : SearchRecord) (j : Nat) : (r.lost j).unfilled j = r.unfilled j := by
  rw [SearchRecord.unfilled, SearchRecord.unfilled, SearchRecord.lost, setFill_setFill]

theorem without_bound (r : SearchRecord) (j : Nat) : (r.without j).bound = r.rest j := by
  have left := bound_filter (fun n => n != j) r.map
  refine left.trans (List.filter_congr fun jb _ => ?_)
  rw [Bool.eq_iff_iff]
  simp

theorem unfilled_bound (r : SearchRecord) (j : Nat) : (r.unfilled j).bound = r.rest j := boundIn_unfilled j r.map

theorem ne_filter (l : List Nat) (j : Nat) : l.filter (· != j) = l.filter fun a => decide (a ≠ j) :=
  List.filter_congr fun a _ => by
    rw [Bool.eq_iff_iff]
    simp

end Maps

section Exact

variable {s t u : State} {slot : BitVec 7} {i j b h c : Nat} {sv v : Serving} {rin sin : Byte} {r q : SearchRecord} {entry : BitVec 6}
  {rest : List Nat}

theorem rest_length (here : s.BoundAt i r j b) : (r.rest j).length + 1 = r.bound.length := by
  have only : r.bound.filter (fun jb => decide (jb.1 = j)) = [(j, b)] := by
    have same : r.bound.filter (fun jb => decide (jb.1 = j)) = r.bound.filter (· == (j, b)) := List.filter_congr fun jb hjb => by
      rw [Bool.eq_iff_iff]
      simp only [decide_eq_true_eq, beq_iff_eq]
      exact ⟨here.of_segment hjb, fun he => by rw [he]⟩
    rw [same, List.filter_beq, List.count_eq_one_of_mem here.sound.distinct.bound_nodup here.mem]
    rfl
  have split := List.length_eq_length_filter_add (l := r.bound) fun jb => decide (jb.1 = j)
  have others : r.bound.filter (fun jb => !decide (jb.1 = j)) = r.rest j := List.filter_congr fun jb _ => by simp
  rw [only, others] at split
  rw [split]
  exact Nat.add_comm _ _

/-! ### No context waits -/

theorem lostAt_lowestSpare (here : s.BoundAt i r j b) : (s.lostAt slot.toNat i rin sin sv j b entry).lowestSpare = s.lowestSpare :=
  State.lowestSpare_congr lostAt_length fun c => by
    by_cases hc : c = b
    · rw [hc, lostAt_tapBlock here, here.assigned]
      rfl
    · rw [lostAt_tapBlock_ne hc]

/-- `u` is the state in which block h has taken over segment j from the failed block (R92, R93). -/
structure State.FillsLoss (s : State) (i j h : Nat) (rest : List Nat) (r : SearchRecord) (u : State) : Prop where
  fifo : u.pool.fifo = rest
  shortfall : u.pool.shortfall = []
  search : (u.ctx i).search = some (r.refilled j h)
  callState : (u.ctx i).callState = (s.ctx i).callState
  bound : (u.tapBlock h).BoundTo ⟨i, s.slotOf i⟩ j

theorem uncorrectable_fillsLoss (plain : s.plainSample slot.toNat i sv rin sin) (here : s.BoundAt i r j b) (queue : s.pool.shortfall = [])
    (free : s.pool.fifo ++ s.lowestSpare = h :: rest) (inPool : h < s.pool.blocks.length)
    (act : uncorrectable i j b (s.struckAt slot.toNat i rin sin sv b entry) = u) : s.FillsLoss i j h rest r u := by
  have promotes := perform_promote (s := s.lostAt slot.toNat i rin sin sv j b entry) (by rw [lostAt_shortfall, queue])
  obtain ⟨fifo, shortfall, -, -, ctx, outside, -⟩ := promotes
  have self := (ctx i).trans (lostAt_ctx plain here)
  rw [lostAt_fifo, lostAt_lowestSpare here, free] at fifo
  have length := (State.outside_blocks outside).trans lostAt_length
  have made := uncorrectable_refills rfl fifo
  rw [act] at made
  have lt : i < (perform [.promote] (s.lostAt slot.toNat i rin sin sv j b entry)).table.contexts.length :=
    State.lt_of_serving (congrArg Context.serving self)
  have slotOf : (perform [.promote] (s.lostAt slot.toNat i rin sin sv j b entry)).slotOf i = s.slotOf i := by
    rw [State.slotOf, self]
    rfl
  change u = State.refilled (perform [.promote] (s.lostAt slot.toNat i rin sin sv j b entry)) i j h rest at made
  generalize perform [.promote] (s.lostAt slot.toNat i rin sin sv j b entry) = w at made self lt shortfall length slotOf
  have own : u.ctx i = { w.ctx i with search := (w.ctx i).search.map (SearchRecord.refilled j h) } := by
    rw [made]
    exact State.ctx_modSearch_self _ _ _ lt
  rw [self] at own
  refine ⟨by rw [made]; rfl, by rw [made]; exact shortfall, ?_, (congrArg Context.callState own :), ?_⟩
  · rw [own, ← lost_refilled]
    rfl
  · have bound : u.tapBlock h = (w.tapBlock h).boundTo ⟨i, w.slotOf i⟩ j := by
      rw [made]
      exact (State.modSearch_tapBlock _ _ _ _).trans (State.tapBlock_modBlock_self _ _ _ (by rw [← length] at inPool; exact inPool))
    rw [bound, slotOf]
    exact TapBlock.boundTo_boundTo _ _ _

/-! ### No block to take -/

theorem lowestSpare_of_count (none : s.countBlocks .spare = 0) : s.lowestSpare = [] := by
  have empty : s.blocksWhere (fun t => t.state == .spare) = [] := by
    refine List.eq_nil_iff_forall_not_mem.2 fun c hc => ?_
    obtain ⟨lt, spare⟩ := State.mem_blocksWhere.1 hc
    rw [State.tapBlock, List.getD_eq_getElem?_getD, List.getElem?_eq_getElem lt] at spare
    exact List.not_mem_nil ((List.length_eq_zero_iff.1 none) ▸ List.mem_filter.2 ⟨List.getElem_mem lt, spare⟩)
  rw [State.lowestSpare, empty]
  rfl

theorem perform_promote_none {w : State} (none : w.lowestSpare = []) : perform [.promote] w = w := by
  have empty : indicesFrom (fun b => b.state == .spare) 0 w.pool.blocks = [] := by
    rw [State.indicesFrom_blocks]
    exact (List.take_eq_nil_iff.1 none).resolve_left Nat.one_ne_zero
  have task : promoteTask w = (w, []) := by rw [promoteTask, empty]
  rw [perform_single (by rw [doTask, task]), doTask, task]

/-- The search in TRACK whose segment stays unfilled (R93). -/
structure State.LeavesUnfilled (s : State) (i j : Nat) (r : SearchRecord) (sv : Serving) (u : State) : Prop where
  search : (u.ctx i).search = some (r.unfilled j)
  callState : (u.ctx i).callState = .track
  serving : ∃ v, (u.ctx i).serving = some v ∧ v.pathRun = if (r.unfilled j).bound = [] then 0 else sv.pathRun
  shortfall : u.pool.shortfall = if i ∈ s.pool.shortfall then s.pool.shortfall else s.pool.shortfall ++ [i]
  short : i ∉ s.pool.shortfall → maskBit s.profile.noticeMask 3 = true → s.lane.queue.length ≤ 13 →
    ⟨.notice 3 (BitVec.ofNat 16 (s.slotOf i % 128 * 512 + (r.want + 1 - r.held) % 32 * 16)) s.me, s.frame, none⟩ ∈ u.lane.queue

theorem lostAt_queue : (s.lostAt slot.toNat i rin sin sv j b entry).lane.queue.length ≤ s.lane.queue.length + 1 :=
  State.notify_queue_length ((s.struckAt slot.toNat i rin sin sv b entry).failBlock b 0) 5 _

theorem restIfUnbound_eq (w : State) (i : Nat) :
    (restIfUnbound i w).pool = w.pool ∧ (restIfUnbound i w).lane = w.lane ∧ (restIfUnbound i w).profile = w.profile
      ∧ (restIfUnbound i w).frame = w.frame := by
  unfold restIfUnbound
  split <;> exact ⟨rfl, rfl, rfl, rfl⟩

theorem restIfUnbound_ctx {w : State} (hv : (w.ctx i).serving = some v) : (restIfUnbound i w).ctx i =
    { w.ctx i with serving := some { v with pathRun := if w.boundOf i = [] then 0 else v.pathRun } } := by
  unfold restIfUnbound
  split
  · exact State.ctx_modServing_some hv _
  · show w.ctx i = { w.ctx i with serving := some v }
    rw [← hv]

theorem uncorrectable_leavesUnfilled (plain : s.plainSample slot.toNat i sv rin sin) (here : s.BoundAt i r j b) (fifo : s.pool.fifo = [])
    (none : s.countBlocks .spare = 0) (hc : (s.ctx i).callState = .track) (want : r.want = r.map.length) (spare : r.spare = [])
    (act : uncorrectable i j b (s.struckAt slot.toNat i rin sin sv b entry) = u) : s.LeavesUnfilled i j r sv u := by
  have self := lostAt_ctx (entry := entry) plain here
  have made := uncorrectable_unfills (s := s.struckAt slot.toNat i rin sin sv b entry) (i := i) (j := j) (b := b)
    (perform_promote_none ((lostAt_lowestSpare (entry := entry) here).trans (lowestSpare_of_count none))) (lostAt_fifo.trans fifo)
    ((congrArg Context.callState self).trans hc)
  rw [act] at made
  have queue := lostAt_shortfall (s := s) (slot := slot.toNat) (i := i) (rin := rin) (sin := sin) (sv := sv) (j := j) (b := b) (entry := entry)
  have outside := losing_outside (s.struckAt slot.toNat i rin sin sv b entry) i j b
  have room := lostAt_queue (s := s) (slot := slot) (i := i) (rin := rin) (sin := sin) (sv := sv) (j := j) (b := b) (entry := entry)
  change u = State.joinShortfall (restIfUnbound i ((s.lostAt slot.toNat i rin sin sv j b entry).modSearch i (SearchRecord.unfilled j))) i at made
  change (s.lostAt slot.toNat i rin sin sv j b entry).outside = _ at outside
  generalize s.lostAt slot.toNat i rin sin sv j b entry = w at self made queue outside room
  have lt : i < w.table.contexts.length := State.lt_of_serving (congrArg Context.serving self)
  have record : (w.modSearch i (SearchRecord.unfilled j)).ctx i =
      { s.ctx i with serving := some (heard s rin sin sv), search := some (r.unfilled j) } := by
    rw [State.ctx_modSearch_self _ _ _ lt, self, ← lost_unfilled]
    rfl
  have bound : (w.modSearch i (SearchRecord.unfilled j)).boundOf i = (r.unfilled j).bound := by
    rw [State.boundOf, record]
    rfl
  have rested := restIfUnbound_ctx (congrArg Context.serving record)
  obtain ⟨pool, lane, profile, frame⟩ := restIfUnbound_eq (w.modSearch i (SearchRecord.unfilled j)) i
  rw [record, bound] at rested
  generalize restIfUnbound i (w.modSearch i (SearchRecord.unfilled j)) = x at made rested pool lane profile frame
  have length := rest_length here
  have held : (r.unfilled j).held + 1 = r.held := by
    rw [SearchRecord.held, unfilled_bound, SearchRecord.held, ← length]
    show (r.rest j).length + r.spare.length + 1 = (r.rest j).length + 1 + r.spare.length
    omega
  have shortOf : x.shortOf i = r.want + 1 - r.held := by
    rw [State.shortOf, rested]
    show r.want - (r.unfilled j).held = _
    omega
  have missing : x.shortOf i ≠ 0 := by
    have few : r.bound.length ≤ r.map.length := List.length_filterMap_le _ _
    have all : r.held = r.bound.length + r.spare.length := rfl
    rw [shortOf, all, spare, want, List.length_nil]
    omega
  have own : u.ctx i = x.ctx i := by rw [made, joinShortfall_ctx]
  have shortfall : x.pool.shortfall = s.pool.shortfall := by
    rw [pool]
    exact queue
  rw [rested] at own
  refine ⟨congrArg Context.search own, (congrArg Context.callState own).trans hc, ⟨_, congrArg Context.serving own, rfl⟩, ?_, fun fresh mask few => ?_⟩
  · split
    · next mem => rw [made, joinShortfall_of_mem (shortfall ▸ mem), shortfall]
    · next fresh =>
      rw [made, State.joinShortfall_eq (shortfall ▸ fresh) missing, State.notify_pool, shortfall]
  · have slotOf : x.slotOf i = s.slotOf i := by
      rw [State.slotOf, rested]
      rfl
    have profiles : x.profile = s.profile := profile.trans ((State.outside_profile outside).trans rfl)
    have frames : x.frame = s.frame := frame.trans ((State.outside_frame outside).trans rfl)
    have told := State.mem_notify (s := { x with pool := { x.pool with shortfall := x.pool.shortfall ++ [i] } }) (kind := 3)
      (fs := [(7, x.slotOf i), (5, x.shortOf i)]) (by rw [show State.profile _ = x.profile from rfl, profiles]; exact mask)
      (by
        show x.lane.queue.length < 16
        rw [lane]
        show w.lane.queue.length < 16
        omega)
    rw [packLeft_poolShort, shortOf, slotOf] at told
    rw [made, State.joinShortfall_eq (shortfall ▸ fresh) missing, shortOf, slotOf]
    have name : s.me = x.me := by rw [State.me, ← profiles, State.me]
    rw [name, ← frames]
    exact told

end Exact

end Sys2Proof.Machine

namespace Sys2Proof.Machine

open Sys2Proof

/-! ## The loss of a segment in SEARCH with no block to take (R92) -/

section LosesInSearch

variable {s u : State} {slot : BitVec 7} {i j b c : Nat} {sv : Serving} {rin sin : Byte} {r : SearchRecord} {entry : BitVec 6}

/-- `u` is the state in which the search has given up the segment j (R92). -/
structure State.GivesUp (s : State) (i : Nat) (r : SearchRecord) (j : Nat) (sv : Serving) (u : State) (r' : SearchRecord) : Prop where
  search : (u.ctx i).search = some r'
  callState : (u.ctx i).callState = .search
  serving : ∃ v, (u.ctx i).serving = some v ∧ v.pathRun = sv.pathRun
  retained : r'.retained = (r.without j).retained
  goesOn : r.rest j ≠ [] → r' = r.without j ∧ u.pool.shortfall = s.pool.shortfall
  passes : r.rest j = [] → r.spare ≠ [] → r' = (r.without j).begun (s.reachOf i)
  waits : r.rest j = [] → r.spare = [] → r' = (r.without j).resting
    ∧ (0 < r.want → u.pool.shortfall = if i ∈ s.pool.shortfall then s.pool.shortfall else s.pool.shortfall ++ [i])

/-- The blocks that stay with the search (R92). -/
theorem without_blocks (here : s.BoundAt i r j b) : (r.without j).blocks.Sublist r.blocks ∧ b ∉ (r.without j).blocks := by
  have shape : (r.without j).blocks = (r.rest j).map (·.2) ++ r.spare := by
    rw [SearchRecord.blocks, without_bound]
    rfl
  rw [shape]
  refine ⟨(List.filter_sublist.map _).append (.refl _), fun hm => ?_⟩
  rcases List.mem_append.1 hm with hm | hm
  · obtain ⟨jb, hjb, he⟩ := List.mem_map.1 hm
    exact (rest_block here hjb).2 he
  · exact (List.nodup_append.1 here.sound.nodup).2.2 b (List.mem_map_of_mem (f := (·.2)) here.mem) b hm rfl

theorem lostAt_owns (here : s.BoundAt i r j b) :
    ((s.lostAt slot.toNat i rin sin sv j b entry).modSearch i (SearchRecord.without j)).Owns i (r.without j).blocks := by
  obtain ⟨sub, gone⟩ := without_blocks here
  refine ⟨fun c hc => ?_, fun c hc => ?_, fun k hk c hc => ?_⟩
  · rw [State.modSearch_pool, lostAt_fifo]
    exact here.sound.owns.fifo c (sub.mem hc)
  · have other : c ≠ b := fun he => gone (he ▸ hc)
    rw [State.modSearch_tapBlock, lostAt_tapBlock_ne other]
    exact here.sound.owns.spare c (sub.mem hc)
  · rw [State.heldBlocks, State.ctx_modSearch_ne _ _ _ _ hk.symm, lostAt_ctx_ne hk]
    exact here.sound.owns.held k hk c (sub.mem hc)

theorem uncorrectable_givesUp (pool : s.poolSound) (plain : s.plainSample slot.toNat i sv rin sin) (here : s.BoundAt i r j b)
    (fifo : s.pool.fifo = []) (none : s.countBlocks .spare = 0) (hc : (s.ctx i).callState = .search)
    (act : uncorrectable i j b (s.struckAt slot.toNat i rin sin sv b entry) = u) : ∃ r', s.GivesUp i r j sv u r' := by
  have self := lostAt_ctx (entry := entry) plain here
  have made := uncorrectable_loses (s := s.struckAt slot.toNat i rin sin sv b entry) (i := i) (j := j) (b := b)
    (perform_promote_none ((lostAt_lowestSpare (entry := entry) here).trans (lowestSpare_of_count none))) (lostAt_fifo.trans fifo)
    ((congrArg Context.callState self).trans hc)
  rw [act] at made
  change u = loseSegment i j (s.lostAt slot.toNat i rin sin sv j b entry) at made
  have reach := lostAt_reachOf (entry := entry) plain here i
  have hj : j < (s.lostAt slot.toNat i rin sin sv j b entry).reachOf i := reach ▸ here.reach pool
  have minds := loseSegment_minds (lostAt_minds (entry := entry) pool plain here) (lostAt_explores pool plain here)
    ((congrArg Context.callState self).trans hc) (lostAt_fifo.trans fifo) (fun e he => (mem_spared.1 he).2.2) hj
  rw [← made] at minds
  have state : (u.ctx i).callState = .search := minds.callState.trans ((congrArg Context.callState self).trans hc)
  have serving : ∃ v, (u.ctx i).serving = some v ∧ v.pathRun = sv.pathRun :=
    ⟨_, minds.serving.trans (congrArg Context.serving self), rfl⟩
  have record : ((s.lostAt slot.toNat i rin sin sv j b entry).ctx i).search = some (r.lost j) := congrArg Context.search self
  have owns := lostAt_owns (slot := slot) (rin := rin) (sin := sin) (sv := sv) (entry := entry) here
  have queue := lostAt_shortfall (s := s) (slot := slot.toNat) (i := i) (rin := rin) (sin := sin) (sv := sv) (j := j) (b := b) (entry := entry)
  have empty := (lostAt_fifo (s := s) (slot := slot.toNat) (i := i) (rin := rin) (sin := sin) (sv := sv) (j := j) (b := b) (entry := entry)).trans fifo
  have length := lostAt_length (s := s) (slot := slot.toNat) (i := i) (rin := rin) (sin := sin) (sv := sv) (j := j) (b := b) (entry := entry)
  generalize s.lostAt slot.toNat i rin sin sv j b entry = w at self made reach record owns queue hj empty length
  have lost := without_ctx (j := j) record
  rw [lost_without] at lost
  have search : ((w.modSearch i (SearchRecord.without j)).ctx i).search = some (r.without j) := congrArg Context.search lost
  by_cases bound : r.rest j = []
  · by_cases spare : r.spare = []
    · have waits := loseSegment_waits record empty (by rw [lost_without, without_bound, bound]) spare
      rw [← made] at waits
      have resting : ((w.modSearch i (SearchRecord.without j)).modSearch i SearchRecord.resting).ctx i =
          ((w.modSearch i (SearchRecord.without j)).ctx i).searching (r.without j).resting := by
        rw [State.ctx_modSearch_self _ _ _ (lt_of_search search), search]
        rfl
      have shortfall : ((w.modSearch i (SearchRecord.without j)).modSearch i SearchRecord.resting).pool.shortfall = s.pool.shortfall := by
        rw [State.modSearch_pool, State.modSearch_pool, queue]
      have short : ((w.modSearch i (SearchRecord.without j)).modSearch i SearchRecord.resting).shortOf i = r.want := by
        rw [State.shortOf, resting]
        show r.want - ((r.without j).bound.length + r.spare.length) = _
        rw [without_bound, bound, spare]
        rfl
      refine ⟨(r.without j).resting, ?_, state, serving, rfl, fun h => absurd bound h, fun _ h => absurd spare h, fun _ _ => ⟨rfl, fun want => ?_⟩⟩
      · rw [waits, joinShortfall_ctx, resting]
        rfl
      · rw [waits]
        split
        · next mem => rw [joinShortfall_of_mem (by rw [shortfall]; exact mem), shortfall]
        · next fresh =>
          rw [State.joinShortfall_eq (by rw [shortfall]; exact fresh) (by rw [short]; omega), State.notify_pool, shortfall]
    · have passes : u = perform [.passStart i] (w.modSearch i (SearchRecord.without j)) := by
        rw [made, loseSegment_eq record, lost_without]
        simp only [without_bound, bound, ne_eq, not_true, if_false]
        exact if_pos spare
      have reach' : (w.modSearch i (SearchRecord.without j)).reachOf i = s.reachOf i := (reachOf_modSearch _ _ _ _).trans reach
      obtain ⟨sub, -⟩ := without_blocks here
      obtain ⟨began, -, -⟩ := passStart_begins (lt_of_search search) ((callState_modSearch _ _ _ _).trans ((congrArg Context.callState self).trans hc))
        search (by rw [reach']; exact without_unexplored (here.reach pool)) (here.sound.nodup.sublist sub)
        (fun c hc => by
          rw [State.modSearch_pool, length]
          exact here.sound.inPool c (List.mem_append_right _ hc))
        (by
          rw [State.modSearch_pool, queue]
          exact fun hm => (here.sound.queue.mem_erase_iff.1 hm).1 rfl) owns
      rw [← passes, reach'] at began
      exact ⟨(r.without j).begun (s.reachOf i), Context.unoffered_search began, state, serving, rfl, fun h => absurd bound h, fun _ _ => rfl,
        fun _ h => absurd h spare⟩
  · have stays : u = w.modSearch i (SearchRecord.without j) := by
      rw [made, loseSegment_eq record, lost_without]
      simp only [without_bound, ne_eq, bound, not_false_iff, if_true]
    refine ⟨r.without j, by rw [stays]; exact search, state, serving, rfl, fun _ => ⟨rfl, ?_⟩, fun h => absurd h bound, fun h => absurd h bound⟩
    rw [stays, State.modSearch_pool, queue]

/-- A pass start on a spare hand binds a block (R82). -/
theorem begun_bound {q : SearchRecord} {reach : Nat} (unseen : q.unexplored reach ≠ []) (spare : q.spare ≠ []) : (q.begun reach).bound ≠ [] := by
  have perm := SearchRecord.passed_bound q reach
  refine List.ne_nil_of_length_pos ?_
  show 0 < (q.passed reach).bound.length
  rw [perm.length_eq, List.length_append, List.length_zip]
  have one := List.length_pos_iff.2 unseen
  have two := List.length_pos_iff.2 spare
  omega

end LosesInSearch

end Sys2Proof.Machine

namespace Sys2Proof.Machine

open Sys2Proof

/-! ## Memory errors within a sample (R44, R92, R93, R106 to R112) -/

section Errors

variable {s : State} {slot : BitVec 7} {i j b : Nat} {sv : Serving} {rin sin : Byte} {r : SearchRecord} (entry : BitVec 6)

/-- One wrong bit counts; at the retirement count the block takes the mark, or migrates to the FIFO head (R107, R108). -/
theorem sample_corrects (pool : s.poolSound) (plain : s.plainSample slot.toNat i sv rin sin) (here : s.BoundAt i r j b) :
    ∃ t, exec (.sample slot rin sin [⟨BitVec.ofNat 9 b, entry, 1⟩]) s = .next t
      ∧ ((s.tapBlock b).corrected + 1 < 16 ∨ (s.tapBlock b).retirePending = true →
          t = (plainSampled s slot.toNat i rin sin sv).modBlock b (TapBlock.counted (min 255 ((s.tapBlock b).corrected + 1))))
      ∧ (16 ≤ (s.tapBlock b).corrected + 1 → (s.tapBlock b).retirePending = false →
          (s.pool.fifo = [] → t = (plainSampled s slot.toNat i rin sin sv).modBlock b fun u =>
            { u with corrected := min 255 ((s.tapBlock b).corrected + 1), retirePending := true })
          ∧ ∀ h, s.pool.fifo.head? = some h →
              s.MigratedOn (plainSampled s slot.toNat i rin sin sv) i r j b h (servedAfter s i rin sin sv) t) := by
  have due := countedAt_due (slot := slot.toNat) (i := i) (rin := rin) (sin := sin) (sv := sv) here.inPool here.few here.assigned
  by_cases worn : 16 ≤ (s.tapBlock b).corrected + 1 ∧ (s.tapBlock b).retirePending = false
  · rw [if_pos worn] at due
    have late : ¬ ((s.tapBlock b).corrected + 1 < 16 ∨ (s.tapBlock b).retirePending = true) := by
      rw [worn.2]
      rintro (few | marked)
      · omega
      · cases marked
    cases fifo : s.pool.fifo with
    | nil =>
      rw [retire_marks (s := s.countedAt slot.toNat i rin sin sv b) fifo, State.countedAt, State.modBlock_modBlock] at due
      exact ⟨_, exec_one_beside plain here due (fun _ => rfl) (fun _ _ _ _ => rfl), fun h => absurd h late, fun _ _ => ⟨fun _ => rfl, nofun⟩⟩
    | cons h rest =>
      obtain ⟨o, owner, mine⟩ := here.owner
      have re := retire_replaces (rin := rin) (sin := sin) (slot := slot) pool plain here fifo owner mine
      have clean : ∀ jb ∈ s.boundOf i, jb.2 ≠ b → ((retire b (s.countedAt slot.toNat i rin sin sv b)).tapBlock jb.2).wrong = [] :=
        fun jb hjb hne => by
          have mem : jb ∈ r.bound := here.boundOf ▸ hjb
          have migrates := countedAt_migrates (slot := slot) (rin := rin) (sin := sin) (sv := sv) pool here fifo owner
          have spared : jb.2 ∉ (s.countedAt slot.toNat i rin sin sv b).lowestSpare := fun hm => by
            have spare := (State.mem_lowestSpare hm).2
            rw [countedAt_tapBlock_ne hne] at spare
            exact here.sound.owns.spare _ (SearchRecord.bound_blocks mem) spare
          rw [migrates.stand jb.2 (re.fresh jb mem) hne spared, countedAt_tapBlock_ne hne]
          exact plain.1.2.2.2.2.2 jb hjb
      refine ⟨_, exec_one plain here due clean (congrArg Context.serving re.ctx), fun h => absurd h late, fun _ _ => ⟨nofun, fun g head => ?_⟩⟩
      obtain rfl := Option.some.inj head
      exact sample_migrates pool plain here fifo
  · rw [if_neg worn] at due
    exact ⟨_, exec_one_beside plain here due (fun _ => rfl) (fun _ _ _ _ => rfl), fun _ => rfl,
      fun most unmarked => absurd ⟨most, unmarked⟩ worn⟩

/-! ### Two wrong bits -/

variable {entry} {t u : State} {sv' : Serving} {h : Nat}

theorem packLeft_retired (hb : b < 512) (cause : Nat) (hc : cause < 4) : packLeft 16 [(9, b), (2, cause)] = b * 128 + cause * 32 := by
  simp only [packLeft, packed, widthOf, List.foldl]
  omega

/-- The BLOCK RETIRED notice of the error stays queued (R112, R151). -/
theorem uncorrectable_notice (here : s.BoundAt i r j b) (mask : maskBit s.profile.noticeMask 5 = true) (few : s.lane.queue.length ≤ 13) :
    ⟨.notice 5 (BitVec.ofNat 16 (b * 128 + 3 * 32)) s.me, s.frame, none⟩ ∈
      (uncorrectable i j b (s.struckAt slot.toNat i rin sin sv b entry)).lane.queue := by
  have hb : b < 512 := lt_of_lt_of_le here.inPool (by rw [here.few]; decide)
  have told := State.mem_notify (s := (s.struckAt slot.toNat i rin sin sv b entry).failBlock b 0) (kind := 5) (fs := [(9, b), (2, 3)])
    mask (Nat.lt_of_le_of_lt few (by decide))
  rw [packLeft_retired hb 3 (by decide)] at told
  exact (losing_onlyNotices (s.struckAt slot.toNat i rin sin sv b entry) i j b).queue_stays told (show 3 ≠ 9 by decide)
    (show 3 ≠ 13 by decide)

/-- The segment is taken over by the FIFO head, with the promoted spare behind it (R92, R93, R111). -/
theorem fails_over (pool : s.poolSound) (plain : s.plainSample slot.toNat i sv rin sin) (here : s.BoundAt i r j b)
    (act : uncorrectable i j b (s.struckAt slot.toNat i rin sin sv b entry) = u) (fails : s.FailsOn i rin sin sv r j u t sv')
    (queue : s.pool.shortfall = []) (head : (s.pool.fifo ++ s.lowestSpare).head? = some h) :
    s.FillsLoss i j h ((s.pool.fifo ++ s.lowestSpare).drop 1) r t := by
  obtain ⟨rest, free⟩ : ∃ rest, s.pool.fifo ++ s.lowestSpare = h :: rest := List.head?_eq_some_iff.1 head
  have mem : h ∈ s.pool.fifo ++ s.lowestSpare := by
    rw [free]
    exact List.mem_cons_self ..
  have inPool : h < s.pool.blocks.length := (List.mem_append.1 mem).elim (fun hm => here.few ▸ ((pool.2.2.2.1 h).1 hm).1)
    fun hm => (State.mem_lowestSpare hm).1
  have apart : h ∉ (r.rest j).map (·.2) := fun hm => by
    obtain ⟨jb, hjb, same⟩ := List.mem_map.1 hm
    have held : h ∈ r.blocks := List.mem_append_left _ (same ▸ (rest_block here hjb).1)
    exact (List.mem_append.1 mem).elim (here.sound.owns.fifo h held) fun hm => here.sound.owns.spare h held (State.mem_lowestSpare hm).2
  obtain ⟨fifo, shortfall, search, callState, bound⟩ := uncorrectable_fillsLoss plain here queue free inPool act
  refine ⟨fails.fifo.trans (by rw [fifo, free]; rfl), fails.shortfall.trans shortfall, ?_, ?_, by rw [fails.stand h apart]; exact bound⟩
  · rw [fails.ctx]
    exact search
  · rw [fails.ctx]
    exact callState

/-- A search whose one bound segment fails has an empty map (R78, R92). -/
theorem alone_map (bound : ∀ e ∈ r.map, e.number ∈ r.explored ∧ e.block?.isSome = true) (alone : r.rest j = []) :
    r.map.filter (·.number != j) = [] := by
  refine List.eq_nil_iff_forall_not_mem.2 fun e he => ?_
  obtain ⟨mem, other⟩ := List.mem_filter.1 he
  obtain ⟨c, hc⟩ := Option.isSome_iff_exists.1 (bound e mem).2
  have held : (e.number, c) ∈ r.rest j := List.mem_filter.2 ⟨List.mem_filterMap.2 ⟨e, mem, by rw [hc]; rfl⟩, by simpa using other⟩
  rw [alone] at held
  cases held

end Errors

/-- Settles O27: the reads of a sample are the act on the one block struck and the stages over what it leaves bound; no delivery that the
error sets off reaches the other segments of the search. -/
theorem sampleFindsMemoryErrors : Obligations.SampleFindsMemoryErrors := by
  intro s slot rin sin i sv r j b entry plain pool hr mem
  have here := poolSound_boundAt pool hr mem
  have hsv := plain.1.1.2.2.2
  refine ⟨_, servedAfter s i rin sin sv, exec_plain plain, congrArg Context.serving (plainSampled_ctx hsv), ?_, ?_⟩
  · obtain ⟨t, act, quiet, worn⟩ := sample_corrects entry pool plain here
    refine ⟨t, act, quiet, fun most unmarked => ⟨(worn most unmarked).1, fun h head => ?_⟩⟩
    obtain ⟨fifo, failed, corrected, assigned, owner, segment, entries, bound, serving, highway, others⟩ := (worn most unmarked).2 h head
    exact ⟨by rw [fifo, State.lowestSpare_of_length here.few], failed, corrected, assigned, owner, segment, entries, bound, serving, highway, others⟩
  · obtain ⟨t, sv', act, fails⟩ := sample_fails (entry := entry) pool plain here rfl
    have outlives := struckAt_outlives (entry := entry) pool plain here
    have notice := uncorrectable_notice (slot := slot) (rin := rin) (sin := sin) (sv := sv) (entry := entry) here
    obtain ⟨-, -, -, -, -, -, holds, -⟩ := id pool
    obtain ⟨⟨-, -, -, explored, track⟩, -⟩ := holds i r hr
    generalize made : uncorrectable i j b (s.struckAt slot.toNat i rin sin sv b entry) = u at fails outlives notice
    obtain ⟨blocks, -, -, q, hq, -⟩ := outlives
    have search : (t.ctx i).search = some q := by
      rw [fails.ctx]
      exact hq
    have block : t.tapBlock b = ((s.tapBlock b).struck entry 2).failedWith 0 := by
      rw [fails.stand b fun hm => by
        obtain ⟨jb, hjb, same⟩ := List.mem_map.1 hm
        exact (rest_block here hjb).2 same, blocks b (List.mem_map_of_mem (f := (·.2)) mem), lostAt_tapBlock here]
    refine ⟨t, sv', q, act, congrArg Context.serving fails.ctx, search, by rw [block]; rfl, by rw [block]; rfl, by rw [block]; rfl,
      by rw [block]; rfl, fails.failed, fails.sumE, fails.history, fails.hangover, fails.count,
      fun mask few => by rw [fails.lane]; exact notice mask few, fun queue h head => ?_, fun fifo none => ⟨fun hc => ?_, fun hc => ?_⟩⟩
    · rw [← State.lowestSpare_of_length here.few] at head ⊢
      obtain ⟨fifo, shortfall, record, callState, bound⟩ := fails_over pool plain here made fails queue head
      obtain rfl := Option.some.inj (search.symm.trans record)
      exact ⟨fifo, shortfall, here.swaps, bound.state, bound.segment, bound.owner, bound.entries, rfl, rfl, rfl, callState⟩
    · obtain ⟨spare, want, -⟩ := track hc
      obtain ⟨record, callState, ⟨v, serving, pathRun⟩, shortfall, short⟩ := uncorrectable_leavesUnfilled plain here fifo none hc want spare made
      obtain rfl := Option.some.inj (hq.symm.trans record)
      refine ⟨rfl, rfl, ?_, (fails.pathRun v serving).trans pathRun, fails.shortfall.trans shortfall, fun fresh mask few => ?_⟩
      · rw [fails.ctx]
        exact callState
      · rw [fails.lane]
        exact short fresh mask few
    · obtain ⟨q', record, callState, ⟨v, serving, pathRun⟩, retained, goesOn, passes, waits⟩ :=
        uncorrectable_givesUp pool plain here fifo none hc made
      obtain rfl := Option.some.inj (hq.symm.trans record)
      have length := rest_length here
      have alone : r.bound.length = 1 → r.rest j = [] := fun one => List.length_eq_zero_iff.1 (by omega)
      refine ⟨by rw [fails.ctx]; exact callState, (fails.pathRun v serving).trans pathRun, retained.trans (ne_filter _ _),
        fun two => ?_, fun one spare => ?_, fun one spare want => ?_⟩
      · obtain ⟨rfl, shortfall⟩ := goesOn (List.ne_nil_of_length_pos (by omega))
        refine ⟨rfl, List.filter_congr fun e _ => ?_, ne_filter _ _, rfl, rfl, rfl, rfl, fails.shortfall.trans shortfall⟩
        rw [Bool.eq_iff_iff]
        simp
      · obtain rfl := passes (alone one) spare
        exact ⟨rfl, rfl, rfl, rfl, begun_bound (without_unexplored (here.reach pool)) spare⟩
      · obtain ⟨rfl, shortfall⟩ := waits (alone one) spare
        refine ⟨rfl, ?_, ne_filter _ _, rfl, rfl, rfl, fails.shortfall.trans (shortfall want)⟩
        exact alone_map (explored hc).1 (alone one)

end Sys2Proof.Machine
